-- ==== Sys2Proof/Word.lean ====
section
/-! DEFINITION. The word types of the machine and the one shape in which sparse state is held. -/

namespace Sys2Proof

/-- A byte of memory. -/
abbrev Byte := BitVec 8

/-- A handle: generation in bits 15..8, slot index in bits 7..0 (R24). -/
abbrev Handle := BitVec 16

/-- A v or s register (R22). -/
abbrev Word := BitVec 32

/-- A w or x register, and every address while it is computed (R22). -/
abbrev Word64 := BitVec 64

/-- One bit per lane of a team, lane 0 least significant; a team has at most 1,024 lanes (R10). -/
abbrev Mask := BitVec 1024

/-- Sparse data by number: pairs in strictly rising order of the number, none equal to the default an
unlisted number reads as. Memory, register files and every table of the device are held so. -/
abbrev Tbl (α : Type) := List (Nat × α)

end Sys2Proof
end

