-- ==== Sys2Proof/Machine/Crypto.lean ====
section
/-! DEFINITION. The functions of FIPS 202, FIPS 205 and FIPS 197 that the specification names: SHAKE256 and SHA3-384 (R76, R323,
R421), the verification of SLH-DSA-SHAKE signatures (R76, R335), AES-256 (R402), and CRC-32C (R325). -/

namespace Sys2Proof.Machine

/-! ### Keccak (FIPS 202) -/

/-- The sponge's state, lane after lane: lane (x, y) stands at 5y + x. -/
abbrev Keccak := List Word64

/-- Where lane (x, y) stands. -/
def spot (x y : Nat) : Nat := y % 5 * 5 + x % 5

/-- The lane that stands at a spot. -/
def Keccak.lane (k : Keccak) (i : Nat) : Word64 := (k[i]?).getD 0

/-- The bit register behind the round constants (algorithm 5): one step of it. -/
def keccakStep (r : Nat) : Nat := if r < 128 then 2 * r else (2 * r) ^^^ 0x171

/-- A round constant from the register as the round finds it, and the register after the seven bits that it takes: bit j of them
stands at 2^j − 1. -/
def keccakConst : Nat → Nat → Nat × Nat
  | 0, r => (0, r)
  | n + 1, r =>
    let (rest, r') := keccakConst n (keccakStep r)
    (r % 2 * 2 ^ (2 ^ (6 - n) - 1) + rest, r')

/-- Step θ: every lane takes the parities of the column before its own and, rotated, of the one behind it. -/
def Keccak.mixColumns (k : Keccak) : Keccak :=
  let parity := (List.range 5).map fun x => (List.range 5).foldl (fun w y => w ^^^ k.lane (spot x y)) 0
  let around (x : Nat) : Word64 := Keccak.lane parity ((x + 4) % 5) ^^^ (Keccak.lane parity ((x + 1) % 5)).rotateLeft 1
  k.zipIdx.map fun e => e.1 ^^^ around (e.2 % 5)

/-- Steps ρ and π together: from (1, 0) onward each lane of the walk (x, y) to (y, 2x + 3y) goes to the next place of the walk,
rotated by the sum of the steps so far. -/
def keccakWalk (k : Keccak) : Nat → Nat → Nat → Nat → Keccak → Keccak
  | 0, _, _, _, out => out
  | n + 1, x, y, turn, out =>
    let next := 2 * x + 3 * y
    keccakWalk k n y next (turn + (25 - n)) (out.set (spot y next) ((k.lane (spot x y)).rotateLeft (turn % 64)))

/-- Step χ: a lane takes the one two places on where the one between is zero. -/
def Keccak.mixRows (k : Keccak) : Keccak :=
  k.zipIdx.map fun e => e.1 ^^^ (~~~k.lane (spot (e.2 + 1) (e.2 / 5)) &&& k.lane (spot (e.2 + 2) (e.2 / 5)))

/-- One round from the constant register: θ, ρ, π, χ, and ι at the first lane. -/
def keccakTurn (r : Nat) (k : Keccak) : Nat × Keccak :=
  let m := k.mixColumns
  let (c, r') := keccakConst 7 r
  (r', (Keccak.mixRows (keccakWalk m 24 1 0 1 m)).modifyHead fun w => w ^^^ BitVec.ofNat 64 c)

/-- Keccak-f[1600]: 24 rounds. -/
def Keccak.permute (k : Keccak) : Keccak := ((List.range 24).foldl (fun s _ => keccakTurn s.1 s.2) (1, k)).2

/-- Eight bytes as a lane, least significant first. -/
def laneOf : List Byte → Nat
  | [] => 0
  | b :: l => b.toNat + 256 * laneOf l

/-- The bytes of a lane. -/
def laneBytes (w : Word64) : List Byte := (List.range 8).map fun i => BitVec.ofNat 8 (w.toNat / 2 ^ (8 * i))

/-- A list in pieces of `n`, as many as `fuel` allows. -/
def piecesOf (n : Nat) : Nat → List Byte → List (List Byte)
  | 0, _ => []
  | fuel + 1, l => if l.isEmpty then [] else l.take n :: piecesOf n fuel (l.drop n)

/-- Absorb a block. -/
def Keccak.absorb (a : Keccak) (block : List Byte) : Keccak :=
  let w := (piecesOf 8 25 block).map fun p => BitVec.ofNat 64 (laneOf p)
  Keccak.permute (((List.range 25).zip a).map fun e => e.2 ^^^ w.getD e.1 0)

/-- The padding pad10*1 behind a domain suffix. -/
def keccakPad (rate suffix : Nat) (l : List Byte) : List Byte :=
  let gap := rate - l.length % rate
  if gap = 1 then l ++ [BitVec.ofNat 8 (suffix + 0x80)]
  else l ++ BitVec.ofNat 8 suffix :: List.replicate (gap - 2) 0 ++ [0x80]

/-- Squeeze `n` bytes. -/
def Keccak.squeeze (rate : Nat) : Nat → Keccak → Nat → List Byte
  | 0, _, _ => []
  | fuel + 1, a, n =>
    let out := (a.flatMap laneBytes).take rate
    if n ≤ rate then out.take n else out ++ Keccak.squeeze rate fuel a.permute (n - rate)

/-- The sponge over a message of bytes. -/
def sponge (rate suffix n : Nat) (l : List Byte) : List Byte :=
  let p := keccakPad rate suffix l
  Keccak.squeeze rate (n + 1) ((piecesOf rate p.length p).foldl Keccak.absorb (List.replicate 25 0)) n

/-- SHAKE256: `n` bytes. -/
def shake256 (n : Nat) (l : List Byte) : List Byte := sponge 136 0x1F n l
/-- SHA3-384: 48 bytes. -/
def sha3x384 (l : List Byte) : List Byte := sponge 104 0x06 48 l

/-- Bytes as a number, most significant first. -/
def beNat (l : List Byte) : Nat := l.foldl (fun n b => 256 * n + b.toNat) 0
/-- A number as `n` bytes, most significant first. -/
def beBytes (n x : Nat) : List Byte := (List.range n).map fun i => BitVec.ofNat 8 (x / 256 ^ (n - 1 - i))

/-! ### SLH-DSA-SHAKE-256s (FIPS 205): n = 32, h = 64, d = 8, h' = 8, a = 14, k = 22, w = 16 -/

/-- An address: layer, tree, type, and three words. -/
structure SlhAdrs where
  layer : Nat := 0
  tree : Nat := 0
  kind : Nat := 0
  w1 : Nat := 0
  w2 : Nat := 0
  w3 : Nat := 0

/-- The 32 bytes of an address. -/
def SlhAdrs.bytes (x : SlhAdrs) : List Byte :=
  beBytes 4 x.layer ++ beBytes 12 x.tree ++ beBytes 4 x.kind ++ beBytes 4 x.w1 ++ beBytes 4 x.w2 ++ beBytes 4 x.w3

/-- F, H and T_l: 32 bytes of SHAKE256 over the public seed, an address and a message. -/
def slhHash (seed : List Byte) (x : SlhAdrs) (m : List Byte) : List Byte := shake256 32 (seed ++ x.bytes ++ m)

/-- Node `i` of a list of 32-byte nodes. -/
def slhNode (l : List Byte) (i : Nat) : List Byte := (l.drop (32 * i)).take 32

/-- The `i`-th group of `b` bits of a string, most significant first. -/
def slhDigit (l : List Byte) (b i : Nat) : Nat := beNat l / 2 ^ (8 * l.length - b * (i + 1)) % 2 ^ b

/-- The climb of an authentication path from a node of number `idx` at height `j`, `base` the number of its tree's first leaf. -/
def slhClimb (seed : List Byte) (x : SlhAdrs) : List (List Byte) → Nat → Nat → Nat → List Byte → List Byte
  | [], _, _, _, node => node
  | s :: l, j, idx, number, node =>
    let y := { x with w2 := j + 1, w3 := number / 2 }
    slhClimb seed x l (j + 1) (idx / 2) (number / 2)
      (if idx % 2 = 0 then slhHash seed y (node ++ s) else slhHash seed y (s ++ node))

/-- `s` steps of a WOTS+ chain from position `i`. -/
def slhChain (seed : List Byte) (x : SlhAdrs) : Nat → Nat → List Byte → List Byte
  | _, 0, v => v
  | i, s + 1, v => slhChain seed x (i + 1) s (slhHash seed { x with w3 := i } v)

/-- The WOTS+ public key that a signature of a 32-byte message gives. -/
def slhWots (seed : List Byte) (x : SlhAdrs) (pair : Nat) (sig m : List Byte) : List Byte :=
  let d := (List.range 64).map (slhDigit m 4)
  let sum := d.foldl (fun n e => n + (15 - e)) 0
  let all := d ++ (List.range 3).map (slhDigit (beBytes 2 (sum * 16)) 4)
  let y : SlhAdrs := { layer := x.layer, tree := x.tree, w1 := pair }
  let ends := ((List.range 67).zip all).flatMap fun e => slhChain seed { y with w2 := e.1 } e.2 (15 - e.2) (slhNode sig e.1)
  slhHash seed { y with kind := 1 } ends

/-- What a parameter set of SLH-DSA-SHAKE at 32 bytes fixes beyond its hash: the height of a tree, the layers, and the height and
number of the FORS trees (FIPS 205, table 2). -/
structure SlhParams where
  tall : Nat
  layers : Nat
  forsTall : Nat
  forsTrees : Nat

/-- SLH-DSA-SHAKE-256s. -/
def slh256s : SlhParams := { tall := 8, layers := 8, forsTall := 14, forsTrees := 22 }
/-- SLH-DSA-SHAKE-256f. -/
def slh256f : SlhParams := { tall := 4, layers := 17, forsTall := 9, forsTrees := 35 }

/-- Bytes of the digest that choose FORS leaves, and of the one that chooses the tree. -/
def SlhParams.mdBytes (q : SlhParams) : Nat := (q.forsTrees * q.forsTall + 7) / 8
/-- Bytes of the digest that choose the tree. -/
def SlhParams.treeBytes (q : SlhParams) : Nat := (q.tall * (q.layers - 1) + 7) / 8
/-- Bytes of the FORS signature, of an XMSS signature, and of a whole signature. -/
def SlhParams.forsBytes (q : SlhParams) : Nat := 32 * (q.forsTrees * (q.forsTall + 1))
/-- Bytes of an XMSS signature. -/
def SlhParams.xmssBytes (q : SlhParams) : Nat := 32 * (67 + q.tall)
/-- Bytes of a signature. -/
def SlhParams.sigBytes (q : SlhParams) : Nat := 32 + q.forsBytes + q.layers * q.xmssBytes

/-- The root that an XMSS signature of a message gives: leaf `idx` of a tree. -/
def slhXmss (q : SlhParams) (seed : List Byte) (layer tree idx : Nat) (sig m : List Byte) : List Byte :=
  let x : SlhAdrs := { layer := layer, tree := tree }
  let leaf := slhWots seed x idx sig m
  slhClimb seed { x with kind := 2 } ((List.range q.tall).map fun k => slhNode sig (67 + k)) 0 idx idx leaf

/-- The root of the hypertree that a signature gives, layer by layer. -/
def slhTop (q : SlhParams) (seed sig : List Byte) : List Nat → Nat → Nat → List Byte → List Byte
  | [], _, _, m => m
  | j :: l, tree, leaf, m =>
    slhTop q seed sig l (tree / 2 ^ q.tall) (tree % 2 ^ q.tall)
      (slhXmss q seed j tree leaf ((sig.drop (q.xmssBytes * j)).take q.xmssBytes) m)

/-- The FORS public key that a signature of the digest's indices gives. -/
def slhFors (q : SlhParams) (seed : List Byte) (tree leaf : Nat) (sig md : List Byte) : List Byte :=
  let x : SlhAdrs := { tree := tree, kind := 3, w1 := leaf }
  let roots := (List.range q.forsTrees).flatMap fun i =>
    let idx := slhDigit md q.forsTall i
    let part := (sig.drop (32 * (q.forsTall + 1) * i)).take (32 * (q.forsTall + 1))
    let number := i * 2 ^ q.forsTall + idx
    slhClimb seed x ((List.range q.forsTall).map fun j => slhNode part (1 + j)) 0 idx number
      (slhHash seed { x with w3 := number } (slhNode part 0))
  slhHash seed { tree := tree, kind := 4, w1 := leaf } roots

/-- SLH-DSA-SHAKE verification in its pure form with an empty context (R76, R335): a 64-byte public key, a message, a
signature. -/
def slhVerify (q : SlhParams) (key message sig : List Byte) : Bool :=
  let seed := key.take 32
  let root := key.drop 32
  let m : List Byte := 0 :: 0 :: message
  let digest := shake256 (q.mdBytes + q.treeBytes + 1) (sig.take 32 ++ seed ++ root ++ m)
  let tree := beNat ((digest.drop q.mdBytes).take q.treeBytes) % 2 ^ (q.tall * (q.layers - 1))
  let leaf := beNat (digest.drop (q.mdBytes + q.treeBytes)) % 2 ^ q.tall
  let fors := slhFors q seed tree leaf ((sig.drop 32).take q.forsBytes) (digest.take q.mdBytes)
  key.length == 64 && sig.length == q.sigBytes && slhTop q seed (sig.drop (32 + q.forsBytes)) (List.range q.layers) tree leaf fors == root

/-! ### CRC-32C (R325) -/

/-- One bit of a CRC-32C, least significant first. -/
def crcBit (c : BitVec 32) : BitVec 32 := if c.getLsbD 0 then (c >>> 1) ^^^ 0x82F63B78 else c >>> 1

/-- CRC-32C over bytes: reflected, initial value and final XOR of all ones. -/
def crc32c (l : List Byte) : BitVec 32 :=
  ~~~(l.foldl (fun c b => (List.range 8).foldl (fun c _ => crcBit c) (c ^^^ b.setWidth 32)) 0xFFFFFFFF)

/-! ### AES-256 (FIPS 197) -/

/-- Multiplication by x in the field of AES. -/
def aesDouble (a : Byte) : Byte := if a.getLsbD 7 then a <<< 1 ^^^ 0x1B else a <<< 1
/-- Multiplication in the field of AES. -/
def aesMul (a b : Byte) : Byte :=
  ((List.range 8).foldl (fun (e : Byte × Byte) i => (if b.getLsbD i then e.1 ^^^ e.2 else e.1, aesDouble e.2)) (0, a)).1
/-- The S-box: the inverse, as the 254th power, and the affine map. -/
def aesSub (a : Byte) : Byte :=
  let p2 := aesMul a a
  let p4 := aesMul p2 p2
  let p8 := aesMul p4 p4
  let p16 := aesMul p8 p8
  let p32 := aesMul p16 p16
  let p64 := aesMul p32 p32
  let i := aesMul (aesMul (aesMul (aesMul (aesMul (aesMul p2 p4) p8) p16) p32) p64) (aesMul p64 p64)
  i ^^^ i.rotateLeft 1 ^^^ i.rotateLeft 2 ^^^ i.rotateLeft 3 ^^^ i.rotateLeft 4 ^^^ 0x63

/-- Words of four bytes added. -/
def aesXor (a b : List Byte) : List Byte := (a.zip b).map fun e => e.1 ^^^ e.2

/-- The next word of the key schedule, the words so far latest first; `rc` is the round constant. -/
def aesExpand : Nat → Nat → Byte → List (List Byte) → List (List Byte)
  | 0, _, _, ws => ws
  | fuel + 1, i, rc, ws =>
    let prev := ws.getD 0 []
    let old := ws.getD 7 []
    if i % 8 = 0 then
      let t := ((prev.drop 1) ++ prev.take 1).map aesSub
      aesExpand fuel (i + 1) (aesDouble rc) (aesXor old (aesXor t [rc, 0, 0, 0]) :: ws)
    else if i % 8 = 4 then aesExpand fuel (i + 1) rc (aesXor old (prev.map aesSub) :: ws)
    else aesExpand fuel (i + 1) rc (aesXor old prev :: ws)

/-- The 240 bytes of the key schedule of a 32-byte key. -/
def aesSchedule (key : List Byte) : List Byte :=
  ((aesExpand 52 8 1 ((List.range 8).map fun i => (key.drop (4 * i)).take 4).reverse).reverse).flatMap id

/-- ShiftRows, column by column. -/
def aesShift (s : List Byte) : List Byte := (List.range 16).map fun i => s.getD ((i + 4 * (i % 4)) % 16) 0
/-- MixColumns. -/
def aesMix (s : List Byte) : List Byte :=
  (List.range 16).map fun i =>
    let b (k : Nat) : Byte := s.getD (i / 4 * 4 + (i + k) % 4) 0
    aesDouble (b 0) ^^^ (aesDouble (b 1) ^^^ b 1) ^^^ b 2 ^^^ b 3

/-- AES-256 of a block of 16 bytes. -/
def aesBlock (key block : List Byte) : List Byte :=
  let w := aesSchedule key
  let round (s : List Byte) (r : Nat) : List Byte := aesXor (aesMix (aesShift (s.map aesSub))) ((w.drop (16 * r)).take 16)
  let s := (List.range 13).foldl (fun s r => round s (r + 1)) (aesXor block (w.take 16))
  aesXor (aesShift (s.map aesSub)) (w.drop 224)

/-- AES-256 of a 128-bit block under a 256-bit key, both with their first byte most significant. -/
def aes256 (key : BitVec 256) (x : BitVec 128) : BitVec 128 :=
  BitVec.ofNat 128 (beNat (aesBlock (beBytes 32 key.toNat) (beBytes 16 x.toNat)))

end Sys2Proof.Machine
end

