-- ==== Sys2Proof/Machine/Flags.lean ====
section
/-! DEFINITION. The sticky numeric flags of NFLAGS (R93). -/

namespace Sys2Proof.Machine

/-- A set of NFLAGS bits. -/
abbrev Flags := Word

/-- A signalling NaN, an invalid operation, or a conversion out of an integer's range. -/
def flagIV : Flags := 0x001
/-- A finite nonzero value divided by zero; an integer division by zero. -/
def flagDZ : Flags := 0x002
/-- Overflow. -/
def flagOF : Flags := 0x004
/-- Underflow. -/
def flagUF : Flags := 0x008
/-- The delivered result differs from the exact one. -/
def flagNX : Flags := 0x010
/-- A saturating integer instruction clamped, or an i32 accumulator wrapped. -/
def flagSAT : Flags := 0x020
/-- A Pip4 conversion produced a doublet. -/
def flagOUTL : Flags := 0x040
/-- A Pip4 conversion clipped a value. -/
def flagOCLIP : Flags := 0x080
/-- A matrix operation ran dense because of its B range's non-finite bit. -/
def flagSKIPOFF : Flags := 0x100

/-- The flag if the condition holds. -/
def flagIf (b : Bool) (f : Flags) : Flags := if b then f else 0

/-- Bits 8..0 are the flags; the rest of NFLAGS reads zero (R93). -/
def flagMask : Flags := 0x1FF

end Sys2Proof.Machine
end

