-- ==== Sys2Proof/Machine/Numbers.lean ====
section
/-! DEFINITION. Floating-point formats, exact values, rounding and Pip4 (R78 to R92), over plain numbers. -/

namespace Sys2Proof.Machine

/-- The floating-point formats (R80). -/
inductive Fmt where
  | f32 | f16 | bf16 | f8a | f8b
deriving DecidableEq, Repr

/-- The width of the mantissa field (R80). -/
def Fmt.mb : Fmt → Nat
  | .f32 => 23 | .f16 => 10 | .bf16 => 7 | .f8a => 3 | .f8b => 2

/-- The width of the exponent field (R80). -/
def Fmt.eb : Fmt → Nat
  | .f32 => 8 | .f16 => 5 | .bf16 => 8 | .f8a => 4 | .f8b => 5

/-- The bias of the exponent (R80). -/
def Fmt.bias : Fmt → Nat
  | .f32 => 127 | .f16 => 15 | .bf16 => 127 | .f8a => 7 | .f8b => 15

/-- The width of a value (R80). -/
def Fmt.width (f : Fmt) : Nat := f.eb + f.mb + 1

/-- The exponent of the least significant bit of a subnormal (R80). -/
def Fmt.emin (f : Fmt) : Int := 1 - (f.bias : Int) - (f.mb : Int)

/-- The bits of the largest finite magnitude (R80): f8a uses its all-ones exponent for finite values. -/
def Fmt.maxBits (f : Fmt) : Nat :=
  match f with
  | .f8a => 0x7E
  | f => (2 ^ f.eb - 1) * 2 ^ f.mb - 1

/-- The bits of +∞ in a format that has one (R80). -/
def Fmt.infBits (f : Fmt) : Nat := (2 ^ f.eb - 1) * 2 ^ f.mb

/-- The canonical NaN (R81). -/
def Fmt.nan : Fmt → Nat
  | .f32 => 0x7FC00000 | .f16 => 0x7E00 | .bf16 => 0x7FC0 | .f8a => 0x7F | .f8b => 0x7E

/-- The sign bit of a format, if set. -/
def Fmt.signBits (f : Fmt) (neg : Bool) : Nat := if neg then 2 ^ (f.eb + f.mb) else 0

/-- What the bits of a floating-point value stand for: a finite value is `(-1)^neg * m * 2^e`. -/
inductive FVal where
  | nan (signalling : Bool)
  | inf (neg : Bool)
  | fin (neg : Bool) (m : Nat) (e : Int)
deriving DecidableEq, Repr

/-- The value that bits stand for (R80, R81). -/
def Fmt.value (f : Fmt) (b : Nat) : FVal :=
  let neg := b / 2 ^ (f.eb + f.mb) % 2 == 1
  let ex := b / 2 ^ f.mb % 2 ^ f.eb
  let mant := b % 2 ^ f.mb
  let special :=
    match f with
    | .f8a => decide (ex = 15 ∧ mant = 7)
    | _ => decide (ex = 2 ^ f.eb - 1)
  if special then
    match f with
    | .f8a => .nan false
    | _ => if mant = 0 then .inf neg else .nan (decide (mant < 2 ^ (f.mb - 1)))
  else if ex = 0 then .fin neg mant f.emin
  else .fin neg (mant + 2 ^ f.mb) (f.emin + (ex : Int) - 1)

/-- The magnitude bits are a subnormal's. -/
def Fmt.isSubnormal (f : Fmt) (b : Nat) : Bool :=
  decide (b / 2 ^ f.mb % 2 ^ f.eb = 0) && decide (b % 2 ^ f.mb ≠ 0)

/-- FPMODE's DNI and DNO bear on f32, f16 and bf16 only (R90). -/
def Fmt.denormals : Fmt → Bool
  | .f32 | .f16 | .bf16 => true
  | .f8a | .f8b => false

/-- The value of an input under DNI (R90, R123). -/
def Fmt.input (f : Fmt) (dni : Bool) (b : Nat) : FVal :=
  if dni && f.denormals && f.isSubnormal b then f.value (f.signBits (decide (b / 2 ^ (f.eb + f.mb) % 2 = 1)))
  else f.value b

/-- A signalling NaN (R81). -/
def FVal.isSnan : FVal → Bool
  | .nan s => s
  | _ => false

/-- Any NaN. -/
def FVal.isNan : FVal → Bool
  | .nan _ => true
  | _ => false

/-- The rounding modes of R87. -/
inductive RMode where
  | rne | rz | ru | rd | rna | sr
deriving DecidableEq, Repr

/-- The mode in FPMODE.RM (R90). -/
def RMode.ofRM : Nat → RMode
  | 0 => .rne | 1 => .rz | 2 => .ru | _ => .rd

/-- A left shift by a positive, a right shift by a negative number. -/
def shiftInt (m : Nat) (k : Int) : Nat := if 0 ≤ k then m * 2 ^ k.toNat else m / 2 ^ (-k).toNat

/-- The number of significant bits. -/
def bitLen (m : Nat) : Nat := if m = 0 then 0 else m.log2 + 1

/-- An exact result before rounding. A finite one has a magnitude of `m * 2^e`, or strictly between that and
`(m + 1) * 2^e` when sticky. -/
inductive Exact where
  | invalid
  | nan
  | inf (neg : Bool)
  | fin (neg : Bool) (m : Nat) (e : Int) (sticky : Bool)
deriving DecidableEq, Repr

/-- Round a magnitude to a multiple of `2^t`: the multiple, and whether it differs (R87, R92). `draw` is the lane's draw
under SR. -/
def roundAt (mode : RMode) (neg : Bool) (draw : Nat) (m : Nat) (e : Int) (sticky : Bool) (t : Int) : Nat × Bool :=
  if t ≤ e then (m * 2 ^ (e - t).toNat, sticky)
  else
    let sh := (t - e).toNat
    let q := m / 2 ^ sh
    let r := m % 2 ^ sh
    let inexact := decide (r ≠ 0) || sticky
    let half := 2 ^ (sh - 1)
    let above := decide (half < r) || (decide (r = half) && sticky)
    let tie := decide (r = half) && !sticky
    let up :=
      match mode with
      | .rne => above || (tie && q % 2 == 1)
      | .rz => false
      | .ru => inexact && !neg
      | .rd => inexact && neg
      | .rna => above || tie
      | .sr => decide (2 ^ 32 ≤ r * 2 ^ 32 / 2 ^ sh + draw)
    (if up then q + 1 else q, inexact)

/-- A rounded element: its bits and the flags it raises. -/
structure Rounded where
  bits : Nat
  flags : Flags
deriving DecidableEq, Repr

/-- Overflow delivers infinity, or the largest finite value in the directed modes (R87); f8a saturates (R82). -/
def overflowBits (f : Fmt) (mode : RMode) (neg : Bool) : Nat :=
  match f with
  | .f8a => f.maxBits
  | _ =>
    match mode, neg with
    | .rz, _ | .ru, true | .rd, false => f.maxBits
    | _, _ => f.infBits

/-- Round a finite exact value into a format with `p` bits of precision out of its own (R87 to R89, R92; `p` below the
format's own for the special functions of R128). -/
def roundPrec (f : Fmt) (p : Nat) (mode : RMode) (draw : Nat) (neg : Bool) (m : Nat) (e : Int) (sticky : Bool) : Rounded :=
  if m = 0 ∧ !sticky then ⟨f.signBits neg, 0⟩
  else
    let drop : Nat := f.mb + 1 - p
    let free : Int := e + (bitLen m : Int) - (p : Int)
    let low : Int := f.emin + (drop : Int)
    let t := if free < low then low else free
    let (q, inexact) := roundAt mode neg draw m e sticky t
    let (qu, _) := roundAt mode neg draw m e sticky free
    -- the magnitude bits, as if the exponent field had no bound
    let mag := (t - low).toNat * 2 ^ f.mb + q * 2 ^ drop
    let tiny := decide (qu ≠ 0) && decide ((bitLen qu : Int) + free ≤ 1 - (f.bias : Int))
    if f.maxBits < mag then ⟨f.signBits neg + overflowBits f mode neg, flagOF ||| flagNX⟩
    else ⟨f.signBits neg + mag, flagIf (tiny && inexact) flagUF ||| flagIf inexact flagNX⟩

/-- Round a finite exact value into a format at its full precision. -/
def roundFmt (f : Fmt) (mode : RMode) (draw : Nat) (neg : Bool) (m : Nat) (e : Int) (sticky : Bool) : Rounded :=
  roundPrec f (f.mb + 1) mode draw neg m e sticky

/-- An infinite result: f8a has none and saturates with OF (R82). -/
def infResult (f : Fmt) (neg : Bool) : Rounded :=
  match f with
  | .f8a => ⟨f.signBits neg + f.maxBits, flagOF⟩
  | _ => ⟨f.signBits neg + f.infBits, 0⟩

/-- DNO replaces a subnormal result by zero of its sign, with UF and NX (R90, R123). -/
def flushResult (f : Fmt) (dno : Bool) (r : Rounded) : Rounded :=
  if dno && f.denormals && f.isSubnormal r.bits then
    ⟨f.signBits (decide (r.bits / 2 ^ (f.eb + f.mb) % 2 = 1)), r.flags ||| flagUF ||| flagNX⟩
  else r

/-- The arithmetic controls of an element: FPMODE's DNI and DNO, the mode, and the lane's draw under SR. -/
structure FCtl where
  dni : Bool := false
  dno : Bool := false
  mode : RMode := .rne
  draw : Nat := 0
deriving DecidableEq, Repr

/-- Deliver an exact result, whose inputs held a signalling NaN or not (R123), at `p` bits of precision. -/
def deliverPrec (f : Fmt) (p : Nat) (c : FCtl) (snan : Bool) (x : Exact) : Rounded :=
  let r : Rounded :=
    match x with
    | .invalid => ⟨f.nan, flagIV⟩
    | .nan => ⟨f.nan, 0⟩
    | .inf neg => infResult f neg
    | .fin neg m e sticky => flushResult f c.dno (roundPrec f p c.mode c.draw neg m e sticky)
  ⟨r.bits, r.flags ||| flagIf snan flagIV⟩

/-- Deliver an exact result at the format's own precision. -/
def deliver (f : Fmt) (c : FCtl) (snan : Bool) (x : Exact) : Rounded := deliverPrec f (f.mb + 1) c snan x

/-! Exact arithmetic on values. -/

/-- Negate a value. -/
def FVal.negate : FVal → FVal
  | .nan s => .nan s
  | .inf n => .inf (!n)
  | .fin n m e => .fin (!n) m e

/-- The signed integer mantissa of a finite value at an exponent not above its own. -/
def scaled (neg : Bool) (m : Nat) (e t : Int) : Int :=
  let k : Int := ((m * 2 ^ (e - t).toNat : Nat) : Int)
  if neg then -k else k

/-- The exact sum of two finite values; an exact zero of operands with opposite signs is +0, or −0 under RD (R87). -/
def sumFin (mode : RMode) (n1 : Bool) (m1 : Nat) (e1 : Int) (n2 : Bool) (m2 : Nat) (e2 : Int) : Exact :=
  let t := if e1 ≤ e2 then e1 else e2
  let k := scaled n1 m1 e1 t + scaled n2 m2 e2 t
  if k = 0 then .fin (if n1 = n2 then n1 else decide (mode = .rd)) 0 0 false
  else .fin (decide (k < 0)) k.natAbs t false

/-- a + b (R124). -/
def addV (mode : RMode) : FVal → FVal → Exact
  | .inf a, .inf b => if a = b then .inf a else .invalid
  | .nan _, _ | _, .nan _ => .nan
  | .inf a, _ => .inf a
  | _, .inf b => .inf b
  | .fin n1 m1 e1, .fin n2 m2 e2 => sumFin mode n1 m1 e1 n2 m2 e2

/-- A value is a zero. -/
def FVal.isZero : FVal → Bool
  | .fin _ 0 _ => true
  | _ => false

/-- The sign of a value that is no NaN. -/
def FVal.sign : FVal → Bool
  | .nan _ => false
  | .inf n => n
  | .fin n _ _ => n

/-- a × b (R124). -/
def mulV : FVal → FVal → Exact
  | .nan _, _ | _, .nan _ => .nan
  | .inf a, b => if b.isZero then .invalid else .inf (a != b.sign)
  | a, .inf b => if a.isZero then .invalid else .inf (a.sign != b)
  | .fin n1 m1 e1, .fin n2 m2 e2 => .fin (n1 != n2) (m1 * m2) (e1 + e2) false

/-- a × b + c, rounded once (R124): the invalid product is tested before any NaN (R123). -/
def fmaV (mode : RMode) (a b c : FVal) : Exact :=
  match mulV a b with
  | .invalid => .invalid
  | .nan => .nan
  | .inf n => addV mode (.inf n) c
  | .fin n m e _ => addV mode (.fin n m e) c

/-- a / b to 64 bits beyond the dividend, with the rest sticky (R127). -/
def divV : FVal → FVal → Exact
  | .nan _, _ | _, .nan _ => .nan
  | .inf _, .inf _ => .invalid
  | .inf a, b => .inf (a != b.sign)
  | a, .inf b => .fin (a.sign != b) 0 0 false
  | .fin n1 m1 e1, .fin n2 m2 e2 =>
    if m2 = 0 then (if m1 = 0 then .invalid else .inf (n1 != n2))
    else .fin (n1 != n2) (m1 * 2 ^ 64 / m2) (e1 - e2 - 64) (decide (m1 * 2 ^ 64 % m2 ≠ 0))

/-- The greatest r below `2^(k+1)` above `acc` with `r * r ≤ n`, one bit at a time. -/
def isqrtBits (n : Nat) : Nat → Nat → Nat
  | 0, acc => if (acc + 1) * (acc + 1) ≤ n then acc + 1 else acc
  | k + 1, acc =>
    let r := acc + 2 ^ (k + 1)
    isqrtBits n k (if r * r ≤ n then r else acc)

/-- The integer square root. -/
def isqrt (n : Nat) : Nat := isqrtBits n (n.log2 / 2 + 1) 0

/-- √a (R127). -/
def sqrtV : FVal → Exact
  | .nan _ => .nan
  | .inf n => if n then .invalid else .inf false
  | .fin n m e =>
    if m = 0 then .fin n 0 0 false
    else if n then .invalid
    else
      let odd := decide (e % 2 ≠ 0)
      let m' := (if odd then 2 * m else m) * 2 ^ 64
      let e' := if odd then e - 1 else e
      let r := isqrt m'
      .fin false r (e' / 2 - 32) (decide (r * r ≠ m'))

/-- The order of two values that are no NaN, −0 below +0 (R125). -/
def lessTotal (a b : FVal) : Bool :=
  match a, b with
  | .inf x, .inf y => x && !y
  | .inf x, _ => x
  | _, .inf y => !y
  | .fin n1 m1 e1, .fin n2 m2 e2 =>
    if m1 = 0 ∧ m2 = 0 then n1 && !n2
    else
      let t := if e1 ≤ e2 then e1 else e2
      decide (scaled n1 m1 e1 t < scaled n2 m2 e2 t)
  | _, _ => false

/-- The order of a compare, −0 and +0 equal (R131). -/
def lessV (a b : FVal) : Bool := if a.isZero && b.isZero then false else lessTotal a b

/-- Equality of a compare (R131). -/
def equalV (a b : FVal) : Bool := !lessV a b && !lessV b a

/-! Pip4 (R83 to R86). -/

/-- An element code that is not 1000 (R83). -/
def pip4Code (c : Nat) : Int := if c < 8 then (c : Int) else (c : Int) - 16

/-- A doublet's value in units (R84). -/
def doubletValue (payload osh : Nat) : Int :=
  let v : Int := ((2 ^ (3 + payload % 8 + osh) : Nat) : Int)
  if 8 ≤ payload then -v else v

/-- The two elements of a Pip4 byte in units (R84). -/
def pip4Decode (osh byte : Nat) : Int × Int :=
  let lo := byte % 16
  let hi := byte / 16 % 16
  if lo = 8 ∧ hi = 8 then (0, 0)
  else if lo = 8 then (doubletValue hi osh, 0)
  else if hi = 8 then (0, doubletValue lo osh)
  else (pip4Code lo, pip4Code hi)

/-- A magnitude `m * 2^e` lies above 7.5. -/
def above75 (m : Nat) (e : Int) : Bool := decide (15 < shiftInt m (e + 1)) ||
  (decide (15 = shiftInt m (e + 1)) && decide (e + 1 < 0) && decide (m % 2 ^ (-(e + 1)).toNat ≠ 0))

/-- The magnitude of an in-range element's code (R86, step 1): rounded to an integer, 8 becoming 7. -/
def pip4Round (mode : RMode) (neg : Bool) (draw m : Nat) (e : Int) : Nat :=
  min 7 (roundAt mode neg draw m e false 0).1

/-- The power of two that a doublet's magnitude rounds to (R86, step 3). -/
def doubletExp (mode : RMode) (draw m : Nat) (e : Int) : Int :=
  let j : Int := e + (bitLen m : Int) - 1
  let k := bitLen m - 1
  let frac := m - 2 ^ k
  match mode with
  | .rz => j
  | .sr => if 2 ^ 32 ≤ frac * 2 ^ 32 / 2 ^ k + draw then j + 1 else j
  | _ => if 2 ^ k ≤ 2 * frac then j + 1 else j

/-- The nibble of a signed code. -/
def codeNibble (neg : Bool) (mag : Nat) : Nat := if neg ∧ mag ≠ 0 then 16 - mag else mag

/-- What an element of magnitude above 7.5 becomes beside a zero neighbour (R86, steps 3 and 4): a doublet payload, or none
when it takes ±7; and whether it clipped. `none` for the magnitude is ∞. -/
def doubletPayload (mode : RMode) (osh : Nat) (neg : Bool) (draw : Nat) (mag : Option (Nat × Int)) : Option Nat × Bool :=
  let sign := if neg then 8 else 0
  match mag with
  | none => (some (sign + 7), true)
  | some (m, e) =>
    let ex := doubletExp mode draw m e - 3 - (osh : Int)
    if 7 < ex then (some (sign + 7), true)
    else if ex < 0 ∨ (neg ∧ ex = 0) then (none, true)
    else (some (sign + ex.toNat), false)

/-- The finite magnitude of an element, none for ∞. -/
def FVal.mag : FVal → Option (Nat × Int)
  | .fin _ m e => some (m, e)
  | _ => none

/-- An element lies above 7.5 units (R86). -/
def FVal.beyond : FVal → Bool
  | .fin _ m e => above75 m e
  | .inf _ => true
  | .nan _ => false

/-- An integer number of units equals an element. -/
def FVal.isInt (k : Int) : FVal → Bool
  | .fin n m e => if 0 ≤ e then decide (scaled n m e 0 = k) else decide (scaled n m 0 0 = k * ((2 ^ (-e).toNat : Nat) : Int))
  | _ => false

/-- Two elements in block units, no NaN among them, to one Pip4 byte (R86). `d0` and `d1` are their draws under SR. -/
def pip4Pair (mode : RMode) (osh : Nat) (x0 x1 : FVal) (d0 d1 : Nat) : Rounded :=
  let code (x : FVal) (d : Nat) : Nat :=
    match x with
    | .fin n m e => if above75 m e then 7 else pip4Round mode n d m e
    | _ => 7
  let c0 := code x0 d0
  let c1 := code x1 d1
  let b0 := x0.beyond
  let b1 := x1.beyond
  let (p0, k0) := if b0 && !b1 && c1 == 0 then doubletPayload mode osh x0.sign d0 x0.mag else (none, b0)
  let (p1, k1) := if b1 && !b0 && c0 == 0 then doubletPayload mode osh x1.sign d1 x1.mag else (none, b1)
  let byte :=
    match p0, p1 with
    | some p, _ => 16 * p + 8
    | none, some p => 128 + p
    | none, none => 16 * codeNibble x1.sign c1 + codeNibble x0.sign c0
  let (v0, v1) := pip4Decode osh byte
  let inf (x : FVal) : Bool := match x with
    | .inf _ => true
    | _ => false
  ⟨byte, flagIf (!(x0.isInt v0) || !(x1.isInt v1)) flagNX ||| flagIf (p0.isSome || p1.isSome) flagOUTL
    ||| flagIf (k0 || k1) flagOCLIP ||| flagIf (inf x0 || inf x1) flagOF⟩

/-! The generator of stochastic rounding (R91). -/

/-- One draw: the next state, which is also the value drawn (R91). -/
def srNext (g : Word) : Word :=
  let g := g ^^^ (g <<< 13)
  let g := g ^^^ (g >>> 17)
  g ^^^ (g <<< 5)

/-- What a generator state is stored as: never zero (R91). -/
def srStore (g : Word) : Word := if g = 0 then 0x2545F491 else g

/-- The state of lane `l` of team `t` of crew `c` when the team starts (R91). -/
def srInit (c t l : Nat) : Word := srStore (BitVec.ofNat 32 (((c * 4 + t) * 1024 + l + 1) * 0x85EBCA6B))

end Sys2Proof.Machine
end

