-- ==== Sys2Proof/Machine/Special.lean ====
section
/-! DEFINITION. The special functions of R128: the exact mathematical value, to many more bits than any rounding needs,
with the rest sticky. Every value computed here from a series is irrational (or, where it is rational, is computed exactly),
so it lies strictly between two multiples of 2^-fw. -/

namespace Sys2Proof.Machine

/-- Fraction bits of the fixed-point values below. -/
def fw : Nat := 1024

/-- One, in fixed point. -/
def fone : Nat := 2 ^ fw

/-- Σ z^(2i+1) * s^i / (2i+1) from term `i`, with `s` = 1 or −1: `pw` is z^(2i+1) and `z2` is z^2, all in fixed point. -/
def oddSeries (z2 : Nat) (alternate : Bool) : Nat → Nat → Nat → Int → Int
  | 0, _, _, acc => acc
  | k + 1, i, pw, acc =>
    let term : Int := ((pw / (2 * i + 1) : Nat) : Int)
    oddSeries z2 alternate k (i + 1) (pw * z2 / fone) (if alternate && i % 2 == 1 then acc - term else acc + term)

/-- artanh z for z in [0, 1/3] in fixed point. -/
def artanhFix (z : Nat) : Nat := (oddSeries (z * z / fone) false 330 0 z 0).toNat

/-- ln 2 = 2 artanh (1/3) in fixed point. -/
def ln2Fix : Nat := 2 * artanhFix (fone / 3)

/-- arctan (1/n) with 136 guard bits, `n ≥ 5`. -/
def arctanInv (n : Nat) : Nat → Nat → Nat → Int → Int
  | 0, _, _, acc => acc
  | k + 1, i, pw, acc =>
    let term : Int := ((pw / (2 * i + 1) : Nat) : Int)
    arctanInv n k (i + 1) (pw / (n * n)) (if i % 2 = 1 then acc - term else acc + term)

/-- π / 2 = 8 arctan (1/5) − 2 arctan (1/239), with 160 guard bits beyond the fixed point. -/
def halfPiLong : Nat :=
  let one := 2 ^ (fw + 160)
  (8 * arctanInv 5 270 0 (one / 5) 0 - 2 * arctanInv 239 90 0 (one / 239) 0).toNat

/-- Σ y^i / i! from term `i` on, in fixed point: `pw` is the current term. -/
def expSeries (y : Nat) : Nat → Nat → Nat → Nat → Nat
  | 0, _, _, acc => acc
  | k + 1, i, pw, acc => expSeries y k (i + 1) (pw * y / fone / (i + 1)) (acc + pw)

/-- e^y for y in [0, 1) in fixed point. -/
def expFix (y : Nat) : Nat := expSeries y 190 0 fone 0

/-- Σ ± r^i / i! over the terms of one parity, in fixed point: `pw` is the term r^i / i!. -/
def trigSeries (r2 : Nat) : Nat → Nat → Nat → Bool → Int → Int
  | 0, _, _, _, acc => acc
  | k + 1, i, pw, minus, acc =>
    trigSeries r2 k (i + 2) (pw * r2 / fone / ((i + 1) * (i + 2))) (!minus) (if minus then acc - pw else acc + pw)

/-- sin r for r in [0, π/2) in fixed point. -/
def sinFix (r : Nat) : Nat := (trigSeries (r * r / fone) 110 1 r false 0).toNat

/-- cos r for r in [0, π/2) in fixed point. -/
def cosFix (r : Nat) : Nat := (trigSeries (r * r / fone) 110 0 fone false 0).toNat

/-- A fixed-point magnitude as an exact result with the rest sticky. -/
def fixResult (neg : Bool) (m : Nat) : Exact := .fin neg m (-(fw : Int)) true

/-- 1 / a. -/
def rcpV (a : FVal) : Exact :=
  match a with
  | .fin _ 0 _ => divV (.fin false 1 0) a
  | _ => divV (.fin false 1 0) a

/-- 1 / √a: the integer square root of 2^(2k) / m, exact when it squares back. -/
def rsqV : FVal → Exact
  | .nan _ => .nan
  | .inf n => if n then .invalid else .fin false 0 0 false
  | .fin n m e =>
    if m = 0 then .inf n
    else if n then .invalid
    else
      let odd := decide (e % 2 ≠ 0)
      let m' := if odd then 2 * m else m
      let e' := if odd then e - 1 else e
      let r := isqrt (2 ^ 128 / m')
      .fin false r (-(e' / 2) - 64) (decide (r * r * m' ≠ 2 ^ 128))

/-- The integer part and the fixed-point fraction of a finite value, toward minus infinity; magnitudes above 2^12 are taken
as 2^12, beyond every bound that matters. -/
def floorFix (neg : Bool) (m : Nat) (e : Int) : Int × Nat :=
  let big := decide (12 ≤ (bitLen m : Int) + e)
  let x : Int := if big then ((2 ^ 12 * fone : Nat) : Int) else ((shiftInt m (e + (fw : Int)) : Nat) : Int)
  let x := if neg then -x else x
  (x / (fone : Int), (x % (fone : Int)).toNat)

/-- 2^a. -/
def exp2V : FVal → Exact
  | .nan _ => .nan
  | .inf n => if n then .fin false 0 0 false else .inf false
  | .fin n m e =>
    let (k, f) := floorFix n m e
    if f = 0 then .fin false 1 k false
    else .fin false (expFix (f * ln2Fix / fone)) (k - (fw : Int)) true

/-- log2 a: the exponent plus 2 artanh ((y − 1) / (y + 1)) / ln 2 for the significand y in [1, 2). -/
def log2V : FVal → Exact
  | .nan _ => .nan
  | .inf n => if n then .invalid else .inf false
  | .fin n m e =>
    if m = 0 then .inf true
    else if n then .invalid
    else
      let l := bitLen m - 1
      let k : Int := e + (l : Int)
      let frac := m - 2 ^ l
      if frac = 0 then .fin (decide (k < 0)) k.natAbs 0 false
      else
        let z := frac * fone / (m + 2 ^ l)
        let f := 2 * artanhFix z * fone / ln2Fix
        let v : Int := k * (fone : Int) + (f : Int)
        fixResult (decide (v < 0)) v.natAbs

/-- The quadrant of |a| and the rest in fixed point: |a| = n * π/2 + r. -/
def quadrant (m : Nat) (e : Int) : Nat × Nat :=
  let x := shiftInt m (e + (fw : Int) + 160)
  (x / halfPiLong % 4, x % halfPiLong / 2 ^ 160)

/-- sin a, a in radians. -/
def sinV : FVal → Exact
  | .nan _ => .nan
  | .inf _ => .invalid
  | .fin n m e =>
    if m = 0 then .fin n 0 0 false
    else
      let (q, r) := quadrant m e
      let v := if q % 2 = 0 then sinFix r else cosFix r
      fixResult (n != decide (2 ≤ q)) v

/-- cos a, a in radians. -/
def cosV : FVal → Exact
  | .nan _ => .nan
  | .inf _ => .invalid
  | .fin _ m e =>
    if m = 0 then .fin false 1 0 false
    else
      let (q, r) := quadrant m e
      let v := if q % 2 = 0 then cosFix r else sinFix r
      fixResult (q == 1 || q == 2) v

/-- tanh a = (1 − t) / (1 + t) with t = e^(−2|a|) = 2^(−2|a| / ln 2). -/
def tanhV : FVal → Exact
  | .nan _ => .nan
  | .inf n => .fin n 1 0 false
  | .fin n m e =>
    if m = 0 then .fin n 0 0 false
    else if 6 < (bitLen m : Int) + e then fixResult n (fone - 1)
    else
      let y := shiftInt m (e + 1 + (fw : Int)) * fone / ln2Fix
      let k := y / fone
      let f := y % fone
      -- 2^-(k + f) = 2^(1 - f) / 2^(k + 1)
      let t := if f = 0 then fone / 2 ^ k else expFix ((fone - f) * ln2Fix / fone) / 2 ^ (k + 1)
      fixResult n ((fone - t) * fone / (fone + t))

end Sys2Proof.Machine
end

