-- ==== Sys2Proof/Syntax/Operand.lean ====
section
/-! DEFINITION. The operands of instructions: guards, literals, special registers, and the counts a kernel declares. -/

namespace Sys2Proof

/-- A guard or a branch condition: polarity and predicate number (R28, R30). -/
structure Guard where
  neg : Bool
  num : Nat
deriving DecidableEq, Repr

/-- The order of an atomic or a fence (R27, R49). -/
inductive Order where
  | relaxed | acquire | release | acqRel
deriving DecidableEq, Repr

/-- The scope of an atomic, a fence or a stamp (R27, R49, R50). -/
inductive Scope where
  | crew | table | device | fabric
deriving DecidableEq, Repr

/-- The rounding literals of R55, and the modes of FPMODE. -/
inductive Rnd where
  | rne | rz | sr | ru | rd | rna | fpmode
deriving DecidableEq, Repr

/-- The counter classes of waitc (R49). -/
inductive WaitClass where
  | matrix | gather | fabric
deriving DecidableEq, Repr

/-- The two banks of an instruction store half (R52). -/
inductive Bank where
  | a | b
deriving DecidableEq, Repr

/-- The special registers of R56; TDONE carries its group index. -/
inductive SpReg where
  | team | crew | table | nteam | nlane | ncrew | launch | argbase | scrbase | cycles
  | nflags | fpmode | srseed | bank | priv
  | tcause | tvpc | taddr | tinfo | tdone (group : Nat)
  | vf | core | split
deriving DecidableEq, Repr

/-- The role of a field in the opcode map (R39): a register of a class, a pair or quad of registers, a signed or unsigned
immediate, a literal in the B field, the h number of IMM4, nothing, or the class that a special register's code names. -/
inductive Role where
  | none | v | w | s | x | p | q | a | k | o | y | h | v2 | v4 | w2
  | imm (signed : Bool) | lit | hnum | byCode
deriving DecidableEq, Repr

/-- The register counts a kernel header declares (R23, R73). -/
structure Counts where
  nv : Nat
  nw : Nat
  ns : Nat
  nx : Nat
deriving DecidableEq, Repr

end Sys2Proof
end

