-- ==== Sys2Proof/Machine/FloatOps.lean ====
section
/-! DEFINITION. The floating-point and conversion operations on elements (R122 to R137). -/

namespace Sys2Proof.Machine

/-- FPMODE.RM (R90). -/
def fpRM (fpmode : Word) : RMode := RMode.ofRM (fpmode.toNat % 4)
/-- FPMODE.DNI (R90). -/
def fpDNI (fpmode : Word) : Bool := fpmode.getLsbD 2
/-- FPMODE.DNO (R90). -/
def fpDNO (fpmode : Word) : Bool := fpmode.getLsbD 3

/-- The controls of an instruction under FPMODE.RM (R88). -/
def fctl (fpmode : Word) : FCtl := { dni := fpDNI fpmode, dno := fpDNO fpmode, mode := fpRM fpmode }

/-- A unary operation on bits of one format (R123). -/
def fun1 (f : Fmt) (op : FCtl → FVal → Exact) (c : FCtl) (a : Nat) : Rounded :=
  deliver f c (f.value a).isSnan (op c (f.input c.dni a))

/-- A binary operation on bits of one format (R123). -/
def fun2 (f : Fmt) (op : FCtl → FVal → FVal → Exact) (c : FCtl) (a b : Nat) : Rounded :=
  deliver f c ((f.value a).isSnan || (f.value b).isSnan) (op c (f.input c.dni a) (f.input c.dni b))

/-- A ternary operation on bits of one format (R123). -/
def fun3 (f : Fmt) (op : FCtl → FVal → FVal → FVal → Exact) (c : FCtl) (x y z : Nat) : Rounded :=
  deliver f c ((f.value x).isSnan || (f.value y).isSnan || (f.value z).isSnan)
    (op c (f.input c.dni x) (f.input c.dni y) (f.input c.dni z))

/-- fadd (R124). -/
def fadd (f : Fmt) : FCtl → Nat → Nat → Rounded := fun2 f fun c x y => addV c.mode x y
/-- fsub: a + (−b) (R124). -/
def fsub (f : Fmt) : FCtl → Nat → Nat → Rounded := fun2 f fun c x y => addV c.mode x y.negate
/-- fmul (R124). -/
def fmul (f : Fmt) : FCtl → Nat → Nat → Rounded := fun2 f fun _ x y => mulV x y
/-- ffma: a × b + c, rounded once (R124). -/
def ffma (f : Fmt) : FCtl → Nat → Nat → Nat → Rounded := fun3 f fun c x y z => fmaV c.mode x y z

/-- fmin and fmax: one input is returned, never rounded (R125). -/
def fminmax (f : Fmt) (max : Bool) (c : FCtl) (a b : Nat) : Rounded :=
  let x := f.input c.dni a
  let y := f.input c.dni b
  let pick (z : FVal) : Exact :=
    match z with
    | .nan _ => .nan
    | .inf n => .inf n
    | .fin n m e => .fin n m e false
  let res :=
    if x.isNan then (if y.isNan then .nan else pick y)
    else if y.isNan then pick x
    else if lessTotal x y != max then pick x else pick y
  deliver f c ((f.value a).isSnan || (f.value b).isSnan) res

/-- fdiv (R127): a finite nonzero value by zero raises DZ. -/
def fdiv (c : FCtl) (a b : Nat) : Rounded :=
  let x := Fmt.f32.input c.dni a
  let y := Fmt.f32.input c.dni b
  let dz :=
    match x with
    | .fin _ m _ => decide (m ≠ 0) && y.isZero
    | _ => false
  let r := fun2 .f32 (fun _ x y => divV x y) c a b
  ⟨r.bits, r.flags ||| flagIf dz flagDZ⟩

/-- fsqrt (R127). -/
def fsqrt : FCtl → Nat → Rounded := fun1 .f32 fun _ x => sqrtV x

/-- A special function at `p` bits under RNE, whatever FPMODE.RM holds (R128); `dz` where a zero input raises DZ. -/
def fspecial (p : Nat) (op : FVal → Exact) (dz : Bool) (c : FCtl) (a : Nat) : Rounded :=
  let x := Fmt.f32.input c.dni a
  let r := deliverPrec .f32 p { c with mode := .rne } (Fmt.f32.value a).isSnan (op x)
  ⟨r.bits, r.flags ||| flagIf (dz && x.isZero) flagDZ⟩

/-- frnd (R129): to an integral value of the same sign. -/
def frnd (c : FCtl) (a : Nat) : Rounded :=
  match Fmt.f32.input c.dni a with
  | .nan s => ⟨Fmt.f32.nan, flagIf s flagIV⟩
  | .inf n => infResult .f32 n
  | .fin n m e =>
    let (q, inexact) := roundAt c.mode n 0 m e false 0
    if 0 ≤ e then ⟨(roundFmt .f32 .rne 0 n m e false).bits, 0⟩
    else ⟨(roundFmt .f32 .rne 0 n q 0 false).bits, flagIf inexact flagNX⟩

/-- Whether a compare of major 9 holds, and its flags: only a signalling NaN raises IV (R131). -/
def fcompare (rel : FVal → FVal → Bool) (unordered : Bool) (dni : Bool) (a b : Nat) : Bool × Flags :=
  let x := Fmt.f32.input dni a
  let y := Fmt.f32.input dni b
  (if x.isNan || y.isNan then unordered else rel x y,
    flagIf ((Fmt.f32.value a).isSnan || (Fmt.f32.value b).isSnan) flagIV)

/-- An integer rounded to f32 (R132). -/
def cvtIntF32 (c : FCtl) (k : Int) : Rounded := roundFmt .f32 c.mode c.draw (decide (k < 0)) k.natAbs 0 false

/-- An f32 rounded to an integer and held to a range (R132). -/
def cvtF32Int (lo hi : Int) (c : FCtl) (a : Nat) : Word × Flags :=
  match Fmt.f32.input c.dni a with
  | .nan _ => (0, flagIV)
  | .inf n => (BitVec.ofInt 32 (if n then lo else hi), flagIV)
  | .fin n m e =>
    -- a magnitude of 2^64 or more lies outside every range
    if 64 < (bitLen m : Int) + e then (BitVec.ofInt 32 (if n then lo else hi), flagIV)
    else
      let (q, inexact) := roundAt c.mode n c.draw m e false 0
      let k : Int := if n then -(q : Int) else (q : Int)
      if k < lo then (BitVec.ofInt 32 lo, flagIV)
      else if hi < k then (BitVec.ofInt 32 hi, flagIV)
      else (BitVec.ofInt 32 k, flagIf inexact flagNX)

/-- A value as an exact result. -/
def FVal.exact : FVal → Exact
  | .nan _ => .nan
  | .inf n => .inf n
  | .fin n m e => .fin n m e false

/-- A conversion from one floating-point format to another (R133). -/
def cvtFmt (src dst : Fmt) (c : FCtl) (a : Nat) : Rounded :=
  deliver dst c (src.value a).isSnan (src.input c.dni a).exact

/-- An exact integer as f32 bits. -/
def intF32 (k : Int) : Nat := (roundFmt .f32 .rne 0 (decide (k < 0)) k.natAbs 0 false).bits

/-- pip4.pack of one pair (R134): any NaN gives 0x88. An absent element is an exact +0. -/
def pip4Pack (mode : RMode) (dni : Bool) (a0 a1 : Option Nat) (d0 d1 : Nat) : Rounded :=
  let val (a : Option Nat) : FVal := match a with
    | none => .fin false 0 0
    | some b => Fmt.f32.input dni b
  let snan (a : Option Nat) : Bool := match a with
    | none => false
    | some b => (Fmt.f32.value b).isSnan
  let x0 := val a0
  let x1 := val a1
  if x0.isNan || x1.isNan then ⟨0x88, flagIf (snan a0 || snan a1) flagIV⟩ else pip4Pair mode 0 x0 x1 d0 d1

/-- scale.blk (R136): S in bits 7..0, DIR in bit 8. -/
def scaleBlk (c : FCtl) (a b : Nat) : Rounded :=
  let scale := b % 256
  let snan := (Fmt.f32.value a).isSnan
  if scale = 255 then ⟨Fmt.f32.nan, flagIf snan flagIV⟩
  else
    let k : Int := if b / 256 % 2 = 1 then 127 - (scale : Int) else (scale : Int) - 127
    let x : Exact :=
      match Fmt.f32.input c.dni a with
      | .nan _ => .nan
      | .inf n => .inf n
      | .fin n m e => .fin n m (e + k) false
    deliver .f32 c snan x

/-- A binary 16-bit operation on both elements of a word (R130). -/
def packed2 (op : Nat → Nat → Rounded) (a b : Word) : Word × Flags :=
  let lo := op (a.toNat % 65536) (b.toNat % 65536)
  let hi := op (a.toNat / 65536) (b.toNat / 65536)
  (BitVec.ofNat 32 (lo.bits + 65536 * hi.bits), lo.flags ||| hi.flags)

/-- A ternary 16-bit operation on both elements of a word (R130). -/
def packed3 (op : Nat → Nat → Nat → Rounded) (a b d : Word) : Word × Flags :=
  let lo := op (a.toNat % 65536) (b.toNat % 65536) (d.toNat % 65536)
  let hi := op (a.toNat / 65536) (b.toNat / 65536) (d.toNat / 65536)
  (BitVec.ofNat 32 (lo.bits + 65536 * hi.bits), lo.flags ||| hi.flags)

/-- The rounding mode of a #r literal; code 6 reads FPMODE.RM (R55, R88). -/
def rndMode (r : Rnd) (fpmode : Word) : RMode :=
  match r with
  | .rne => .rne | .rz => .rz | .sr => .sr | .ru => .ru | .rd => .rd | .rna => .rna | .fpmode => fpRM fpmode

end Sys2Proof.Machine
end

