-- ==== Sys2Proof/Machine/IntOps.lean ====
section
/-! DEFINITION. The integer operations on words (R107 to R121). -/

namespace Sys2Proof.Machine

/-- The smaller as two's complement. -/
def minS {w : Nat} (a b : BitVec w) : BitVec w := if a.slt b then a else b
/-- The larger as two's complement. -/
def maxS {w : Nat} (a b : BitVec w) : BitVec w := if a.slt b then b else a
/-- The smaller as unsigned. -/
def minU {w : Nat} (a b : BitVec w) : BitVec w := if a.ult b then a else b
/-- The larger as unsigned. -/
def maxU {w : Nat} (a b : BitVec w) : BitVec w := if a.ult b then b else a

/-- |a|, the most negative value wrapping (R107). -/
def absI (a : Word) : Word := if a.slt 0 then -a else a

/-- Clamp an exact value to a range, with SAT where it clamps (R108). -/
def clamp (lo hi t : Int) : Word × Flags :=
  if t < lo then (BitVec.ofInt 32 lo, flagSAT) else if hi < t then (BitVec.ofInt 32 hi, flagSAT) else (BitVec.ofInt 32 t, 0)

/-- adds.i32 (R108). -/
def addsI (a b : Word) : Word × Flags := clamp (-2 ^ 31) (2 ^ 31 - 1) (a.toInt + b.toInt)
/-- subs.i32 (R108). -/
def subsI (a b : Word) : Word × Flags := clamp (-2 ^ 31) (2 ^ 31 - 1) (a.toInt - b.toInt)
/-- adds.n32 (R108). -/
def addsN (a b : Word) : Word × Flags := clamp 0 (2 ^ 32 - 1) ((a.toNat : Int) + (b.toNat : Int))
/-- subs.n32 (R108). -/
def subsN (a b : Word) : Word × Flags := clamp 0 (2 ^ 32 - 1) ((a.toNat : Int) - (b.toNat : Int))

/-- A left shift by a count that is never reduced (R109). -/
def shlFull {w : Nat} (a : BitVec w) (c : Nat) : BitVec w := if c < w then a <<< c else 0
/-- A logical right shift by a count that is never reduced (R109). -/
def shrFull {w : Nat} (a : BitVec w) (c : Nat) : BitVec w := if c < w then a >>> c else 0
/-- An arithmetic right shift by a count that is never reduced (R109). -/
def sarFull {w : Nat} (a : BitVec w) (c : Nat) : BitVec w :=
  if c < w then a.sshiftRight c else if a.slt 0 then BitVec.allOnes w else 0

/-- The position of a field descriptor (R110). -/
def fieldPos (d : Word) : Nat := d.toNat % 256
/-- The length of a field descriptor, at most 32 (R110). -/
def fieldLen (d : Word) : Nat := min (d.toNat / 256 % 256) 32

/-- bfe.n32 (R110). -/
def bfeN (a d : Word) : Word := BitVec.ofNat 32 (a.toNat / 2 ^ fieldPos d % 2 ^ fieldLen d)

/-- bfe.i32: the source sign-extended without limit, the field sign-extended from its top bit (R110). -/
def bfeI (a d : Word) : Word :=
  let len := fieldLen d
  if len = 0 then 0
  else
    let f := a.toInt / (2 ^ fieldPos d : Int) % (2 ^ len : Int)
    BitVec.ofInt 32 (if (2 ^ (len - 1) : Int) ≤ f then f - 2 ^ len else f)

/-- bfi.b32 (R110). -/
def bfi (old a d : Word) : Word :=
  let m : Word := BitVec.ofNat 32 ((2 ^ fieldLen d - 1) * 2 ^ fieldPos d)
  (old &&& ~~~m) ||| (BitVec.ofNat 32 (a.toNat * 2 ^ fieldPos d) &&& m)

/-- The number of one bits among the low `n` bits. -/
def popcount (a : Nat) : Nat → Nat
  | 0 => 0
  | n + 1 => popcount a n + (if a.testBit n then 1 else 0)

/-- popc.b32 (R111). -/
def popc (a : Word) : Word := BitVec.ofNat 32 (popcount a.toNat 32)
/-- clz.b32 (R111). -/
def clz (a : Word) : Word := BitVec.ofNat 32 (if a = 0 then 32 else 31 - a.toNat.log2)
/-- brev.b32 (R111). -/
def brev (a : Word) : Word := a.reverse

/-- Byte `i` of a value. -/
def byteOf (x i : Nat) : Nat := x / 2 ^ (8 * i) % 256

/-- One result byte of prmt.b32, given the byte below it (R112). -/
def prmtByte (src sel prev i : Nat) : Nat :=
  if sel.testBit (12 + i) then 0
  else if decide (0 < i) && sel.testBit (16 + i) then (if 128 ≤ prev then 255 else 0)
  else byteOf src (sel / 2 ^ (3 * i) % 8)

/-- prmt.b32 (R112). -/
def prmt (sel a b : Word) : Word :=
  let src := b.toNat * 2 ^ 32 + a.toNat
  let b0 := prmtByte src sel.toNat 0 0
  let b1 := prmtByte src sel.toNat b0 1
  let b2 := prmtByte src sel.toNat b1 2
  let b3 := prmtByte src sel.toNat b2 3
  BitVec.ofNat 32 (b0 + 2 ^ 8 * b1 + 2 ^ 16 * b2 + 2 ^ 24 * b3)

/-- mulhi.i32 (R113). -/
def mulhiI (a b : Word) : Word := BitVec.ofInt 32 (a.toInt * b.toInt / 2 ^ 32)
/-- mulhi.n32 (R113). -/
def mulhiN (a b : Word) : Word := BitVec.ofNat 32 (a.toNat * b.toNat / 2 ^ 32)

/-- div.i32 (R114): the most negative value by −1 wraps. -/
def divI (a b : Word) : Word × Flags :=
  if b = 0 then (BitVec.allOnes 32, flagDZ) else (BitVec.ofInt 32 (a.toInt.tdiv b.toInt), 0)
/-- div.n32 (R114). -/
def divN (a b : Word) : Word × Flags := if b = 0 then (BitVec.allOnes 32, flagDZ) else (a / b, 0)
/-- rem.i32 (R114): the remainder takes the sign of the dividend. -/
def remI (a b : Word) : Word × Flags := if b = 0 then (a, flagDZ) else (BitVec.ofInt 32 (a.toInt.tmod b.toInt), 0)
/-- rem.n32 (R114). -/
def remN (a b : Word) : Word × Flags := if b = 0 then (a, flagDZ) else (a % b, 0)

end Sys2Proof.Machine
end

