-- ==== Sys2Proof/Config.lean ====
section
/-! DEFINITION. What the specification leaves open: free values, without a body, and what one package fixes. -/

namespace Sys2Proof

/-- Free values, numbered by a counter of the state: nothing constrains them (log entry 1). -/
opaque Config.freeNat : Nat → Nat
/-- A free choice between two outcomes. -/
opaque Config.freeBool : Nat → Bool
/-- A free byte. -/
opaque Config.freeByte : Nat → BitVec 8
/-- A free word. -/
opaque Config.freeWord : Nat → BitVec 32
/-- A free 64-bit value. -/
opaque Config.freeWord64 : Nat → BitVec 64

/-- The firmware of the device (R419, R422): Afaenik's image, its policy, its version, and the signature over them. -/
structure Firmware where
  image : List (BitVec 8)
  policy : List (BitVec 8)
  version : Nat
  sig : List (BitVec 8)
deriving DecidableEq, Repr, Inhabited

/-- What a firmware policy sets (R322, R380, R418, R419, R440). -/
structure Policy where
  /-- the service slot's public key -/
  serviceKey : BitVec 512
  /-- STGSIZE in units of 1 MiB -/
  stagingMiB : Fin 65
  /-- the boot partition: the boards in MODE 3 with their SPLIT -/
  bootBoards : List (Nat × Nat)
  /-- the slice groups of the boot partition's pool -/
  bootGroups : List Nat
  /-- VF 0's carve-out bound in GiB -/
  bootBound : Nat
  /-- the share of the translation cache in each slice group, in units of 64 MiB past the first -/
  cacheShare : Fin 8
deriving DecidableEq, Repr, Inhabited

/-- The firmware that the part was made with. -/
opaque Config.factory : Firmware
/-- What a policy's bytes say, whose form the specification does not give. -/
opaque Config.policyOf : List (BitVec 8) → Policy
/-- The bytes that a firmware's signature covers, whose form the specification does not give. -/
opaque Config.firmwareMessage : List (BitVec 8) → List (BitVec 8) → Nat → List (BitVec 8)
/-- XVER, the translator version of a firmware image (R323). -/
opaque Config.xverOf : List (BitVec 8) → Nat
/-- The fused Staveth key (R419): 64 bytes. -/
opaque Config.fusedKey : List (BitVec 8)
/-- The fused rollback counter (R419). -/
opaque Config.rollback : Nat
/-- The boot ROM's bytes (R421). -/
opaque Config.bootRom : List (BitVec 8)
/-- The certificate chain of slot 0 (R421). -/
opaque Config.certChain : List (BitVec 8)
/-- The entry of Staveth's registry that names SLH-DSA-SHAKE-256f as an extended asymmetric algorithm (R421). -/
opaque Config.extAlgorithm : Nat

/-- The bits of a drawn AES-256 key, by its identity (R402). -/
opaque Config.keyBits : Nat → BitVec 256
/-- The physical address of a place in device memory (R403, R410), whose mapping the specification does not give. -/
opaque Config.physAddr : Nat → BitVec 64
/-- The physical address of a counter block by level and number (R406). -/
opaque Config.blockAddr : Nat → Nat → BitVec 64
/-- The value of a signed message's signature under the device identity key (R335, R421). -/
opaque Config.signature : List Nat → Nat

/-- The device identity key of a node of the fabric domain, as attestation shows it (R335). -/
opaque Config.identityKey : Nat → List (BitVec 8)
/-- What the device identity key signs a message with (R335). -/
opaque Config.sign : List (BitVec 8) → List (BitVec 8)
/-- The bytes that the signature of a peer transfer covers, whose form the specification does not give: the key (IMGID, SPLIT,
XVER, DOMAIN), and every overlay with its compressed bytes and its check value (R335). -/
opaque Config.peerMessage : Nat → Nat → Nat → Nat → List (Nat × List (BitVec 8) × BitVec 32) → List (BitVec 8)
/-- TRANS of a translation set, by its number (R259, R326). -/
opaque Config.transName : Nat → BitVec 64
/-- The bytes of save area that a crew takes, by its scratchpad bytes and its teams (R359, R386). -/
opaque Config.saveBytes : Nat → Nat → Nat

/-- The bytes that a checkpoint needs, for so many slice groups in service (R423). -/
opaque Config.ckNeed : Nat → BitVec 64
/-- The pseudo-channel of its slice group, modulo 32, on which a 64-byte block of device memory lies (log entry 90). -/
opaque Config.burstChannel : Nat → Nat
/-- The L2 slice serves the accesses to a 64-byte block of device memory without a burst of its channel (log entry 90). -/
opaque Config.sliceServes : Nat → Bool
/-- The bytes of a checkpoint's image by their index: the form is not given of what they hold, which is the numbers listed, granules
as stored, the counter tree, and a header of root counters and wrapped keys (R423). -/
opaque Config.ckByte : List Nat → Nat → BitVec 8
/-- A key pair's keys wrapped under the die-unique key (R423). -/
opaque Config.wrapKeys : BitVec 256 → BitVec 256 → Nat

end Sys2Proof
end

