-- ==== Sys2Proof/Machine/Table.lean ====
section
/-! DEFINITION. Reading and writing sparse tables in their one canonical form. -/

namespace Sys2Proof

/-- The entry of a number, if listed. -/
def Tbl.find? {α : Type} : Tbl α → Nat → Option α
  | [], _ => none
  | (k, v) :: t, n => if k = n then some v else Tbl.find? t n

/-- List a number with a value, in the place the order gives it. -/
def Tbl.insert {α : Type} : Tbl α → Nat → α → Tbl α
  | [], n, a => [(n, a)]
  | (k, v) :: t, n, a =>
    if n < k then (n, a) :: (k, v) :: t
    else if n = k then (n, a) :: t
    else (k, v) :: Tbl.insert t n a

/-- Unlist a number. -/
def Tbl.erase {α : Type} : Tbl α → Nat → Tbl α
  | [], _ => []
  | (k, v) :: t, n => if k = n then Tbl.erase t n else (k, v) :: Tbl.erase t n

/-- What a number reads as, an unlisted one as the default. -/
def Tbl.get {α : Type} (t : Tbl α) (dflt : α) (n : Nat) : α := (Tbl.find? t n).getD dflt

/-- Write a number, keeping the canonical form: a number that reads as the default is not listed. -/
def Tbl.set {α : Type} [DecidableEq α] (t : Tbl α) (dflt : α) (n : Nat) (a : α) : Tbl α :=
  if a = dflt then Tbl.erase t n else Tbl.insert t n a

/-- Change a listed number's entry. -/
def Tbl.modify {α : Type} (t : Tbl α) (n : Nat) (f : α → α) : Tbl α :=
  match Tbl.find? t n with
  | some a => Tbl.insert t n (f a)
  | none => t

/-- Every listed number is above a bound, in strictly rising order. -/
def Tbl.sortedFrom {α : Type} : Nat → Tbl α → Bool
  | _, [] => true
  | lo, (k, _) :: t => decide (lo ≤ k) && Tbl.sortedFrom (k + 1) t

/-- The canonical form: strictly rising numbers, none of which reads as the default. -/
def Tbl.wf {α : Type} [DecidableEq α] (dflt : α) (t : Tbl α) : Bool :=
  Tbl.sortedFrom 0 t && t.all fun e => decide (e.2 ≠ dflt)

/-- The entries' values, in rising order of their numbers. -/
def Tbl.values {α : Type} (t : Tbl α) : List α := t.map (·.2)

/-- The listed numbers, rising. -/
def Tbl.keys {α : Type} (t : Tbl α) : List Nat := t.map (·.1)

end Sys2Proof
end

