-- ==== Sys2Proof/Machine/Regs.lean ====
section
/-! DEFINITION. A team's register file, and the reading and writing of its registers lane by lane (R22, R24). -/

namespace Sys2Proof.Machine

/-- The registers, predicates, handles and numeric state of one team. A per-lane register `n` of lane `l` stands under the
number `1024 * n + l`; an unlisted register reads zero, as every register does when its team starts (R24). -/
structure Regs where
  vt : Tbl Word := []
  wt : Tbl Word64 := []
  st : Tbl Word := []
  xt : Tbl Word64 := []
  /-- p1 to p15, a bit per lane -/
  pt : Tbl Mask := []
  /-- q1 to q7 in bits 1 to 7 -/
  qs : Byte := 0
  /-- the handle registers of the classes a, k, o, y and h -/
  ha : Tbl Handle := []
  hk : Tbl Handle := []
  ho : Tbl Handle := []
  hy : Tbl Handle := []
  hh : Tbl Handle := []
  /-- NFLAGS, bits 8..0 (R93) -/
  nflags : Word := 0
  /-- FPMODE, bits 3..0 (R90) -/
  fpmode : Word := 0
  /-- generator states that differ from what the lane started with (R91) -/
  srt : Tbl Word := []
  /-- the crew index and team index that give each lane its first generator state (R91) -/
  srCrew : Nat := 0
  srTeam : Nat := 0
deriving DecidableEq, Repr

/-- The place of lane `l` of a per-lane register. -/
def laneKey (n l : Nat) : Nat := 1024 * n + l

/-- v[n] in lane l. -/
def Regs.v (r : Regs) (n l : Nat) : Word := r.vt.get 0 (laneKey n l)
/-- w[n] in lane l. -/
def Regs.w (r : Regs) (n l : Nat) : Word64 := r.wt.get 0 (laneKey n l)
/-- s[n]. -/
def Regs.s (r : Regs) (n : Nat) : Word := r.st.get 0 n
/-- x[n]. -/
def Regs.x (r : Regs) (n : Nat) : Word64 := r.xt.get 0 n
/-- p[n] in every lane; p0 reads true (R22). -/
def Regs.p (r : Regs) (n : Nat) : Mask := if n = 0 then BitVec.allOnes 1024 else r.pt.get 0 n
/-- q[n]; q0 reads true (R22). -/
def Regs.q (r : Regs) (n : Nat) : Bool := n == 0 || r.qs.getLsbD n
/-- The generator state of lane l (R91). -/
def Regs.sr (r : Regs) (l : Nat) : Word := r.srt.get (srInit r.srCrew r.srTeam l) l

/-- The lanes below a bound. -/
def lanesBelow (n : Nat) : List Nat := List.range n

/-- The lanes in which a condition holds. -/
def maskOf (nl : Nat) (f : Nat → Bool) : Mask :=
  (lanesBelow nl).foldl (fun m l => if f l then m ||| (1#1024 <<< l) else m) 0

/-- The mask holds lane l. -/
def Mask.has (m : Mask) (l : Nat) : Bool := m.getLsbD l

/-- Write `f l` under each lane of a mask, among the lanes of the team. -/
def setLanes {α : Type} [DecidableEq α] (t : Tbl α) (dflt : α) (n : Nat) (nl : Nat) (m : Mask) (f : Nat → α) : Tbl α :=
  (lanesBelow nl).foldl (fun t l => if Mask.has m l then t.set dflt (laneKey n l) (f l) else t) t

/-- Write v[n] in the lanes of a mask. -/
def Regs.setV (r : Regs) (n nl : Nat) (m : Mask) (f : Nat → Word) : Regs := { r with vt := setLanes r.vt 0 n nl m f }
/-- Write w[n] in the lanes of a mask. -/
def Regs.setW (r : Regs) (n nl : Nat) (m : Mask) (f : Nat → Word64) : Regs := { r with wt := setLanes r.wt 0 n nl m f }
/-- Write s[n]. -/
def Regs.setS (r : Regs) (n : Nat) (a : Word) : Regs := { r with st := r.st.set 0 n a }
/-- Write x[n]. -/
def Regs.setX (r : Regs) (n : Nat) (a : Word64) : Regs := { r with xt := r.xt.set 0 n a }
/-- Write p[n] in the lanes of a mask; p0 ignores writes (R22). -/
def Regs.setP (r : Regs) (n nl : Nat) (m : Mask) (f : Nat → Bool) : Regs :=
  if n = 0 then r else { r with pt := r.pt.set 0 n ((r.p n &&& ~~~m) ||| (maskOf nl f &&& m)) }
/-- Write q[n]; q0 ignores writes (R22). -/
def Regs.setQ (r : Regs) (n : Nat) (b : Bool) : Regs :=
  if n = 0 then r else { r with qs := (r.qs &&& ~~~(1#8 <<< n)) ||| (if b then 1#8 <<< n else 0) }
/-- Write the generator state of lane l, a zero as R91 stores it. -/
def Regs.setSr (r : Regs) (l : Nat) (a : Word) : Regs :=
  { r with srt := r.srt.set (srInit r.srCrew r.srTeam l) l (srStore a) }
/-- Write the generator states of the lanes of a mask. -/
def Regs.setSrLanes (r : Regs) (nl : Nat) (m : Mask) (f : Nat → Word) : Regs :=
  (lanesBelow nl).foldl (fun r l => if Mask.has m l then r.setSr l (f l) else r) r
/-- Raise sticky flags (R93). -/
def Regs.raise (r : Regs) (f : Flags) : Regs := { r with nflags := r.nflags ||| f }

/-- The flags that the lanes of a mask raise together. -/
def lanesFlags (nl : Nat) (m : Mask) (f : Nat → Flags) : Flags :=
  (lanesBelow nl).foldl (fun a l => if Mask.has m l then a ||| f l else a) 0

/-- The lanes that a guard of class lane admits (R31). -/
def guardLanes (r : Regs) : Option Guard → Mask
  | none => BitVec.allOnes 1024
  | some g => if g.neg then ~~~(r.p g.num) else r.p g.num

/-- A guard of class uniform holds (R31). -/
def guardHolds (r : Regs) : Option Guard → Bool
  | none => true
  | some g => r.q g.num != g.neg

/-- The lowest lane of a mask among the team's, if any. -/
def lowestLane (nl : Nat) (m : Mask) : Option Nat := (lanesBelow nl).find? fun l => Mask.has m l

/-- The number of lanes of a mask. -/
def countLanes (nl : Nat) (m : Mask) : Nat := ((lanesBelow nl).filter fun l => Mask.has m l).length

/-- Word `g` of a mask: its lanes 32g to 32g + 31 (R232). -/
def maskWord (m : Mask) (g : Nat) : Word := BitVec.ofNat 32 (m.toNat / 2 ^ (32 * g))

/-- A mask with one word replaced (R106, R232). -/
def setMaskWord (m : Mask) (g : Nat) (w : Word) : Mask :=
  (m &&& ~~~((BitVec.allOnes 32).setWidth 1024 <<< (32 * g))) ||| (w.setWidth 1024 <<< (32 * g))

end Sys2Proof.Machine
end

