-- ==== Sys2Proof/Syntax/Event.lean ====
section
/-! DEFINITION. The data that events of the device carry: atomics, fabric requests and answers, group messages. -/

namespace Sys2Proof

/-- The atomics of major 18 (R154). -/
inductive AtomOp where
  | addI32 | addF32 | minI32 | minN32 | maxI32 | maxN32 | and | or | xor | xchg
  | cas | addI64 | casI64 | ldAcq | stRel | incN32
deriving DecidableEq, Repr

/-- What a fabric request asks of its target (R435). -/
inductive RemoteOp where
  | load (size : Nat)
  | store (data : List Byte)
  | atom (op : AtomOp) (a b : Word64)
  /-- the combination of one element of a cp.red (R288): OP code, size, value, and whether its source bore the mark -/
  | combine (op size : Nat) (value : Word64) (bad : Bool)
  /-- the mark that a copy leaves on the granule it names (R408) -/
  | mark (bad : Bool)
  /-- nflag.merge -/
  | merge (flags : Word)
  | barrier (expect : Word)
deriving DecidableEq, Repr

/-- What a target answers (R435, R436). -/
inductive RemoteAnswer where
  | data (bytes : List Byte)
  | done
  | poison
  | fail (reason : Nat)
deriving DecidableEq, Repr

/-- The identity of a transaction group (R439). -/
structure GroupId where
  origin : Nat
  vf : Nat
  number : Nat
deriving DecidableEq, Repr

/-- The messages of transaction groups (R441 to R444). -/
inductive GroupBody where
  | staged (raddr : Nat) (data : List Byte)
  | prepare (count : Nat) (dests : List Nat)
  | ready
  | refuse (reason : Nat)
  | commit
  | abort (reason : Nat)
  | acknowledge
  /-- the acknowledgment of a COMMIT by a destination whose VF was reset after READY (R443) -/
  | acknowledgeReset
  | forget
  | query
  | queryAnswer (committed : Bool)
deriving DecidableEq, Repr

/-- A translation set as a package sends it (R335): its key, and each overlay with its compressed bytes and check value. -/
structure PeerSet where
  imgid : Nat
  split : Nat
  xver : Nat
  domain : Nat
  packed : List (Nat × List Byte × Word)
deriving DecidableEq, Repr

/-- What comes with a transferred set's key: its overlays, and the sender's signature over all of it (R335). -/
structure PeerSent where
  packed : List (Nat × List Byte × Word)
  sig : List Byte
deriving DecidableEq, Repr

/-- What a translation core has made of a set: each overlay with its compressed bytes (R326, R327). -/
structure Translated where
  set : Nat
  core : Nat
  packed : List (Nat × List Byte)
deriving DecidableEq, Repr

/-- A group message with its sender and addressee. -/
structure GroupMsg where
  gid : GroupId
  src : Nat
  dst : Nat
  body : GroupBody
deriving DecidableEq, Repr

/-- How a stored unit's error is classed (R410). -/
inductive ErrClass where
  | corrected | uncorrectable | tagMismatch | counterBlock
deriving DecidableEq, Repr

/-- Where an error strikes (R406 to R409): a granule of device memory by its key, a granule of a crew's scratchpad or
operand-buffer window, a counter block by level and number, a crew's saved state, or storage of a function that holds no
granule. -/
inductive ErrPlace where
  | mem (key : Nat)
  | scratch (crew granule : Nat)
  | window (crew granule : Nat)
  | counters (level num : Nat)
  | saved (crew : Nat)
  | other (fn : Nat)
deriving DecidableEq, Repr

/-- The reads and writes that the host makes of a configuration BAR, or a team by cfg.wr (R225, R413). -/
structure CfgAccess where
  /-- privilege H -/
  atH : Bool
  window : Nat
  offset : Nat
deriving DecidableEq, Repr

end Sys2Proof
end

