-- ==== Sys2Proof/Machine/State/Team.lean ====
section
/-! DEFINITION. The state of one team: control, traps, waits, handles, and its engine work in flight. -/

namespace Sys2Proof.Machine

/-- A divergence frame (R199, R202). -/
structure Frame where
  target : Nat
  deferred : Mask
  entry : Mask
deriving DecidableEq, Repr

/-- A return entry (R201). -/
structure ReturnEntry where
  addr : Nat
  bank : Bank
  depth : Nat
deriving DecidableEq, Repr

/-- A privilege level (R41, R105). -/
inductive Priv where
  | u | s | h
deriving DecidableEq, Repr

/-- The barrier record: the address and phase of the latest arrival (R162). -/
structure BarrierRec where
  addr : Word64
  phase : BitVec 16
deriving DecidableEq, Repr

/-- An engine operation: a copy, fill or gather by its number, a matrix operation by its sequence number, a stamp by its
number (R336). -/
inductive EngRef where
  | copy (id : Nat)
  | matrix (seq : Nat)
  | stamp (id : Nat)
deriving DecidableEq, Repr

/-- The operation that an engine WATCH reports, and its progress record WPROG0 and WPROG1 (R338, R364). -/
structure EngStop where
  op : EngRef
  prog0 : Word64
  prog1 : Word64
deriving DecidableEq, Repr

/-- The trap state that TCAUSE, TVPC, TADDR, TINFO and TDONE read (R57, R345), and what an engine WATCH names. -/
structure TrapState where
  cause : Word := 0
  vpc : Word64 := 0
  addr : Word64 := 0
  info : Word := 0
  done : Mask := 0
  eng : Option EngStop := none
deriving DecidableEq, Repr

/-- An armed watchpoint (R223). -/
structure Watch where
  base : Nat
  length : Nat
  /-- SPACE 1: the slot and generation of the watched array -/
  array : Option (Nat × Nat)
  read : Bool
  write : Bool
  engine : Bool
deriving DecidableEq, Repr

/-- The access that a WATCH reported, exempt once on resumption, and the watchpoint that it met (R221, R363). -/
structure Exempt where
  vpc : Nat
  lane : Nat
  addr : Word64
  watch : Option (Nat × Watch) := none
deriving DecidableEq, Repr

/-- What delivery pushes and tret pops (R343, R346). -/
structure TrapFrame where
  trap : TrapState
  bank : Bank
  active : Mask
  frames : List Frame
  returns : List ReturnEntry
  priv : Priv
  barrier : Option BarrierRec
  /-- the address of the bar.sync that trapped once it had arrived (R162) -/
  arrived : Option Nat := none
  exempt : Option Exempt := none
deriving DecidableEq, Repr

/-- The control state of a team (R199). -/
structure Control where
  pc : Nat := 0
  bank : Bank := .a
  active : Mask := 0
  exited : Mask := 0
  /-- innermost first -/
  frames : List Frame := []
  /-- latest first -/
  returns : List ReturnEntry := []
  priv : Priv := .u
  barrier : Option BarrierRec := none
  /-- the lanes that the instruction at `pc` skips: those in which a tret says it has been performed, or has been so far
  (R158) -/
  skip : Mask := 0
  /-- the bar.sync at `pc` has arrived and waits (R162) -/
  arrived : Bool := false
  /-- the access at `pc` is under way: the number of its fabric operation, and whether it has a lane at a fabric address (R165) -/
  under : Option (Nat × Bool) := none
  /-- the lanes of the access at `pc` before which other agents act (R153, log entry 122) -/
  breaks : List Nat := []
  exempt : Option Exempt := none
deriving DecidableEq, Repr

/-- The trap state of a team: its handler frames, innermost first, and the most recent trap delivered (R343, R345). -/
structure Traps where
  handlers : List TrapFrame := []
  last : TrapState := {}
deriving DecidableEq, Repr

/-- A slot of a handle class: its generation and what it names while live (R170). -/
structure SlotOf (α : Type) where
  gen : Nat := 1
  obj : Option α := none
deriving DecidableEq, Repr

/-- The slots of a handle class; an unlisted slot is free with generation 1. -/
abbrev Pool (α : Type) := Tbl (SlotOf α)

/-- An accumulator tile array: tiles per quarter, its elements by flat index, its FLAGS word (R194, R193). -/
structure ArrayObj where
  n : Nat
  elems : Tbl Word := []
  flags : Word := 0
deriving DecidableEq, Repr

/-- The state of a residency token (R206). -/
inductive TokenState where
  | loading | resident | failed | stale
deriving DecidableEq, Repr

/-- A residency token: the overlay it names, its half, its state, whether its load has started, whether it is fenced
(R205 to R207). -/
structure TokenObj where
  overlay : Nat
  half : Bank
  state : TokenState
  started : Bool := false
  fenced : Bool := false
deriving DecidableEq, Repr

/-- What a track is (R183): the address of its record, P, C, DEPTH, and the teams that hold a reference. -/
structure TrackObj where
  addr : Word64
  p : Word := 0
  c : Word := 0
  depth : Nat
  holders : List Nat
deriving DecidableEq, Repr

/-- An operand range (R187): the address of its record, its fields, and the teams that hold a reference. -/
structure RangeObj where
  addr : Word64
  base : Nat
  length : Nat
  format : Nat
  /-- byte +9: BLOCK, OSH and NF -/
  ctl : Nat
  soff : Nat
  holders : List Nat
deriving DecidableEq, Repr

/-- The geometry record of unf.cfg (R190). -/
structure Geometry where
  k : Nat
  nt : Nat
  unfold : Bool
  astr : Nat
  bstr : Nat
  h : Nat
  w : Nat
  c : Nat
  kh : Nat
  kw : Nat
  stride : Nat
  pad : Nat
  ow : Nat
deriving DecidableEq, Repr

/-- An engine operation stopped by a watchpoint (R336): what its WATCH reports, its progress record (R364), and whether the
report has been delivered. -/
structure Suspension where
  watch : Nat
  addr : Word64
  lane : Nat
  write : Bool
  /-- log2 of the element size -/
  size : Nat
  prog0 : Word64
  prog1 : Word64
  reported : Bool := false
deriving DecidableEq, Repr

/-- The bytes an engine operation may still read as they stood at its issue (R189, R264). -/
structure SourceSnap where
  dev : List Host.Cell := []
  host : List Host.Cell := []
  scratch : List Host.Cell := []
  window : List Host.Cell := []
deriving DecidableEq, Repr

/-- The copy descriptor (R176). -/
structure CopyDesc where
  src : Word64
  dst : Word64
  count0 : Nat
  count1 : Nat
  count2 : Nat
  esz : Nat
  op : Nat
  sstr1 : Word64
  sstr2 : Word64
  dstr1 : Word64
  dstr2 : Word64
deriving DecidableEq, Repr

/-- The kinds of copy-engine operation (R177, R180, R188). -/
inductive CopyKind where
  | g2s | s2g | g2g | tile | red | gather | fill
deriving DecidableEq, Repr

/-- Where a byte lives: in a crew's scratchpad, in its operand-buffer window, at a guest-physical address of a function, at
a host bus address, or at a guest-physical address of a node (R296 to R299). -/
inductive Place where
  | scratch (crew off : Nat)
  | window (crew off : Nat)
  | gpa (fn a : Nat)
  | host (a : Nat)
  | fabric (node raddr : Nat)
deriving DecidableEq, Repr

/-- The source or destination of a copy: its lowest byte's address, and where that byte lives (R177). -/
structure Side where
  low : Nat := 0
  place : Place := .host 0
  /-- bytes of the extent -/
  span : Nat := 0
deriving DecidableEq, Repr

/-- A row of a gather: its lane, and where its first source and destination bytes live (R180). -/
structure GatherRow where
  lane : Nat
  srcAddr : Nat
  dstAddr : Nat
  src : Place
  dst : Place
deriving DecidableEq, Repr

/-- A read of an abandoned operation that failed: the row of a gather, the granule, and the unit whose self-test is still to judge
it (R285). -/
structure FailedRead where
  row : Nat
  granule : Place
  test : Option (Nat × Nat)
deriving DecidableEq, Repr

/-- A copy-engine operation in flight (R280). -/
structure CopyOp where
  id : Nat
  kind : CopyKind
  desc : CopyDesc
  /-- the Troric address of the issuing instruction -/
  vpc : Nat := 0
  src : Side := {}
  dst : Side := {}
  rows : List GatherRow := []
  /-- the slot of the range a fill writes -/
  range : Option Nat := none
  snap : SourceSnap := {}
  /-- engine watchpoints armed at issue (R223) -/
  watches : Tbl Watch := []
  /-- bytes of remote sources, as their responses brought them, by flat source byte index -/
  remote : Tbl Byte := []
  /-- fabric requests not yet answered -/
  pending : Nat := 0
  /-- its fabric reads, and its fabric writes, have been sent -/
  asked : Bool := false
  sent : Bool := false
  /-- elements whose source bore the poison mark -/
  bad : List Nat := []
  err : Bool := false
  poison : Bool := false
  /-- abandonments so far, by row of a gather, and the reads that failed (R285) -/
  abandons : Tbl Nat := []
  failed : List FailedRead := []
  /-- the unit whose self-test its latest abandonment waits for -/
  tested : Option (Nat × Nat) := none
  /-- segments of a cp.red already combined (R287) -/
  applied : List Nat := []
  /-- the flags that its combinations have raised (R179) -/
  flags : Flags := 0
  susp : Option Suspension := none
  /-- the unit that a tret exempts from its watchpoints once (R338) -/
  exempt : Option Nat := none
  /-- units performed before a suspension -/
  progress : Nat := 0
  /-- units that a pass since abandoned has had checked against its watchpoints (R286) -/
  seen : Nat := 0
  /-- what each element delivered; an element that gave way to another of the same bytes delivers nothing -/
  vals : List (List Byte) := []
  /-- written in whole -/
  done : Bool := false
deriving DecidableEq, Repr

/-- A closed batch in flight: its sequence number from 1 up, its operations in issue order (R181). -/
structure Batch where
  seq : Nat
  ops : List CopyOp
deriving DecidableEq, Repr

/-- A stamp not yet written (R182): the batches it covers and the marks gathered so far (R283). -/
structure Stamp where
  id : Nat := 0
  addr : Word64
  place : Place
  vpc : Nat := 0
  watches : Tbl Watch := []
  scope : Scope
  /-- every batch up to this one must be complete -/
  upto : Nat
  poison : Bool := false
  err : Bool := false
  /-- the last of the team's fabric operations that precede it -/
  fab : Nat := 0
  /-- its fabric write has been sent and not yet acknowledged -/
  sent : Bool := false
  susp : Option Suspension := none
  exempt : Bool := false
deriving DecidableEq, Repr

/-- A matrix-class operation in flight (R192, R197). -/
inductive MatKind where
  | mma (zero : Bool) (ra rb : RangeObj) (aSlot bSlot : Nat) (geom : Geometry) (active : Mask)
  /-- acc.st: where its matrix goes, its control word, its draws in the order of its elements -/
  | accSt (dst : Side) (ctl : Word) (draws : List Word)
deriving DecidableEq, Repr

/-- A matrix-class operation with the array it names (R193). -/
structure MatOp where
  seq : Nat
  array : Nat
  /-- the generation of the array's slot -/
  gen : Nat := 1
  kind : MatKind
  vpc : Nat := 0
  snap : SourceSnap := {}
  watches : Tbl Watch := []
  /-- units performed before a suspension, and the flags they raised -/
  progress : Nat := 0
  flags : Flags := 0
  susp : Option Suspension := none
  exempt : Option Nat := none
  pending : Nat := 0
  sent : Bool := false
  /-- begun: it takes no place of the queue (R267) -/
  begun : Bool := false
  /-- the array as an acc.st has read it to store (R273) -/
  read : Option ArrayObj := none
  /-- performed in whole; complete, its flags raised, once every older operation is (R165, R193) -/
  done : Bool := false
deriving DecidableEq, Repr

/-- A pending track advance (R184): the track's slot, the side, the count, and what must complete first. -/
structure Advance where
  slot : Nat
  producer : Bool
  n : Word
  /-- the last batch, or the last matrix operation, that must complete -/
  after : Nat
deriving DecidableEq, Repr

/-- A write whose delivery failed after its instruction had completed (R437). -/
structure WriteFault where
  /-- the place of its instruction among the team's fabric operations, 0 for a stamp -/
  idx : Nat := 0
  addr : Word64
  size : Nat
  reason : Nat
deriving DecidableEq, Repr

/-- A fabric access of the team: complete when every lane has been answered (R165, R435). -/
structure FabOp where
  id : Nat
  /-- its place among the team's fabric operations, from 1 up -/
  idx : Nat := 0
  /-- requests not yet answered -/
  pending : Nat
deriving DecidableEq, Repr

/-- The engine work and counters of a team (R165 to R167, R181 to R184). -/
structure Engines where
  arrays : Pool ArrayObj := []
  geom : Option Geometry := none
  /-- issued and not complete, oldest first -/
  mats : List MatOp := []
  /-- the number of the last one issued -/
  matLast : Nat := 0
  gathers : List CopyOp := []
  fabric : List FabOp := []
  fabIssued : Nat := 0
  open_ : List CopyOp := []
  closed : List Batch := []
  /-- batches closed so far -/
  batches : Nat := 0
  stamps : List Stamp := []
  /-- marks of complete batches that no stamp covers yet: poison, err -/
  openPoison : Bool := false
  openErr : Bool := false
  advances : List Advance := []
deriving DecidableEq, Repr

/-- What makes an instruction wait at issue before it is performed at all (R152, R165, R181, R195, R267). -/
inductive Stall where
  | arrayBusy (slot : Nat)
  | counterFull (c : WaitClass)
  | copiesFull
  | matrixFull
  /-- the flags of operations on an array are still to come (R273) -/
  | flagsBusy (slot : Nat)
deriving DecidableEq, Repr

/-- The instruction a team is parked in, with what its completion needs (R236). -/
inductive Park where
  /-- performed again from its start once the stall ends -/
  | stall (w : Stall)
  | barWait (addr : Word64)
  | mwait
  | waitc (c : WaitClass) (n : Nat)
  | waitb (b : Word)
  | trkWfree (slot : Nat) (n : Nat)
  | trkWfill (slot : Nat) (n : Nat)
  | trkClose (slot : Nat)
  | accFree (slot : Nat)
  | obRel (slot : Nat)
  | ovrel (slot : Nat)
  | ovwait (q slot : Nat)
  | ifence
  | cjoin (addr : Word64)
  | tgWait (d slot : Nat)
  | probe
  | exit
  /-- a load on demand before the instruction is performed again (R210), or before delivery (R344): the half, the overlay, and
  the address that a failed check reports or at which the handler begins -/
  | reload (half : Bank) (overlay : Nat) (target : Word64)
deriving DecidableEq, Repr

/-- The state of a team (R235). SAVED belongs to the crew. -/
inductive TeamStatus where
  | runnable
  | parked (p : Park)
  /-- in the middle of an instruction, whose answers from other nodes, earlier writes or slice group it waits for: no park of
  R236, and no safe point -/
  | waiting
  | retired
deriving DecidableEq, Repr

/-- A page entry a probe entered (R350, R351): the page, where it leads, and whether writes are permitted. -/
structure PageEntry where
  va : Nat
  pa : Nat
  host : Bool
  w : Bool
  /-- entered by the probe now in its final pass -/
  fresh : Bool := false
deriving DecidableEq, Repr

/-- One page of a parked probe (R354 to R356): its address, its lowest lane, and how its walk stands. -/
inductive PageState where
  /-- waits for a queue entry, with the repeat count and the kind and address of the failed walk -/
  | waiting (rep kind : Nat) (gpa : Word64)
  /-- a request holds a queue entry -/
  | requested (entry : Nat)
  /-- a valid walk: the page it leads to, at a host bus address or not, writes permitted or not -/
  | granted (pa : Nat) (host w : Bool)
  /-- a valid walk that INVAL removed: to be walked again -/
  | again
  /-- ended with a reason -/
  | refused (reason : Nat)
deriving DecidableEq, Repr

/-- A parked probe (R151, R152, R354). -/
structure ProbeState where
  vpc : Nat
  dest : Nat
  /-- lane, effective address, and the result where the address lay in the scratchpad or the LTT; rising by lane -/
  lanes : List (Nat × Word64 × Option Nat)
  /-- the lowest lane whose condition traps without a page answer -/
  f0 : Option Nat
  pages : List (Nat × PageState)
deriving DecidableEq, Repr

/-- The team's monitor (R164): the line it watches, and whether a write has landed since. -/
structure Monitor where
  line : Nat × Nat
  hit : Bool
deriving DecidableEq, Repr

/-- A transaction group as the team's h slot names it (R214): the number of its global identity. -/
structure GroupObj where
  number : Nat
deriving DecidableEq, Repr

/-- The rest of a team's state: tokens, groups, watchpoints, page entries, its probe and its monitor. -/
structure Links where
  tokens : Pool TokenObj := []
  /-- halves that a forced reclaim emptied under this team, each with the overlay it held (R210) -/
  reclaimed : List (Bank × Nat) := []
  groups : Pool GroupObj := []
  watches : Tbl Watch := []
  pages : List PageEntry := []
  probe : Option ProbeState := none
  monitor : Option Monitor := none
  /-- remote results of the lanes of the access that waits (R435) -/
  answers : Tbl RemoteAnswer := []
  /-- a fabric write failure not yet reported: address, lane, size and reason (R437) -/
  fabricFault : Option WriteFault := none
  /-- the fabric operations that precede the team's latest release fence at fabric scope, once it has made one (R438) -/
  fence : Option Nat := none
  /-- the delivery that waits for its handler's overlay (R344) -/
  delivery : Option TrapState := none
  /-- its crew is to stop, and it stands at its safe point (R237, R263) -/
  stopped : Bool := false
  /-- the next marker logs drift 0 with RESYNC (R368) -/
  resync : Bool := true
  /-- interlock records are written until the next marker (R368) -/
  detail : Bool := false
  /-- the cycle count and the expected count of the last marker logged (R368) -/
  lastMark : Word64 × Word64 := (0, 0)
  /-- TBUNDLE, TPARK, TSKIP, TROLL, TALIAS and TREPLAY (R369) -/
  bundles : Word64 := 0
  parked : Word64 := 0
  skips : Word64 := 0
  rollbacks : Word64 := 0
  aliases : Word64 := 0
  replays : Word64 := 0
deriving DecidableEq, Repr

/-- One team (R10, R199, R231). -/
structure Team where
  crew : Nat
  index : Nat
  nlane : Nat
  status : TeamStatus := .runnable
  regs : Regs := {}
  ctl : Control := {}
  trap : Traps := {}
  eng : Engines := {}
  link : Links := {}
deriving DecidableEq, Repr

end Sys2Proof.Machine
end

