-- ==== Sys2Proof/Machine/State/Crew.lean ====
section
/-! DEFINITION. Images, translation sets, launches, crews, sub-cores: what the dispatcher and the loader hold. -/

namespace Sys2Proof.Machine

/-- A kernel header (R73). -/
structure Kernel where
  ovl : Nat
  entry : Nat
  counts : Counts
  teams : Nat
  lanes : Nat
  producer : Nat
  tracks : Nat
  ranges : Nat
  scratch : Nat
  spill : Nat
deriving DecidableEq, Repr

/-- An overlay of an image (R75): its size in bytes and its POLICY bit. -/
structure OverlayInfo where
  size : Nat
  policy : Bool
deriving DecidableEq, Repr

/-- A loaded image (R415 to R417). -/
structure Image where
  fn : Nat
  num : Nat
  /-- IMGID: the first 32 bytes of SHAKE256 over the file (R323) -/
  imgid : Nat
  keySlot : Nat
  kernels : List Kernel
  overlays : Tbl OverlayInfo
  /-- the code, by Troric address -/
  code : List Host.Cell
  unloading : Bool := false
deriving DecidableEq, Repr

/-- An overlay's translation as the cache stores it (R325): its compressed bytes and their check value. -/
structure Packed where
  bytes : List Byte
  check : Word
deriving DecidableEq, Repr, Inhabited

/-- A translation set (R323): its key and the Troric code it translates. -/
structure TransSet where
  imgid : Nat
  split : Nat
  xver : Nat
  domain : Nat
  current : Bool
  overlays : Tbl OverlayInfo
  code : List Host.Cell
  /-- the translation is complete (R326) -/
  ready : Bool := true
  /-- asked of the peers on a link, which have not answered (R335, R446) -/
  fetching : Option Nat := none
  /-- the stored translations, by overlay -/
  packed : Tbl Packed := []
  /-- the order in which sets were last bound (R327) -/
  bound : Nat := 0
deriving DecidableEq, Repr

/-- An extent of a locked translation table (R349). -/
structure Extent where
  va : Nat
  log2 : Nat
  pa : Nat
  target : Nat
  w : Bool
deriving DecidableEq, Repr

/-- A launch packet (R245). -/
structure Packet where
  kernel : Nat
  ncrew : Nat
  argbase : Word64
  scratch : Nat
  cpt : Nat
  producer : Nat
  prio : Nat
  fuse : Bool
  splits : Nat
  await0 : Word64
  await1 : Word64
  signal : Word64
deriving DecidableEq, Repr

/-- A launch that holds a pool entry (R249 to R255). -/
structure Launch where
  fn : Nat
  serial : Word64
  pkt : Packet
  kern : Kernel
  image : Nat
  imgid : Nat
  /-- its teams start at privilege H (R371) -/
  priv : Priv
  reserved : Bool
  /-- found ready: bound to its extents and sets (R251, R326, R349) -/
  ready : Bool := false
  extents : List Extent := []
  /-- set number by split mode -/
  sets : Tbl Nat := []
  /-- the next crew to place -/
  next : Nat := 0
  /-- crews retired -/
  retired : Nat := 0
  flags : Word := 0
  status : Nat := 0
  halted : Bool := false
deriving DecidableEq, Repr

/-- Why a crew is being stopped (R237, R373, R378, R391, R409, R423). -/
inductive StopWhy where
  | preempt | slice | board | pool | evict | test | checkpoint
deriving DecidableEq, Repr

/-- Where a crew stands (R235, R237, R260, R448). -/
inductive CrewStatus where
  /-- its teams wait for the entry fill -/
  | filling
  | running
  | stopping (why : StopWhy)
  | saved (why : StopWhy)
  /-- placed again, its overlays loading (R448) -/
  | restoring
deriving DecidableEq, Repr

/-- For whom a load into a half is made (R205, R210, R260, R344, R448). -/
inductive LoadFor where
  | tokens
  /-- `claim`: the team's STALE tokens become RESIDENT and fenced -/
  | demand (uid : Nat) (claim : Bool)
  | delivery (uid : Nat)
  | entry (crew : Nat)
  | restore (crew : Nat)
deriving DecidableEq, Repr

/-- How LDINJ stands to a load (R315). -/
inductive Injection where
  /-- no `ovld` queued the load -/
  | uncounted
  /-- counted, its alteration not yet decided: what is saved of the load and queued again shares its key, and its decision -/
  | undecided (key : Nat)
  /-- decided: unaltered, or OFFSET and MASK -/
  | decided (alter : Option (Nat × Nat))
deriving DecidableEq, Repr

/-- A load queued for a half of a sub-core. -/
structure LoadReq where
  half : Bank
  set : Nat
  overlay : Nat
  fn : Nat
  why : LoadFor
  started : Bool := false
  retried : Bool := false
  inj : Injection := .uncounted
deriving DecidableEq, Repr

/-- One crew (R229, R230). -/
structure Crew where
  launch : Nat
  fn : Nat
  index : Nat
  table : Option Nat
  split : Nat
  /-- core and sub-core, while placed -/
  place : Option (Nat × Nat)
  /-- context of team i -/
  contexts : List Nat
  status : CrewStatus
  /-- its teams have begun to issue (R256) -/
  started : Bool := false
  set : Nat
  nteam : Nat
  nlane : Nat
  producer : Option Nat
  scratchBytes : Nat
  spill : Nat
  scratch : List Host.Cell := []
  scratchPoison : Tbl Bool := []
  /-- operand-buffer window: 65,536 bytes for each team -/
  window : List Host.Cell := []
  windowPoison : Tbl Bool := []
  tracks : Pool TrackObj := []
  ranges : Pool RangeObj := []
  /-- LOADING tokens' loads, saved with the decision that their first attempt took (R321) -/
  savedLoads : List LoadReq := []
  /-- the overlays that the saved state names for the halves (R448) -/
  needA : Option Nat := none
  needB : Option Nat := none
deriving DecidableEq, Repr

/-- A half of a sub-core's instruction store (R318, R319): the set and overlay it holds. -/
abbrev Half := Option (Nat × Nat)

/-- A sub-core (R261, R318, R384). -/
structure SubCore where
  halfA : Half := none
  halfB : Half := none
  /-- queued loads, oldest first -/
  loads : List LoadReq := []
  /-- the team whose context is selected for issue, and the context last selected (R261) -/
  selected : Option Nat := none
  context : Nat := 3
  /-- the function last served -/
  fn : Nat := 0
  /-- the rated function for which the pool has freed it (R391) -/
  given : Option Nat := none
  /-- the boot mailbox, as eight words of 8 bytes (R259) -/
  mailbox : List Word64 := []
deriving DecidableEq, Repr

end Sys2Proof.Machine
end

