-- ==== Sys2Proof/Machine/State/Function.lean ====
section
/-! DEFINITION. The registers and queues of one function, physical or virtual. -/

namespace Sys2Proof.Machine

/-- A write to a completion object that the device owes (R252, R255, R397, R399). -/
structure Completion where
  fn : Nat
  addr : Word64
  serial : Word64
  flags : Word
  status : Nat
  /-- a completion or cancellation adds to ARRIVED; a reset does not -/
  arrive : Bool
  extents : List Extent
deriving DecidableEq, Repr

/-- A trace record (R366). -/
structure TraceRec where
  kind : Nat
  team : Nat
  crew : Nat
  vpc : Nat
  cyc : Word64
  data : Word64
  /-- the core and sub-core of the event, which a full ring stops in lossless mode (R367) -/
  place : Option (Nat × Nat) := none
  /-- the half that the team runs from, and the split mode of its crew (R318, R329) -/
  bank : Bank := .a
  split : Nat := 0
deriving DecidableEq, Repr

/-- A page request (R354). -/
structure PageReq where
  fn : Nat
  uid : Nat
  va : Nat
  gpa : Word64
  /-- 1 or 2 -/
  kind : Nat
  rep : Nat
  serial : Word64
deriving DecidableEq, Repr

/-- The state of a virtual function (R375). -/
inductive VfState where
  | off | preparing | running | resetting
deriving DecidableEq, Repr

/-- The registers of a window (R315, R324, R342 to R375, R386 to R415, R440). -/
structure Fn where
  -- traps
  hvec : Tbl Word64 := []
  flog0 : Word64 := 0
  flog1 : Word64 := 0
  flog2 : Word64 := 0
  flog3 : Word64 := 0
  -- translation
  lttptr : Word64 := 0
  lttcnt : Word64 := 0
  s1root : Word64 := 0
  s1froot : Word64 := 0
  -- page requests
  prqbase : Word64 := 0
  prqhead : Word64 := 0
  prqtail : Word64 := 0
  /-- granted entries whose records wait for the ring -/
  ringHeld : List Nat := []
  /-- requests that wait for an entry, oldest first -/
  prqWait : List PageReq := []
  -- instruction store
  tctl : Word64 := 0
  ldinj : Word64 := 0
  -- trace
  trctl : Word64 := 0
  trbase : Word64 := 0
  trtail : Word64 := 0
  trhead : Word64 := 0
  /-- records that wait in lossless mode, oldest first -/
  trWait : List TraceRec := []
  /-- records dropped since the last loss record -/
  trDropped : Nat := 0
  -- partition
  en : Bool := false
  state : VfState := .off
  cfgerr : Nat := 0
  s2base : Word64 := 0
  s2bound : Word64 := 0
  quota : Word64 := 0
  rates : Tbl Word64 := []
  stgq : Word64 := 0
  poisoned : Nat := 0
  /-- identities of the function's key pair (R402), a fresh one at each enable -/
  key : Nat := 0
  -- images
  imgsrc : Word64 := 0
  imglen : Word64 := 0
  imgcmd : Word64 := 0
  imgstat : Word64 := 0
  /-- the source of a load under way, as it stood when the load began (R416) -/
  imgSource : List Byte := []
  keymask : Word64 := 0
  -- launches
  accepted : Word64 := 0
  refused : Word64 := 0
  lastref : Word64 := 0
  serial : Word64 := 1
  -- counters that the architecture fixes
  /-- VL2HIT, VL2MISS, VL2EVICT, VINTERF and VPERTURB (R369) -/
  l2hit : Word64 := 0
  l2miss : Word64 := 0
  l2evict : Word64 := 0
  vinterf : Word64 := 0
  vperturb : Word64 := 0
  vtrlost : Word64 := 0
  vprq : Word64 := 0
  -- delivery
  withheld : List Completion := []
  msix : List Nat := []
  /-- vectors that the host masks, and masked vectors that pend (R414) -/
  masked : List Nat := []
  pending : List Nat := []
deriving DecidableEq, Repr

/-- A function's registers as reset leaves them (R249, R324, R375, R388, R415). -/
def Fn.init (v : Nat) : Fn :=
  { tctl := BitVec.ofNat 64 (v * 256 + 1)
    quota := BitVec.ofNat 64 (128 * 2 ^ 32 + 128 * 2 ^ 16 + 64)
    keymask := if v = 0 then 0xFFFF else 0xFFFE }

/-- The reset value of a rate register: DEPTH 1, BORROW 1, GUAR 0 (R388). -/
def rateInit : Word64 := 0x110000

end Sys2Proof.Machine
end

