-- ==== Sys2Proof/Machine/State/Fabric.lean ====
section
/-! DEFINITION. The fabric of one package: links, streams, requests in flight, groups at origin and destination. -/

namespace Sys2Proof.Machine

/-- What a fabric request's answer serves at its origin (R435). -/
inductive FabFor where
  /-- lane `lane` of the access that its team waits in -/
  | access (lane : Nat)
  /-- a store complete at issue (R437): its instruction, address and size -/
  | write (op : Nat) (addr : Word64) (log2 : Nat)
  /-- element `index` of a copy, fill or gather -/
  | copyRead (op : Nat) (index : Nat)
  /-- an element that a copy, fill or gather delivers at an address, or its mark -/
  | copyWrite (op : Nat) (addr : Word64)
  /-- a unit of an acc.st at an address, with log2 of its size -/
  | matrix (seq : Nat) (addr : Word64) (log2 : Nat)
  | stamp (id : Nat)
deriving DecidableEq, Repr

/-- A request at its origin, waiting for a plane or sent (R430 to R432). -/
structure FabReq where
  id : Nat
  fn : Nat
  uid : Nat
  /-- the launch of its team (R255) -/
  launch : Nat := 0
  node : Nat
  raddr : Nat
  op : RemoteOp
  use : FabFor
  /-- N of a release (R438) -/
  release : Option Nat := none
  /-- the link it went out on; none while it waits -/
  link : Option Nat := none
deriving DecidableEq, Repr

/-- A message other than a request: one that names no line takes any plane (R430), an answer the plane of its request. -/
inductive Wire where
  | answer (plane node id raddr : Nat) (a : RemoteAnswer)
  | group (m : GroupMsg)
  | streamReset (fn node base : Nat)
  | peerAsk (fn imgid split xver domain : Nat)
  | peerServe (fn node : Nat) (set : PeerSet) (sig : List Byte)
deriving DecidableEq, Repr

/-- A message that waits for a plane, or has been sent on a link, its last flit under a SEQ that is not yet acknowledged. -/
structure WireMsg where
  body : Wire
  link : Option Nat := none
  last : Nat := 0
deriving DecidableEq, Repr

/-- A link (R429, R433, R434). -/
structure Link where
  en : Bool := false
  /-- 0 closed, 1 training, 2 up, 3 down -/
  state : Nat := 0
  retries : Nat := 0
  /-- the next SEQ to send, and the oldest one not acknowledged -/
  txNext : Nat := 0
  txAcked : Nat := 0
  /-- the flits not yet acknowledged, oldest first (R433) -/
  retry : List (List Byte) := []
  /-- the next SEQ expected -/
  rxNext : Nat := 0
  /-- a NACK has been sent for rxNext -/
  nacked : Bool := false
  /-- consecutive rounds that resent from txAcked -/
  rounds : Nat := 0
  retired : Bool := false
deriving DecidableEq, Repr

/-- A stream towards a node (R438). -/
structure TxStream where
  sent : Nat := 0
  /-- a write has failed; later releases are held -/
  failed : Bool := false
deriving DecidableEq, Repr

/-- A release held at its target (R438). -/
structure HeldRelease where
  origin : Nat
  fn : Nat
  id : Nat
  raddr : Nat
  op : RemoteOp
  n : Nat
  /-- the plane it came on, which its answer takes (R430) -/
  plane : Nat := 0
deriving DecidableEq, Repr

/-- How a destination stands, as the origin knows it (R443). -/
inductive DestState where
  | open_ | asked | ready | refused (reason : Nat) | lost | acked
deriving DecidableEq, Repr

/-- A destination of an open group: staged stores sent, and how it stands. -/
structure GroupDest where
  count : Nat := 0
  st : DestState := .open_
deriving DecidableEq, Repr

/-- The state of a group (R214). -/
inductive GroupPhase where
  | open_ | preparing | committed | aborted | done
deriving DecidableEq, Repr

/-- A group at its origin (R214, R439, R443). -/
structure Group where
  fn : Nat
  uid : Nat
  phase : GroupPhase := .open_
  dests : Tbl GroupDest := []
  outcome : Nat := 0
  reason : Nat := 0
  node : Option Nat := none
  /-- tg.wait has taken the outcome, or the team has retired -/
  freed : Bool := false
  /-- the team's fabric operations that precede tg.commit (R443) -/
  upto : Nat := 0
  /-- COMMIT or ABORT has been sent -/
  told : Bool := false
deriving DecidableEq, Repr

/-- A record's state at a destination (R441). -/
inductive RecState where
  | staging
  /-- PREPARE has come with this count and waits for its stores -/
  | held (count : Nat) (dests : List Nat)
  | refused (reason : Nat)
  | ready (dests : List Nat)
  /-- ready, and a reset has emptied it (R445) -/
  | readyReset (dests : List Nat)
  | decided (committed : Bool)
  | querying (dests : List Nat) (answers : List Nat) (lost : List Nat)
  | inDoubt
deriving DecidableEq, Repr

/-- A group's record at a destination. -/
structure DestRec where
  gid : GroupId
  st : RecState := .staging
  arrived : Nat := 0
  /-- how many staged stores its PREPARE says it has here, once one has come -/
  total : Option Nat := none
  /-- the staged bytes by guest-physical address, as the latest store of each left them -/
  bytes : List Host.Cell := []
deriving DecidableEq, Repr

/-- A group that a destination discarded while staged stores of it may still come: each of them is discarded too (R426, log entry
123). -/
structure LateStores where
  gid : GroupId
  arrived : Nat
  total : Option Nat
deriving DecidableEq, Repr

/-- The fabric state of the package. -/
structure Fabric where
  fabid : Word64 := 0
  planemap : Word64 := 0
  /-- a map accepted and not yet applied -/
  pendingMap : Option Word64 := none
  links : Tbl Link := []
  stgsize : Nat := 0
  requests : List FabReq := []
  /-- messages that name no line, oldest first -/
  wires : List WireMsg := []
  nextId : Nat := 1
  /-- SENT by fn * 1024 + node -/
  streams : Tbl TxStream := []
  /-- ARRIVED by fn * 1024 + origin -/
  arrived : Tbl Nat := []
  heldReleases : List HeldRelease := []
  lostNodes : List Nat := []
  groups : Tbl Group := []
  nextGroup : Nat := 0
  recs : List DestRec := []
  late : List LateStores := []
  indoubt : List GroupId := []
  /-- groups committed here whose record went with their origin: a QUERY still learns of them (R444) -/
  outcomes : List GroupId := []
deriving DecidableEq, Repr

end Sys2Proof.Machine
end

