-- ==== Sys2Proof/Machine/State/Device.lean ====
section
/-! DEFINITION. Window 0, reliability, boot, attestation and the queues the whole device shares. -/

namespace Sys2Proof.Machine

/-- An entry of the page-request queue (R354, R395). -/
structure PrqEntry where
  gen : Nat := 0
  req : Option PageReq := none
  shared : Bool := false
  /-- its record has been written to its ring -/
  written : Bool := false
  /-- the answer received: granted or refused -/
  answer : Option Bool := none
deriving DecidableEq, Repr

/-- A unit of the device (R409, R410): its kind and number. -/
structure UnitId where
  kind : Nat
  num : Nat
deriving DecidableEq, Repr

/-- A counter page (R404, R405). -/
structure CounterPage where
  major : Nat := 0
  minors : Tbl Nat := []
  /-- re-encryption runs -/
  busy : Bool := false
deriving DecidableEq, Repr

/-- A granule as HBM4 holds it: its four encrypted blocks and its tag (R403). -/
structure StoredGranule where
  blocks : List (BitVec 128)
  tag : BitVec 56
deriving DecidableEq, Repr

/-- One arbiter's buckets and lend pool (R389). -/
structure Arbiter where
  bucket : Tbl Nat := []
  granted : Tbl Nat := []
  /-- lent tokens: the function they are tagged with, periods spent, how many; oldest first -/
  lend : List (Option Nat × Nat × Nat) := []
  /-- the function last granted in each tier -/
  last : Tbl Nat := []
  /-- the rate registers in effect since the last refill (R388) -/
  rate : Tbl Word64 := []
deriving DecidableEq, Repr

/-- The slice of a sliced board (R378): the place in its round, and whether a slice runs. -/
structure Slice where
  pos : Nat := 0
  running : Option Nat := none
  /-- VFA and VFB of the value under which the round began -/
  pair : Option (Nat × Nat) := none
deriving DecidableEq, Repr

/-- An SPDM connection (R421): the version settled, 0 while the versions have only been asked for. -/
structure Spdm where
  version : Option Nat := none
  caps : Bool := false
  algs : Bool := false
deriving DecidableEq, Repr

/-- What a checkpoint has written to the safe tier (R423): memory with its marks and counters, the assignment registers, the
functions with their queues, and the saved crews with what they name. -/
structure Checkpoint where
  retiredCols : Tbl Bool
  retiredGroups : Tbl Bool
  mem : List Host.Cell
  poison : Tbl Bool
  counters : Tbl CounterPage
  parents : Tbl CounterPage
  roots : Tbl Nat
  stored : Tbl StoredGranule
  blockTags : Tbl (BitVec 56)
  brdcfg : Tbl Word64
  sgcfg : Tbl Word64
  slicelen : Word64
  fns : Tbl Fn
  prq : Tbl PrqEntry
  hheld : List Nat
  teams : Tbl Team
  crews : Tbl Crew
  launches : Tbl Launch
  images : List Image
  sets : Tbl TransSet
  /-- what the bytes at CKBASE hold (R423) -/
  image : List Nat
deriving DecidableEq, Repr

/-- Window 0 and the state of the part as a whole. -/
structure Device where
  brdcfg : Tbl Word64 := []
  /-- board values that wait for crews to stop (R373) -/
  brdPending : Tbl Word64 := []
  slices : Tbl Slice := []
  sgcfg : Tbl Word64 := []
  slicelen : Word64 := 2700000
  -- the hypervisor's page-request ring
  hbase : Word64 := 0
  hhead : Word64 := 0
  htail : Word64 := 0
  hheld : List Nat := []
  prq : Tbl PrqEntry := []
  -- reliability
  errcnt : Word64 := 0
  errrec0 : Word64 := 0
  errrec1 : Word64 := 0
  /-- units under test -/
  testing : List UnitId := []
  /-- retired columns, by 4 * core + column; slice groups; -/
  retiredCols : Tbl Bool := []
  retiredGroups : Tbl Bool := []
  poison : Tbl Bool := []
  /-- level-1 blocks by page, levels 2 and 3 by 2 * index + level - 2, the root by level-3 index -/
  counters : Tbl CounterPage := []
  parents : Tbl CounterPage := []
  roots : Tbl Nat := []
  /-- granules as HBM4 stores them, by granule; an unlisted one is as its scrub left it (R403, R404) -/
  stored : Tbl StoredGranule := []
  /-- tags of counter blocks written, by 4 * number + level (R406) -/
  blockTags : Tbl (BitVec 56) := []
  arbiters : Tbl Arbiter := []
  -- boot
  phase : Nat := 0
  fail : Nat := 0
  /-- the firmware that runs, none while it is the one the part was made with; the update that the management port has taken in;
  and the update staged for the next boot (R422) -/
  firmware : Option Firmware := none
  received : Option Firmware := none
  staged : Option Firmware := none
  deviceKey : Nat := 0
  keys : Tbl (List Word64) := []
  tcshare : Nat := 0
  powerCap : Nat := 1800
  -- checkpoint
  ckbase : Word64 := 0
  cklen : Word64 := 0
  ckcmd : Word64 := 0
  ckstat : Word64 := 0
  /-- the checkpoints on the safe tier, by CKBASE -/
  safe : Tbl Checkpoint := []
  doe : Spdm := {}
  mctp : Spdm := {}
  mctpEid : Nat := 0
  /-- the management port's I3C address, once one is assigned (R422) -/
  i3cAddr : Option Nat := none
deriving DecidableEq, Repr

end Sys2Proof.Machine
end

