-- ==== Sys2Proof/Syntax.lean ====
section
/-! DEFINITION. The instructions of Troric and the events of the device: one constructor per row of the opcode table. -/

namespace Sys2Proof

/-- One constructor per row of the opcode table. An instruction carries its guard (none when unguarded), its register
numbers and its literals, with every immediate already brought to 32 bits (R29). After the instructions stand the events
of the device: what an engine, the dispatcher, the firmware, the fabric or the world outside does to it. -/
inductive Instr where
  -- major 0 (R42)
  | nop
  | mov (g : Option Guard) (d : Nat) (a : Nat)
  | movi (g : Option Guard) (d : Nat) (imm : Word)
  | sel (g : Option Guard) (d : Nat) (a : Nat) (b : Nat)
  | laneid (g : Option Guard) (d : Nat)
  | rdsp (g : Option Guard) (d : Nat) (r : SpReg)
  | wrsp (g : Option Guard) (a : Nat) (r : SpReg)
  -- major 1 (R42)
  | addI32 (g : Option Guard) (d : Nat) (a : Nat) (b : Nat)
  | subI32 (g : Option Guard) (d : Nat) (a : Nat) (b : Nat)
  | minI32 (g : Option Guard) (d : Nat) (a : Nat) (b : Nat)
  | minN32 (g : Option Guard) (d : Nat) (a : Nat) (b : Nat)
  | maxI32 (g : Option Guard) (d : Nat) (a : Nat) (b : Nat)
  | maxN32 (g : Option Guard) (d : Nat) (a : Nat) (b : Nat)
  | andB32 (g : Option Guard) (d : Nat) (a : Nat) (b : Nat)
  | orB32 (g : Option Guard) (d : Nat) (a : Nat) (b : Nat)
  | xorB32 (g : Option Guard) (d : Nat) (a : Nat) (b : Nat)
  | andnB32 (g : Option Guard) (d : Nat) (a : Nat) (b : Nat)
  | absI32 (g : Option Guard) (d : Nat) (a : Nat)
  | negI32 (g : Option Guard) (d : Nat) (a : Nat)
  | addsI32 (g : Option Guard) (d : Nat) (a : Nat) (b : Nat)
  | subsI32 (g : Option Guard) (d : Nat) (a : Nat) (b : Nat)
  | addsN32 (g : Option Guard) (d : Nat) (a : Nat) (b : Nat)
  | subsN32 (g : Option Guard) (d : Nat) (a : Nat) (b : Nat)
  -- major 2 (R42)
  | addiI32 (g : Option Guard) (d : Nat) (a : Nat) (imm : Word)
  | andiB32 (g : Option Guard) (d : Nat) (a : Nat) (imm : Word)
  | oriB32 (g : Option Guard) (d : Nat) (a : Nat) (imm : Word)
  | xoriB32 (g : Option Guard) (d : Nat) (a : Nat) (imm : Word)
  | miniI32 (g : Option Guard) (d : Nat) (a : Nat) (imm : Word)
  | maxiI32 (g : Option Guard) (d : Nat) (a : Nat) (imm : Word)
  -- major 3 (R42)
  | shlB32 (g : Option Guard) (d : Nat) (a : Nat) (b : Nat)
  | shrN32 (g : Option Guard) (d : Nat) (a : Nat) (b : Nat)
  | shrI32 (g : Option Guard) (d : Nat) (a : Nat) (b : Nat)
  | shliB32 (g : Option Guard) (d : Nat) (a : Nat) (imm : Word)
  | shriN32 (g : Option Guard) (d : Nat) (a : Nat) (imm : Word)
  | shriI32 (g : Option Guard) (d : Nat) (a : Nat) (imm : Word)
  | bfeN32 (g : Option Guard) (d : Nat) (a : Nat) (b : Nat)
  | bfeI32 (g : Option Guard) (d : Nat) (a : Nat) (b : Nat)
  | bfiB32 (g : Option Guard) (d : Nat) (a : Nat) (b : Nat)
  | popcB32 (g : Option Guard) (d : Nat) (a : Nat)
  | clzB32 (g : Option Guard) (d : Nat) (a : Nat)
  | brevB32 (g : Option Guard) (d : Nat) (a : Nat)
  | prmtB32 (g : Option Guard) (d : Nat) (a : Nat) (b : Nat)
  -- major 4 (R42)
  | mulI32 (g : Option Guard) (d : Nat) (a : Nat) (b : Nat)
  | mulhiI32 (g : Option Guard) (d : Nat) (a : Nat) (b : Nat)
  | mulhiN32 (g : Option Guard) (d : Nat) (a : Nat) (b : Nat)
  | madI32 (g : Option Guard) (d : Nat) (a : Nat) (b : Nat)
  | divI32 (g : Option Guard) (d : Nat) (a : Nat) (b : Nat)
  | divN32 (g : Option Guard) (d : Nat) (a : Nat) (b : Nat)
  | remI32 (g : Option Guard) (d : Nat) (a : Nat) (b : Nat)
  | remN32 (g : Option Guard) (d : Nat) (a : Nat) (b : Nat)
  -- major 5 (R43)
  | fadd (g : Option Guard) (d : Nat) (a : Nat) (b : Nat)
  | fsub (g : Option Guard) (d : Nat) (a : Nat) (b : Nat)
  | fmul (g : Option Guard) (d : Nat) (a : Nat) (b : Nat)
  | ffma (g : Option Guard) (d : Nat) (a : Nat) (b : Nat)
  | fmin (g : Option Guard) (d : Nat) (a : Nat) (b : Nat)
  | fmax (g : Option Guard) (d : Nat) (a : Nat) (b : Nat)
  | fabs (g : Option Guard) (d : Nat) (a : Nat)
  | fneg (g : Option Guard) (d : Nat) (a : Nat)
  -- major 6 (R43)
  | fdiv (g : Option Guard) (d : Nat) (a : Nat) (b : Nat)
  | fsqrt (g : Option Guard) (d : Nat) (a : Nat)
  | frcp (g : Option Guard) (d : Nat) (a : Nat)
  | frsq (g : Option Guard) (d : Nat) (a : Nat)
  | fexp2 (g : Option Guard) (d : Nat) (a : Nat)
  | flog2 (g : Option Guard) (d : Nat) (a : Nat)
  | fsin (g : Option Guard) (d : Nat) (a : Nat)
  | fcos (g : Option Guard) (d : Nat) (a : Nat)
  | ftanh (g : Option Guard) (d : Nat) (a : Nat)
  | frnd (g : Option Guard) (d : Nat) (a : Nat) (rnd : Rnd)
  -- major 7 (R43)
  | haddF16 (g : Option Guard) (d : Nat) (a : Nat) (b : Nat)
  | hmulF16 (g : Option Guard) (d : Nat) (a : Nat) (b : Nat)
  | hfmaF16 (g : Option Guard) (d : Nat) (a : Nat) (b : Nat)
  | hminF16 (g : Option Guard) (d : Nat) (a : Nat) (b : Nat)
  | hmaxF16 (g : Option Guard) (d : Nat) (a : Nat) (b : Nat)
  | haddBf16 (g : Option Guard) (d : Nat) (a : Nat) (b : Nat)
  | hmulBf16 (g : Option Guard) (d : Nat) (a : Nat) (b : Nat)
  | hfmaBf16 (g : Option Guard) (d : Nat) (a : Nat) (b : Nat)
  -- major 8 (R43)
  | cmpEqI32 (g : Option Guard) (d : Nat) (a : Nat) (b : Nat)
  | cmpNeI32 (g : Option Guard) (d : Nat) (a : Nat) (b : Nat)
  | cmpLtI32 (g : Option Guard) (d : Nat) (a : Nat) (b : Nat)
  | cmpLeI32 (g : Option Guard) (d : Nat) (a : Nat) (b : Nat)
  | cmpGtI32 (g : Option Guard) (d : Nat) (a : Nat) (b : Nat)
  | cmpGeI32 (g : Option Guard) (d : Nat) (a : Nat) (b : Nat)
  | cmpLtN32 (g : Option Guard) (d : Nat) (a : Nat) (b : Nat)
  | cmpLeN32 (g : Option Guard) (d : Nat) (a : Nat) (b : Nat)
  | cmpGtN32 (g : Option Guard) (d : Nat) (a : Nat) (b : Nat)
  | cmpGeN32 (g : Option Guard) (d : Nat) (a : Nat) (b : Nat)
  -- major 9 (R43)
  | fcmpEq (g : Option Guard) (d : Nat) (a : Nat) (b : Nat)
  | fcmpNe (g : Option Guard) (d : Nat) (a : Nat) (b : Nat)
  | fcmpLt (g : Option Guard) (d : Nat) (a : Nat) (b : Nat)
  | fcmpLe (g : Option Guard) (d : Nat) (a : Nat) (b : Nat)
  | fcmpGt (g : Option Guard) (d : Nat) (a : Nat) (b : Nat)
  | fcmpGe (g : Option Guard) (d : Nat) (a : Nat) (b : Nat)
  | fcmpUn (g : Option Guard) (d : Nat) (a : Nat) (b : Nat)
  | fcmpOr (g : Option Guard) (d : Nat) (a : Nat) (b : Nat)
  -- major 10 (R44)
  | pand (g : Option Guard) (d : Nat) (a : Nat) (b : Nat)
  | por (g : Option Guard) (d : Nat) (a : Nat) (b : Nat)
  | pxor (g : Option Guard) (d : Nat) (a : Nat) (b : Nat)
  | pandn (g : Option Guard) (d : Nat) (a : Nat) (b : Nat)
  | pnot (g : Option Guard) (d : Nat) (a : Nat)
  | pmov (g : Option Guard) (d : Nat) (a : Nat)
  | pset (g : Option Guard) (d : Nat) (val : Bool)
  | voteAny (g : Option Guard) (d : Nat) (a : Nat)
  | voteAll (g : Option Guard) (d : Nat) (a : Nat)
  | ballot (g : Option Guard) (d : Nat) (a : Nat) (group : Nat)
  | pcnt (g : Option Guard) (d : Nat) (a : Nat)
  -- major 11 (R44)
  | addI64 (g : Option Guard) (d : Nat) (a : Nat) (b : Nat)
  | subI64 (g : Option Guard) (d : Nat) (a : Nat) (b : Nat)
  | mulI64 (g : Option Guard) (d : Nat) (a : Nat) (b : Nat)
  | shlB64 (g : Option Guard) (d : Nat) (a : Nat) (b : Nat)
  | shrN64 (g : Option Guard) (d : Nat) (a : Nat) (b : Nat)
  | shrI64 (g : Option Guard) (d : Nat) (a : Nat) (b : Nat)
  | andB64 (g : Option Guard) (d : Nat) (a : Nat) (b : Nat)
  | orB64 (g : Option Guard) (d : Nat) (a : Nat) (b : Nat)
  | xorB64 (g : Option Guard) (d : Nat) (a : Nat) (b : Nat)
  | cmpEqI64 (g : Option Guard) (d : Nat) (a : Nat) (b : Nat)
  | cmpLtI64 (g : Option Guard) (d : Nat) (a : Nat) (b : Nat)
  | cmpLtN64 (g : Option Guard) (d : Nat) (a : Nat) (b : Nat)
  | sxtI64 (g : Option Guard) (d : Nat) (a : Nat)
  | zxtN64 (g : Option Guard) (d : Nat) (a : Nat)
  | truncB32 (g : Option Guard) (d : Nat) (a : Nat)
  -- major 12 (R44)
  | sadd (g : Option Guard) (d : Nat) (a : Nat) (b : Nat)
  | ssub (g : Option Guard) (d : Nat) (a : Nat) (b : Nat)
  | smul (g : Option Guard) (d : Nat) (a : Nat) (b : Nat)
  | sand (g : Option Guard) (d : Nat) (a : Nat) (b : Nat)
  | sor (g : Option Guard) (d : Nat) (a : Nat) (b : Nat)
  | sxor (g : Option Guard) (d : Nat) (a : Nat) (b : Nat)
  | sshl (g : Option Guard) (d : Nat) (a : Nat) (b : Nat)
  | sshr (g : Option Guard) (d : Nat) (a : Nat) (b : Nat)
  | sminI32 (g : Option Guard) (d : Nat) (a : Nat) (b : Nat)
  | smaxI32 (g : Option Guard) (d : Nat) (a : Nat) (b : Nat)
  | scmpEq (g : Option Guard) (d : Nat) (a : Nat) (b : Nat)
  | scmpLt (g : Option Guard) (d : Nat) (a : Nat) (b : Nat)
  | xadd (g : Option Guard) (d : Nat) (a : Nat) (b : Nat)
  | xsub (g : Option Guard) (d : Nat) (a : Nat) (b : Nat)
  | xshl (g : Option Guard) (d : Nat) (a : Nat) (b : Nat)
  | xcmpLt (g : Option Guard) (d : Nat) (a : Nat) (b : Nat)
  -- major 13 (R44)
  | smovi (g : Option Guard) (d : Nat) (imm : Word)
  | xmovi (g : Option Guard) (d : Nat) (imm : Word)
  | xmovhi (g : Option Guard) (d : Nat) (imm : Word)
  | s2v (g : Option Guard) (d : Nat) (a : Nat)
  | v2s (g : Option Guard) (d : Nat) (a : Nat)
  | x2w (g : Option Guard) (d : Nat) (a : Nat)
  | w2x (g : Option Guard) (d : Nat) (a : Nat)
  -- major 14 (R44)
  | cvtF32I32 (g : Option Guard) (d : Nat) (a : Nat) (rnd : Rnd)
  | cvtI32F32 (g : Option Guard) (d : Nat) (a : Nat) (rnd : Rnd)
  | cvtF32N32 (g : Option Guard) (d : Nat) (a : Nat) (rnd : Rnd)
  | cvtN32F32 (g : Option Guard) (d : Nat) (a : Nat) (rnd : Rnd)
  | cvtF16F32 (g : Option Guard) (d : Nat) (a : Nat) (rnd : Rnd)
  | cvtBf16F32 (g : Option Guard) (d : Nat) (a : Nat) (rnd : Rnd)
  | cvtF8aF32 (g : Option Guard) (d : Nat) (a : Nat) (rnd : Rnd)
  | cvtF8bF32 (g : Option Guard) (d : Nat) (a : Nat) (rnd : Rnd)
  | pip4Pack (g : Option Guard) (d : Nat) (a : Nat) (rnd : Rnd)
  | cvtF32F16 (g : Option Guard) (d : Nat) (a : Nat)
  | cvtF32Bf16 (g : Option Guard) (d : Nat) (a : Nat)
  | cvtF32F8a (g : Option Guard) (d : Nat) (a : Nat)
  | cvtF32F8b (g : Option Guard) (d : Nat) (a : Nat)
  | pip4Unpack (g : Option Guard) (d : Nat) (a : Nat)
  | scaleBlk (g : Option Guard) (d : Nat) (a : Nat) (b : Nat)
  -- major 15 (R45)
  | shflIdx (g : Option Guard) (d : Nat) (a : Nat) (team : Bool)
  | shflUp (g : Option Guard) (d : Nat) (a : Nat) (team : Bool) (k : Nat)
  | shflDn (g : Option Guard) (d : Nat) (a : Nat) (team : Bool) (k : Nat)
  | shflXor (g : Option Guard) (d : Nat) (a : Nat) (team : Bool) (k : Nat)
  | redAddI32 (g : Option Guard) (d : Nat) (a : Nat) (team : Bool)
  | redMinI32 (g : Option Guard) (d : Nat) (a : Nat) (team : Bool)
  | redMinN32 (g : Option Guard) (d : Nat) (a : Nat) (team : Bool)
  | redMaxI32 (g : Option Guard) (d : Nat) (a : Nat) (team : Bool)
  | redFadd (g : Option Guard) (d : Nat) (a : Nat) (team : Bool)
  | scanAddI32 (g : Option Guard) (d : Nat) (a : Nat) (team : Bool)
  | bcastL (g : Option Guard) (d : Nat) (a : Nat) (team : Bool) (k : Nat)
  -- major 16 (R46)
  | ldB8 (g : Option Guard) (t : Nat) (xb : Nat) (vo : Nat) (disp : Word)
  | ldB16 (g : Option Guard) (t : Nat) (xb : Nat) (vo : Nat) (disp : Word)
  | ldB32 (g : Option Guard) (t : Nat) (xb : Nat) (vo : Nat) (disp : Word)
  | ldB64 (g : Option Guard) (t : Nat) (xb : Nat) (vo : Nat) (disp : Word)
  | ldB128 (g : Option Guard) (t : Nat) (xb : Nat) (vo : Nat) (disp : Word)
  | ldsB32 (g : Option Guard) (t : Nat) (xb : Nat) (disp : Word)
  | ldsB64 (g : Option Guard) (t : Nat) (xb : Nat) (disp : Word)
  | probe (g : Option Guard) (t : Nat) (xb : Nat) (vo : Nat) (disp : Word)
  -- major 17 (R46)
  | stB8 (g : Option Guard) (t : Nat) (xb : Nat) (vo : Nat) (disp : Word)
  | stB16 (g : Option Guard) (t : Nat) (xb : Nat) (vo : Nat) (disp : Word)
  | stB32 (g : Option Guard) (t : Nat) (xb : Nat) (vo : Nat) (disp : Word)
  | stB64 (g : Option Guard) (t : Nat) (xb : Nat) (vo : Nat) (disp : Word)
  | stB128 (g : Option Guard) (t : Nat) (xb : Nat) (vo : Nat) (disp : Word)
  | stsB32 (g : Option Guard) (t : Nat) (xb : Nat) (disp : Word)
  | stsB64 (g : Option Guard) (t : Nat) (xb : Nat) (disp : Word)
  -- major 18 (R47)
  | atomAddI32 (t : Nat) (xb : Nat) (vo : Nat) (order : Order) (scope : Scope) (sc : Bool) (nr : Bool)
  | atomAddF32 (t : Nat) (xb : Nat) (vo : Nat) (order : Order) (scope : Scope) (sc : Bool) (nr : Bool)
  | atomMinI32 (t : Nat) (xb : Nat) (vo : Nat) (order : Order) (scope : Scope) (sc : Bool) (nr : Bool)
  | atomMinN32 (t : Nat) (xb : Nat) (vo : Nat) (order : Order) (scope : Scope) (sc : Bool) (nr : Bool)
  | atomMaxI32 (t : Nat) (xb : Nat) (vo : Nat) (order : Order) (scope : Scope) (sc : Bool) (nr : Bool)
  | atomMaxN32 (t : Nat) (xb : Nat) (vo : Nat) (order : Order) (scope : Scope) (sc : Bool) (nr : Bool)
  | atomAnd (t : Nat) (xb : Nat) (vo : Nat) (order : Order) (scope : Scope) (sc : Bool) (nr : Bool)
  | atomOr (t : Nat) (xb : Nat) (vo : Nat) (order : Order) (scope : Scope) (sc : Bool) (nr : Bool)
  | atomXor (t : Nat) (xb : Nat) (vo : Nat) (order : Order) (scope : Scope) (sc : Bool) (nr : Bool)
  | atomXchg (t : Nat) (xb : Nat) (vo : Nat) (order : Order) (scope : Scope) (sc : Bool) (nr : Bool)
  | atomCas (t : Nat) (xb : Nat) (vo : Nat) (order : Order) (scope : Scope) (sc : Bool) (nr : Bool)
  | atomAddI64 (t : Nat) (xb : Nat) (vo : Nat) (order : Order) (scope : Scope) (sc : Bool) (nr : Bool)
  | atomCasI64 (t : Nat) (xb : Nat) (vo : Nat) (order : Order) (scope : Scope) (sc : Bool) (nr : Bool)
  | ldAcq (t : Nat) (xb : Nat) (vo : Nat) (order : Order) (scope : Scope) (sc : Bool) (nr : Bool)
  | stRel (t : Nat) (xb : Nat) (vo : Nat) (order : Order) (scope : Scope) (sc : Bool) (nr : Bool)
  | atomIncN32 (t : Nat) (xb : Nat) (vo : Nat) (order : Order) (scope : Scope) (sc : Bool) (nr : Bool)
  -- major 19 (R49)
  | fence (g : Option Guard) (scope : Scope) (order : Order) (sc : Bool)
  | barArrive (g : Option Guard) (a : Nat) (b : Nat)
  | barWait (g : Option Guard) (a : Nat)
  | barSync (g : Option Guard) (a : Nat) (b : Nat)
  | mon (g : Option Guard) (a : Nat)
  | mwait (g : Option Guard)
  | waitc (g : Option Guard) (cls : WaitClass) (n : Nat)
  | waitb (g : Option Guard) (a : Nat)
  | yield (g : Option Guard)
  | nflagMerge (g : Option Guard) (a : Nat)
  -- major 20 (R50)
  | cpG2s (g : Option Guard) (a : Nat)
  | cpS2g (g : Option Guard) (a : Nat)
  | cpG2g (g : Option Guard) (a : Nat)
  | cpTile (g : Option Guard) (a : Nat)
  | cpRed (g : Option Guard) (a : Nat)
  | cpGather (g : Option Guard) (a : Nat) (b : Nat)
  | cpClose (g : Option Guard) (d : Nat)
  | cpStamp (g : Option Guard) (a : Nat) (scope : Scope)
  -- major 21 (R50)
  | trkOpen (g : Option Guard) (d : Nat) (a : Nat) (b : Nat)
  | trkWfill (g : Option Guard) (a : Nat) (b : Nat)
  | trkWfree (g : Option Guard) (a : Nat) (b : Nat)
  | trkAdvP (g : Option Guard) (a : Nat) (b : Nat)
  | trkAdvC (g : Option Guard) (a : Nat) (b : Nat)
  | trkClose (g : Option Guard) (a : Nat)
  | trkState (g : Option Guard) (d : Nat) (a : Nat)
  -- major 22 (R50)
  | obRsv (g : Option Guard) (d : Nat) (a : Nat)
  | obRel (g : Option Guard) (a : Nat)
  | obFill (g : Option Guard) (a : Nat) (b : Nat)
  | obInfo (g : Option Guard) (d : Nat) (a : Nat)
  -- major 23 (R50)
  | unfCfg (g : Option Guard) (a : Nat)
  | mma (g : Option Guard) (d : Nat) (a : Nat) (b : Nat)
  | mmaZ (g : Option Guard) (d : Nat) (a : Nat) (b : Nat)
  | accAlloc (g : Option Guard) (d : Nat) (a : Nat)
  | accFree (g : Option Guard) (a : Nat)
  -- major 24 (R50)
  | accRd (g : Option Guard) (d : Nat) (a : Nat) (b : Nat)
  | accWr (g : Option Guard) (d : Nat) (a : Nat) (b : Nat)
  | accZero (g : Option Guard) (a : Nat)
  | accSt (g : Option Guard) (d : Nat) (a : Nat) (b : Nat)
  | accPatch (g : Option Guard) (d : Nat) (a : Nat) (b : Nat)
  | accFlags (g : Option Guard) (d : Nat) (a : Nat)
  -- major 25 (R51)
  | bra (c : Guard) (off : BitVec 19)
  | bru (c : Guard) (off : BitVec 19)
  | dvg (c : Guard) (off : BitVec 19)
  | cnv
  | brk (c : Guard)
  | call (c : Guard) (off : BitVec 19)
  | extRet
  | extExit
  | extCalli (a : Nat)
  | extJmpi (a : Nat)
  -- major 26 (R52)
  | ovld (g : Option Guard) (d : Nat) (a : Nat) (bank : Bank)
  | ovwait (g : Option Guard) (d : Nat) (a : Nat)
  | ifence (g : Option Guard)
  | bswap (g : Option Guard) (a : Nat)
  | calt (g : Option Guard) (a : Nat) (b : Nat)
  | ovrel (g : Option Guard) (a : Nat)
  -- major 27 (R52)
  | lch (g : Option Guard) (d : Nat) (a : Nat)
  | cjoin (g : Option Guard) (a : Nat)
  | lstat (g : Option Guard) (d : Nat) (a : Nat)
  -- major 28 (R53)
  | tgOpen (g : Option Guard) (h : Nat)
  | tstB32 (g : Option Guard) (t : Nat) (xb : Nat) (vo : Nat) (h : Nat)
  | tstB64 (g : Option Guard) (t : Nat) (xb : Nat) (vo : Nat) (h : Nat)
  | tstB128 (g : Option Guard) (t : Nat) (xb : Nat) (vo : Nat) (h : Nat)
  | tgCommit (g : Option Guard) (h : Nat)
  | tgAbort (g : Option Guard) (h : Nat)
  | tgWait (g : Option Guard) (t : Nat) (h : Nat)
  -- major 29 (R52)
  | trap (g : Option Guard) (imm : Word)
  | tret
  | brkpt (g : Option Guard) (imm : Word)
  | mark (g : Option Guard) (imm : Word)
  | wptSet (g : Option Guard) (a : Nat) (b : Nat)
  | wptClr (g : Option Guard) (a : Nat)
  | perfRd (g : Option Guard) (d : Nat) (a : Nat)
  | cfgRd (g : Option Guard) (d : Nat) (a : Nat)
  | cfgWr (g : Option Guard) (a : Nat) (b : Nat)
  | halt
  -- events
  | illegalEncoding (slot : Nat) (reason : Nat)  -- R37
  | deliveryLoadDone (core : Nat) (sub : Nat) (half : Bank) (ok : Bool)  -- R344
  | parkWake (uid : Nat)  -- R236
  | trkAdvanceApply (uid : Nat) (slot : Nat)  -- R184
  | mmaComplete (uid : Nat) (seq : Nat)  -- R193
  | accStComplete (uid : Nat) (seq : Nat)  -- R197
  | batchComplete (uid : Nat) (op : Option Nat)  -- R181
  | gatherComplete (uid : Nat) (id : Nat)  -- R180
  | stampWrite (uid : Nat)  -- R182
  | cpredSegmentApply (uid : Nat) (id : Nat) (k : Nat)  -- R287
  | copyAbandon (uid : Nat) (id : Nat) (elem : Nat) (part : Nat × Nat)  -- R285
  | engineWatchSuspend (uid : Nat) (kind : Nat) (id : Nat)  -- R336
  | teamRetire (uid : Nat)  -- R204
  | quantumExpiry (core : Nat) (sub : Nat)  -- R262
  | preemptRequest (crew : Nat) (why : Nat)  -- R237
  | crewSaveDone (crew : Nat)  -- R237
  | crewRestore (crew : Nat) (subs : List (Nat × Nat))  -- R448
  | launchWindowWrite (fn : Nat) (offset : Nat) (bytes : List Byte)  -- R247
  | launchReady (launch : Nat)  -- R251
  | crewPlace (launch : Nat) (core : Nat) (sub : Nat)  -- R256
  | tablePlace (launch : Nat) (board : Nat) (subs : List (Nat × Nat))  -- R257
  | entryFillDone (core : Nat) (sub : Nat) (ok : Bool)  -- R260
  | launchComplete (launch : Nat)  -- R255
  | overlayLoadStart (core : Nat) (sub : Nat) (half : Bank)  -- R205
  | overlayLoadDone (core : Nat) (sub : Nat) (half : Bank) (ok : Bool)  -- R206
  | forcedReclaim (core : Nat) (sub : Nat) (half : Bank)  -- R210
  | translationDone (work : Translated)  -- R326
  | reoptSetComplete (fn : Nat) (work : Translated)  -- R327
  | regionRollback (uid : Nat) (kind : Nat)  -- R332
  | prqEntryGrant  -- R395
  | prresp (fn : Nat) (hyper : Bool) (value : Word64)  -- R356
  | probeReplay (uid : Nat)  -- R356
  | prqhead (fn : Nat) (hyper : Bool) (value : Word64)  -- R355
  | prqbase (fn : Nat) (hyper : Bool) (value : Word64)  -- R355
  | inval (fn : Nat) (value : Word64)  -- R351
  | flog0 (fn : Nat) (value : Word64)  -- R348
  | trhead (fn : Nat) (value : Word64)  -- R365
  | brdcfg (board : Nat) (value : Word64)  -- R373
  | sgcfg (group : Nat) (value : Word64)  -- R374
  | s2base (fn : Nat) (value : Word64)  -- R374
  | s2bound (fn : Nat) (value : Word64)  -- R374
  | quota (fn : Nat) (value : Word64)  -- R374
  | vfEnable (fn : Nat)  -- R377
  | vfScrubDone (fn : Nat)  -- R377
  | vfReset (fn : Nat)  -- R399
  | vfResetDone (fn : Nat)  -- R399
  | vfFlr (fn : Nat)  -- R420
  | sliceExpiry (board : Nat)  -- R378
  | sliceStart (board : Nat)  -- R398
  | rate (fn : Nat) (arb : Nat) (value : Word64)  -- R388
  | bucketRefill (arb : Nat) (inst : Nat)  -- R389
  | imgLoad (fn : Nat)  -- R416
  | imgLoadDone (load : Nat × Nat)  -- R416
  | imgUnload (fn : Nat) (image : Nat)  -- R417
  | imgUnloadDone (fn : Nat)  -- R417
  | keySlotWrite (slot : Nat) (first : Word64) (rest : List Word64)  -- R418
  | powerOn  -- R419
  | bootPhaseAdvance (fail : Nat)  -- R419
  | devrst (value : Word64)  -- R420
  | pcieReset  -- R420
  | getVersion (transport : Nat)  -- R421
  | getCapabilities (transport : Nat) (version : Nat)  -- R421
  | negotiateAlgorithms (transport : Nat)  -- R421
  | getDigests (transport : Nat)  -- R421
  | getCertificate (transport : Nat) (slot : Nat)  -- R421
  | challenge (transport : Nat) (nonce : Nat)  -- R421
  | getMeasurements (transport : Nat) (index : Nat) (nonce : Nat)  -- R421
  | spdmUnsupportedRequest (transport : Nat)  -- R421
  | mctpControl (command : Nat) (arg : Nat)  -- R422
  | pldmMonitoring (sensor : Nat) (cap : Option Nat)  -- R422
  | pldmFirmwareUpdate  -- R422
  | vendorResetMessage  -- R422
  | ckptSave  -- R423
  | ckptRestore  -- R423
  | ckptDone (err : Nat)  -- R423
  | errorDetect (unit : Nat) (num : Nat) (cls : ErrClass) (place : ErrPlace)  -- R407
  | selfTestDone (unit : Nat) (num : Nat) (lasting : Bool) (share : Option Nat)  -- R409
  | errcnt (value : Word64)  -- R410
  | l2Writeback (granule : Nat)  -- R404
  | reencryptDone (level : Nat) (num : Nat)  -- R405
  | fabid (value : Word64)  -- R429
  | planemap (value : Word64)  -- R431
  | planemapApply  -- R431
  | linkEnable (link : Nat) (value : Word64)  -- R429
  | linkUp (link : Nat) (nodes : List Nat)  -- R434
  | linkDown (link : Nat)  -- R434
  | flitReceive (link : Nat) (flit : List Byte) (room : Bool)  -- R433
  | nackReceive (link : Nat) (seq : Nat)  -- R433
  | planeWaitTimeout (id : Nat)  -- R432
  | fabricRequestReceive (port : Nat × Nat) (fn : Nat) (id : Nat) (raddr : Nat) (op : RemoteOp) (release : Option Nat)  -- R435
  | fabricResponseReceive (id : Nat) (answer : RemoteAnswer)  -- R435
  | fabricReleasePerform (node : Nat) (id : Nat)  -- R438
  | releaseCountTimeout (node : Nat) (id : Nat)  -- R438
  | streamReset (fn : Nat) (node : Nat) (base : Nat)  -- R438
  | stgq (fn : Nat) (value : Word64)  -- R440
  | stagedStoreReceive (gid : GroupId) (src : Nat) (raddr : Nat) (data : List Byte)  -- R426
  | prepare (gid : GroupId) (src : Nat) (count : Nat) (dests : List Nat)  -- R441
  | ready (gid : GroupId) (src : Nat)  -- R443
  | refuse (gid : GroupId) (src : Nat) (reason : Nat)  -- R443
  | commit (gid : GroupId)  -- R442
  | abort (gid : GroupId)  -- R441
  | acknowledge (gid : GroupId) (src : Nat) (reset : Bool)  -- R443
  | forget (gid : GroupId)  -- R441
  | query (gid : GroupId) (src : Nat)  -- R444
  | queryAnswer (gid : GroupId) (src : Nat) (committed : Bool)  -- R444
  | tgresolve (value : Word64)  -- R444
  | nodeLost (node : Nat)  -- R447
  | peerFetchRequest (node : Nat) (fn : Nat) (imgid : Nat) (split : Nat) (xver : Nat) (domain : Nat)  -- R335
  | peerFetchReceive (fn : Nat) (node : Nat) (imgid : Nat) (split : Nat) (xver : Nat) (domain : Nat) (sent : PeerSent)  -- R335
  | configRegisterWrite (a : CfgAccess) (value : Word64)  -- R375
  | peerFetchTimeout (set : Nat)  -- R335
deriving DecidableEq, Repr

end Sys2Proof
end

