-- ==== Sys2Proof/Machine/State.lean ====
section
/-! DEFINITION. The whole state of one XH96 package, its state after reset, and the ways a step can stop. -/

namespace Sys2Proof.Machine

/-- What the package sends to the world outside it. -/
inductive OutMsg where
  /-- an MSI-X message of a function's vector (R414) -/
  | msix (fn vector : Nat)
  /-- a fabric request, on the link it names (R430) -/
  | request (r : FabReq)
  /-- an answer, or a message that names no line, on the link it took (R430, R435, R438, R335, R446) -/
  | wire (link : Nat) (w : Wire)
  /-- a flit on a link (R433) -/
  | flit (link : Nat) (bytes : List Byte)
  /-- the fabric link is closed (R420) -/
  | linkClosed (link : Nat)
  /-- an SPDM response on a transport (R421): its code, and what it carries -/
  | spdm (transport code : Nat) (body : List Nat)
  | mctp (code : Nat) (body : List Nat)
  /-- what a host read of a BAR delivers (R413) -/
  | barData (fn bar offset : Nat) (value : Word64)
  /-- what a host load of its own memory delivers (R305) -/
  | hostData (addr : Nat) (bytes : List Byte)
deriving DecidableEq, Repr

/-- What the host and the engines do beside the events of the opcode table. -/
inductive WorldAct where
  /-- the host reads `size` bytes of a BAR (R413) -/
  | barRead (fn bar offset size : Nat)
  /-- the host writes a BAR -/
  | barWrite (fn bar offset : Nat) (bytes : List Byte)
  /-- the host stores to its memory, or loads from it (R301, R305) -/
  | store (addr : Nat) (bytes : List Byte)
  | load (addr n : Nat)
  /-- the host masks or unmasks an MSI-X vector (R414) -/
  | maskVector (fn vector : Nat) (on : Bool)
  /-- the I3C controller gives the management port its address (R422) -/
  | assignAddress (addr : Nat)
  /-- the management port takes in a firmware update's package (R422) -/
  | takeFirmware (update : Firmware)
  /-- other agents act before a lane of the access that a team performs next (R153) -/
  | breakBefore (uid lane : Nat)
  /-- an engine operation reads sources that have changed since its issue, or leaves them for later (R312) -/
  | engineRead (uid : Nat) (op : EngRef)
deriving DecidableEq, Repr

/-- What happens next: a sub-core issues a slot, an event comes, or a group message reaches the package that sent it. -/
inductive Act where
  | issue (core sub : Nat)
  | event (i : Instr)
  | message (m : GroupMsg)
  | world (a : WorldAct)
deriving DecidableEq, Repr

/-- The state of the package (R2): everything the specification gives the machine, and the model's own fields
`agenda`, `self`, `focus`, `fresh`, `uids` and `outbox`. -/
structure State where
  /-- what the world and the schedule bring, in order; when it is empty, `focus` issues -/
  agenda : List Act := []
  /-- the team whose slot is being performed -/
  self : Option Nat := none
  /-- the core and sub-core that issue next -/
  focus : Nat × Nat := (0, 0)
  /-- how many free values have been taken -/
  fresh : Nat := 0
  /-- the next number of a crew, launch, set or operation -/
  uids : Nat := 1
  /-- teams by 4 * crew number + index -/
  teams : Tbl Team := []
  crews : Tbl Crew := []
  launches : Tbl Launch := []
  images : List Image := []
  sets : Tbl TransSet := []
  /-- sub-cores by 4 * core + sub-core -/
  subs : Tbl SubCore := []
  /-- cycle counts of cores -/
  cycles : Tbl Word64 := []
  fns : Tbl Fn := []
  dev : Device := {}
  fab : Fabric := {}
  /-- device memory by 2^35 * slice group + offset -/
  mem : List Host.Cell := []
  /-- host memory by bus address -/
  host : List Host.Cell := []
  outbox : List OutMsg := []
deriving DecidableEq, Repr

/-- The ways in which a step stops with a fault. -/
inductive Fault where
  /-- an instruction was given to `exec` while no team holds issue: raised by the meaning of every instruction that a team
  performs, never by an instruction that a sub-core issues; safe -/
  | noTeam
deriving DecidableEq, Repr

/-- The ways in which a step is refused. -/
inductive Refusal where
  /-- the model gives the instruction no meaning yet: raised by its arm of `exec`; safe -/
  | notModelled (mnemonic : String)
deriving DecidableEq, Repr

/-- The package right after power-on (R419): phase 0, nothing loaded, every register at its reset value. -/
def State.reset : State := {}

/-- What a step answers. -/
abbrev Out := Host.Outcome State Fault Refusal

end Sys2Proof.Machine
end

