-- ==== Sys2Proof/Machine/Ops.lean ====
section
/-! DEFINITION. The named operations over the state: teams, crews, functions, free values, address spaces, memory. -/

namespace Sys2Proof.Machine

/-! ### Free values -/

/-- Take a free number (log entry 1). -/
def State.takeNat (s : State) : Nat × State := (Config.freeNat s.fresh, { s with fresh := s.fresh + 1 })
/-- Take a free choice. -/
def State.takeBool (s : State) : Bool × State := (Config.freeBool s.fresh, { s with fresh := s.fresh + 1 })
/-- Take a free word. -/
def State.takeWord (s : State) : Word × State := (Config.freeWord s.fresh, { s with fresh := s.fresh + 1 })
/-- Take a free 64-bit value. -/
def State.takeWord64 (s : State) : Word64 × State := (Config.freeWord64 s.fresh, { s with fresh := s.fresh + 1 })

/-- Choose one element of a list freely. -/
def State.pick {α : Type} (s : State) (l : List α) : Option α × State :=
  (l[Config.freeNat s.fresh % l.length]?, { s with fresh := s.fresh + 1 })

/-- Take a number that no crew, launch, set or operation has had. -/
def State.newUid (s : State) : Nat × State := (s.uids, { s with uids := s.uids + 1 })

/-! ### Teams, crews, functions -/

/-- Replace a team. -/
def State.putTeam (s : State) (uid : Nat) (t : Team) : State := { s with teams := s.teams.insert uid t }
/-- Change a team, if it lives. -/
def State.modTeam (s : State) (uid : Nat) (f : Team → Team) : State := { s with teams := s.teams.modify uid f }
/-- Change a crew, if it lives. -/
def State.modCrew (s : State) (c : Nat) (f : Crew → Crew) : State := { s with crews := s.crews.modify c f }
/-- Change a launch, if it holds an entry. -/
def State.modLaunch (s : State) (l : Nat) (f : Launch → Launch) : State := { s with launches := s.launches.modify l f }
/-- The registers of a function. -/
def State.fn (s : State) (v : Nat) : Fn := s.fns.get (Fn.init v) v
/-- Change the registers of a function. -/
def State.modFn (s : State) (v : Nat) (f : Fn → Fn) : State := { s with fns := s.fns.insert v (f (s.fn v)) }
/-- The sub-core's number. -/
def subKey (p : Nat × Nat) : Nat := 4 * p.1 + p.2
/-- A sub-core. -/
def State.sub (s : State) (p : Nat × Nat) : SubCore := s.subs.get {} (subKey p)
/-- Change a sub-core. -/
def State.modSub (s : State) (p : Nat × Nat) (f : SubCore → SubCore) : State :=
  { s with subs := s.subs.insert (subKey p) (f (s.sub p)) }
/-- Send a message out of the package. -/
def State.emit (s : State) (m : OutMsg) : State := { s with outbox := s.outbox ++ [m] }
/-- Bring a thing about after everything already due. -/
def State.later (s : State) (a : Act) : State := { s with agenda := s.agenda ++ [a] }

/-- The firmware that runs (R419, R422). -/
def State.running (s : State) : Firmware := s.dev.firmware.getD Config.factory
/-- XVER, the translator version of the running firmware (R323). -/
def State.xver (s : State) : Nat := Config.xverOf s.running.image

/-- The function of a team. -/
def State.fnOf (s : State) (t : Team) : Nat := ((s.crews.find? t.crew).map Crew.fn).getD 0
/-- The launch of a team. -/
def State.launchOf (s : State) (t : Team) : Option Launch := (s.crews.find? t.crew).bind fun c => s.launches.find? c.launch
/-- The sub-core of a team's crew while placed. -/
def State.placeOf (s : State) (t : Team) : Option (Nat × Nat) := (s.crews.find? t.crew).bind Crew.place
/-- The teams of a crew. -/
def State.teamsOf (s : State) (c : Nat) : List (Nat × Team) := s.teams.filter fun e => e.2.crew == c
/-- The crews of a launch. -/
def State.crewsOf (s : State) (l : Nat) : List (Nat × Crew) := s.crews.filter fun e => e.2.launch == l
/-- The crews that share a crew's table; the crew alone when it has none (R229). -/
def State.tableCrews (s : State) (c : Nat) : List (Nat × Crew) :=
  match s.crews.find? c with
  | none => []
  | some cr => s.crews.filter fun e => e.1 == c || (cr.table.isSome && e.2.table == cr.table && e.2.launch == cr.launch)

/-- The meaning of an instruction that the issuing team performs. -/
def withTeam (s : State) (f : Nat → Team → State) : Out :=
  match s.self with
  | none => .fault .noTeam
  | some uid =>
    match s.teams.find? uid with
    | none => .fault .noTeam
    | some t => .next (f uid t)

/-- The lanes in which a slot of guard class lane is performed: `active()` of R14. -/
def Team.lanes (t : Team) (g : Option Guard) : Mask := t.ctl.active &&& guardLanes t.regs g

/-- Go to an address; what a tret arranged for the slot left alone is over. -/
def Team.goto (t : Team) (a : Nat) : Team :=
  { t with ctl := { t.ctl with pc := a, skip := 0, arrived := false, under := none, breaks := [], exempt := none } }

/-- The next slot (R18, R20). -/
def Team.advance (t : Team) : Team := t.goto (t.ctl.pc + 4)

/-- The handler depth (R343). -/
def Team.depth (t : Team) : Nat := t.trap.handlers.length

/-- A register-only instruction: new registers, then the next slot. -/
def regOp (s : State) (f : Team → Regs) : Out :=
  withTeam s fun uid t => s.putTeam uid { t with regs := f t }.advance

/-- A uniform register-only instruction: nothing but the next slot when its guard is false (R31). -/
def regOpIf (s : State) (g : Option Guard) (f : Team → Regs) : Out :=
  regOp s fun t => if guardHolds t.regs g then f t else t.regs

/-! ### Bytes -/

/-- A little-endian number of bytes. -/
def leNat : List Byte → Nat
  | [] => 0
  | b :: l => b.toNat + 256 * leNat l

/-- The `n` low bytes of a number, least significant first. -/
def leBytes : Nat → Nat → List Byte
  | 0, _ => []
  | n + 1, x => BitVec.ofNat 8 x :: leBytes n (x / 256)

/-- A memory is canonical: addresses strictly rise and no listed byte is zero, what an unlisted address reads as. -/
abbrev Memory.wf (m : List Host.Cell) : Bool := Tbl.wf (0 : Byte) m

/-- One byte. -/
def peek (m : List Host.Cell) (a : Nat) : Byte := Tbl.get m 0 a
/-- Store one byte. -/
def poke (m : List Host.Cell) (a : Nat) (b : Byte) : List Host.Cell := Tbl.set m 0 a b
/-- Store bytes from an address upward. -/
def pokes (m : List Host.Cell) (a : Nat) : List Byte → List Host.Cell
  | [] => m
  | b :: l => pokes (poke m a b) (a + 1) l
/-- Read bytes from an address upward. -/
def peeks (m : List Host.Cell) (a : Nat) (n : Nat) : List Byte := (List.range n).map fun i => peek m (a + i)

/-! ### Stage 2 (R376) -/

/-- MODE of a slice group (R372). -/
def sgMode (v : Word64) : Nat := v.toNat / 2 ^ 16 % 4
/-- OWNER of a slice group. -/
def sgOwner (v : Word64) : Nat := v.toNat % 32
/-- SGCFG of a group. -/
def State.sg (s : State) (g : Nat) : Word64 := s.dev.sgcfg.get 0 g

/-- The slice groups that a function owns. -/
def State.ownGroups (s : State) (v : Nat) : List Nat :=
  (List.range 16).filter fun g => sgMode (s.sg g) == 1 && sgOwner (s.sg g) == v
/-- The slice groups of the pool. -/
def State.poolGroups (s : State) : List Nat := (List.range 16).filter fun g => sgMode (s.sg g) == 3
/-- A function that owns no slice group is rated (R372). -/
def State.rated (s : State) (v : Nat) : Bool := (s.ownGroups v).isEmpty
/-- The slice groups of a function's window. -/
def State.groups (s : State) (v : Nat) : List Nat := if s.rated v then s.poolGroups else s.ownGroups v
/-- S2LIMIT: 30 GiB for each group (R376). -/
def State.s2limit (s : State) (v : Nat) : Nat := (s.groups v).length * (30 * 2 ^ 30)

/-- The place in device memory of a window address. -/
def windowKey (groups : List Nat) (w : Nat) : Option Nat :=
  (groups[w / 128 % groups.length]?).map fun g => 2 ^ 35 * g + (w / 128 / groups.length * 128 + w % 128)

/-- The place in device memory of a guest-physical address, none on a stage-2 fault. -/
def State.stage2 (s : State) (v : Nat) (gpa : Nat) : Option Nat :=
  if gpa < (s.fn v).s2bound.toNat then windowKey (s.groups v) ((s.fn v).s2base.toNat + gpa) else none

/-! ### Address spaces (R143 to R145, R297, R298) -/

/-- The place some bytes further. -/
def Place.add : Place → Nat → Place
  | .scratch c o, i => .scratch c (o + i)
  | .window c o, i => .window c (o + i)
  | .gpa f a, i => .gpa f (a + i)
  | .host a, i => .host (a + i)
  | .fabric n r, i => .fabric n (r + i)

/-- SCRBASE (R297). -/
def scrBase : Nat := 0xFFFFFF0000000000

/-- The address lies in the fabric space. -/
def inFabric (a : Nat) : Bool := a / 2 ^ 56 == 1
/-- The address lies in the global space. -/
def inGlobal (a : Nat) : Bool := a / 2 ^ 56 == 0
/-- The address lies in the local window. -/
def inLocal (a : Nat) : Bool := decide (scrBase ≤ a)
/-- NODE of a fabric address. -/
def fabNode (a : Nat) : Nat := a / 2 ^ 46 % 1024
/-- RADDR of a fabric address. -/
def fabRaddr (a : Nat) : Nat := a % 2 ^ 46

/-- Where an extent leads an address. -/
def Extent.place (e : Extent) (fn a : Nat) : Place :=
  if e.target = 0 then .gpa fn (e.pa + (a - e.va))
  else if e.target = 1 then .host (e.pa + (a - e.va))
  else .fabric (fabNode a) (fabRaddr a)

/-- Bytes `a` to `a + n − 1` lie in the extent. -/
def Extent.covers (e : Extent) (a n : Nat) : Bool := decide (e.va ≤ a) && decide (a + n ≤ e.va + 2 ^ e.log2)
/-- Bytes `a` to `a + n − 1` lie in the page. -/
def PageEntry.covers (p : PageEntry) (a n : Nat) : Bool := decide (p.va ≤ a) && decide (a + n ≤ p.va + 4096)

/-- Where a page entry leads an address. -/
def PageEntry.place (p : PageEntry) (fn a : Nat) : Place :=
  if inFabric a then .fabric (fabNode a) (p.pa % 2 ^ 46 + a % 4096)
  else if p.host then .host (p.pa + a % 4096) else .gpa fn (p.pa + a % 4096)

/-- The lookup of bytes in a locked translation table: where they lie, and whether writes are permitted. -/
def lttFind (extents : List Extent) (pages : List PageEntry) (fn a n : Nat) : Option (Place × Bool) :=
  match extents.find? fun e => e.covers a n with
  | some e => some (e.place fn a, e.w)
  | none => (pages.find? fun p => p.covers a n).map fun p => (p.place fn a, p.w)

/-- The extents of a team's launch. -/
def State.extentsOf (s : State) (t : Team) : List Extent := ((s.launchOf t).map Launch.extents).getD []

/-- The causes of R57 that the meanings raise. -/
inductive Cause where
  | illop | priv | handle | align | lttMiss | probe | poison | watch | brkpt | swtrap | noprod | ovlMiss | ovlStale
  | mstk | cstk | trackDeadlock | scratchOob | accOob | obOob | fabric | double | tgState | handlerDepth
deriving DecidableEq, Repr

/-- The codes of R57. -/
def Cause.code : Cause → Nat
  | .illop => 0x01 | .priv => 0x02 | .handle => 0x03 | .align => 0x04 | .lttMiss => 0x05 | .probe => 0x06
  | .poison => 0x07 | .watch => 0x08 | .brkpt => 0x09 | .swtrap => 0x0A | .noprod => 0x0B | .ovlMiss => 0x0C
  | .ovlStale => 0x0D | .mstk => 0x0E | .cstk => 0x0F | .trackDeadlock => 0x10 | .scratchOob => 0x11
  | .accOob => 0x12 | .obOob => 0x13 | .fabric => 0x14 | .double => 0x15 | .tgState => 0x16 | .handlerDepth => 0x17

/-- Where a team's access of `n` bytes at `a` leads, or the cause that stops it (R143 to R145). -/
def State.resolve (s : State) (t : Team) (a n : Nat) (wr : Bool) : Except Cause Place :=
  if inLocal a then
    if a - scrBase + n ≤ ((s.crews.find? t.crew).map Crew.scratchBytes).getD 0 then .ok (.scratch t.crew (a - scrBase))
    else .error .scratchOob
  else if inGlobal a || inFabric a then
    match lttFind (s.extentsOf t) t.link.pages (s.fnOf t) a n with
    | some (p, w) => if wr && !w then .error .lttMiss else .ok p
    | none => .error .lttMiss
  else .error .lttMiss

/-! ### The package's own node -/

/-- FABID.VALID (R429). -/
def State.fabValid (s : State) : Bool := s.fab.fabid.getLsbD 16
/-- FABID.NODE. -/
def State.node (s : State) : Nat := s.fab.fabid.toNat % 1024

/-- A fabric place of the package's own node, as its target translates it (R298). -/
def State.home (s : State) (fn : Nat) : Place → Place
  | .fabric n r => if s.fabValid && n == s.node then .gpa fn r else .fabric n r
  | p => p

/-! ### Bytes at a place -/

/-- The bits of a crew's scratchpad. -/
def State.scratchOf (s : State) (c : Nat) : List Host.Cell := ((s.crews.find? c).map Crew.scratch).getD []

/-- One byte at a place of this package; a byte of another node, or one that stage 2 does not map, reads zero here and is
never asked for. -/
def State.byteAt (s : State) : Place → Byte
  | .scratch c o => peek (s.scratchOf c) o
  | .window c o => peek (((s.crews.find? c).map Crew.window).getD []) o
  | .gpa f a =>
    match s.stage2 f a with
    | some k => peek s.mem k
    | none => 0
  | .host a => peek s.host a
  | .fabric _ _ => 0

/-- Bytes from a place upward. -/
def State.readBytes (s : State) (p : Place) (n : Nat) : List Byte := (List.range n).map fun i => s.byteAt (p.add i)
/-- A little-endian number from a place. -/
def State.readNat (s : State) (p : Place) (n : Nat) : Nat := leNat (s.readBytes p n)

/-- Store one byte at a place of this package. -/
def State.putByte (s : State) (p : Place) (b : Byte) : State :=
  match p with
  | .scratch c o => s.modCrew c fun cr => { cr with scratch := poke cr.scratch o b }
  | .window c o => s.modCrew c fun cr => { cr with window := poke cr.window o b }
  | .gpa f a =>
    match s.stage2 f a with
    | some k => { s with mem := poke s.mem k b }
    | none => s
  | .host a => { s with host := poke s.host a b }
  | .fabric _ _ => s

/-- Store bytes from a place upward. -/
def State.putBytes (s : State) (p : Place) : List Byte → State
  | [] => s
  | b :: l => (s.putByte p b).putBytes (p.add 1) l

/-! ### Lines and monitors (R164) -/

/-- The 128-byte line of a place: which storage, and which line of it. -/
def State.lineOf (s : State) : Place → Option (Nat × Nat)
  | .scratch c o => some (c + 3, o / 128)
  | .window _ _ => none
  | .gpa f a => (s.stage2 f a).map fun k => (0, k / 128)
  | .host a => some (1, a / 128)
  | .fabric n r => some (2, (n * 2 ^ 46 + r) / 128)

/-- A write has landed on a line: every monitor armed on it is hit. -/
def State.hitLine (s : State) (line : Option (Nat × Nat)) : State :=
  { s with teams := s.teams.map fun e =>
      match e.2.link.monitor with
      | some m => if some m.line = line then (e.1, { e.2 with link := { e.2.link with monitor := some { m with hit := true } } }) else e
      | none => e }

/-- A write of bytes at a place, as every agent makes it. -/
def State.writeBytes (s : State) (p : Place) (l : List Byte) : State :=
  let s' := s.putBytes p l
  let s' := s'.hitLine (s.lineOf p)
  if s.lineOf (p.add (l.length - 1)) = s.lineOf p then s' else s'.hitLine (s.lineOf (p.add (l.length - 1)))

/-- A write of a little-endian number. -/
def State.writeNat (s : State) (p : Place) (n x : Nat) : State := s.writeBytes p (leBytes n x)

/-! ### Poison marks (R407, R408) -/

/-- The granule of a place holds a poison mark. -/
def State.marked (s : State) : Place → Bool
  | .scratch c o => ((s.crews.find? c).map fun cr => Tbl.get cr.scratchPoison false (o / 64)).getD false
  | .window c o => ((s.crews.find? c).map fun cr => Tbl.get cr.windowPoison false (o / 64)).getD false
  | .gpa f a =>
    match s.stage2 f a with
    | some k => s.dev.poison.get false (k / 64) || s.dev.retiredGroups.get false (k / 2 ^ 35)
    | none => false
  | .host _ => false
  | .fabric _ _ => false

/-- Some granule among `n` bytes at a place holds a mark. -/
def State.markedIn (s : State) (p : Place) (n : Nat) : Bool := (List.range n).any fun i => s.marked (p.add i)

/-- Set or clear the mark of a place's granule; POISONED counts the marks that are set (R410). -/
def State.setMark (s : State) (p : Place) (m : Bool) : State :=
  match p with
  | .scratch c o => s.modCrew c fun cr => { cr with scratchPoison := Tbl.set cr.scratchPoison false (o / 64) m }
  | .window c o => s.modCrew c fun cr => { cr with windowPoison := Tbl.set cr.windowPoison false (o / 64) m }
  | .gpa f a =>
    match s.stage2 f a with
    | some k =>
      if s.dev.poison.get false (k / 64) = m then s
      else
        let s := { s with dev := { s.dev with poison := s.dev.poison.set false (k / 64) m } }
        s.modFn f fun r => { r with poisoned := if m then r.poisoned + 1 else r.poisoned }
    | none => s
  | .host _ => s
  | .fabric _ _ => s

/-! ### Overlays -/

/-- The bytes that an overlay's code may span (R75, R201). -/
def overlaySpan : Nat := 0x8000

/-- The overlay that a half of a team's sub-core holds, when it is one of the team's set. -/
def State.halfOf (s : State) (t : Team) (b : Bank) : Half :=
  match s.placeOf t with
  | none => none
  | some p =>
    match b with
    | .a => (s.sub p).halfA
    | .b => (s.sub p).halfB

/-- The overlay of the team's own set that a half holds. -/
def State.overlayIn (s : State) (t : Team) (b : Bank) : Option Nat :=
  match s.halfOf t b, s.crews.find? t.crew with
  | some (set, n), some c => if set = c.set then some n else none
  | _, _ => none

/-- The other half. -/
def otherBank : Bank → Bank
  | .a => .b
  | .b => .a

/-- The code of a team's set. -/
def State.setOf (s : State) (t : Team) : Option TransSet :=
  (s.crews.find? t.crew).bind fun c => s.sets.find? c.set

/-- An address lies within the code of overlay `n` of a team's set (R201). -/
def State.inOverlay (s : State) (t : Team) (n a : Nat) : Bool :=
  match s.setOf t with
  | none => false
  | some ts =>
    match ts.overlays.find? n with
    | none => false
    | some o => decide (n * overlaySpan ≤ a) && decide (a < n * overlaySpan + o.size)

/-- The four words of the quad at an address of a team's code. -/
def State.quadAt (s : State) (t : Team) (a : Nat) : List Nat :=
  match s.setOf t with
  | none => []
  | some ts => (List.range 4).map fun i => leNat (peeks ts.code (a / 16 * 16 + 4 * i) 4)

end Sys2Proof.Machine
end

