-- ==== Sys2Proof/Machine/Atom.lean ====
section
/-! DEFINITION. The read-modify-writes of the atomics and of cp.red (R154, R179), and barrier words (R161, R162). -/

namespace Sys2Proof.Machine

/-- Bytes that an atomic reads and writes (R47). -/
def atomSize (op : AtomOp) : Nat :=
  match op with
  | .addI64 | .casI64 => 8
  | _ => 4

/-- An operation on the low 32 bits. -/
def atom32 (f : Word → Word → Word) (old a : Word64) : Word64 := (f (old.setWidth 32) (a.setWidth 32)).setWidth 64

/-- The f32 sum of atom.add.f32 and cp.red: RNE, subnormals kept (R154, R179). -/
def atomFadd (old a : Word64) : Rounded :=
  fadd .f32 { dni := false, dno := false, mode := .rne, draw := 0 } (old.toNat % 2 ^ 32) (a.toNat % 2 ^ 32)

/-- The value that an atomic writes, none where it writes nothing (R154). `a` is the operand, `b` a cas's new value. -/
def atomNew (op : AtomOp) (old a b : Word64) : Option Word64 :=
  match op with
  | .addI32 => some (atom32 (· + ·) old a)
  | .addF32 => some (BitVec.ofNat 64 (atomFadd old a).bits)
  | .minI32 => some (atom32 minS old a)
  | .minN32 => some (atom32 minU old a)
  | .maxI32 => some (atom32 maxS old a)
  | .maxN32 => some (atom32 maxU old a)
  | .and => some (old &&& a)
  | .or => some (old ||| a)
  | .xor => some (old ^^^ a)
  | .xchg => some a
  | .cas => if old = a then some b else none
  | .addI64 => some (old + a)
  | .casI64 => if old = a then some b else none
  | .ldAcq => none
  | .stRel => some a
  | .incN32 => some (if a.toNat ≤ old.toNat then 0 else old + 1)

/-- The flags that an atomic raises (R154). -/
def atomFlags (op : AtomOp) (old a : Word64) : Flags :=
  match op with
  | .addF32 => (atomFadd old a).flags
  | _ => 0

/-- The atomic always needs write permission, but for ld.acq (R145). -/
def atomWrites (op : AtomOp) : Bool := op != .ldAcq

/-- The combination that an OP of cp.red names (R179). -/
def redOp : Nat → Option AtomOp
  | 0 => some .addI32
  | 1 => some .addF32
  | 2 => some .minI32
  | 3 => some .maxI32
  | 4 => some .minN32
  | 5 => some .maxN32
  | 6 => some .addI64
  | _ => none

/-- A barrier word after one arrival, with E (R162). -/
def barrierArrive (word expect : Word) : Word :=
  let e := if expect.toNat % 65536 = 0 then 1 else expect.toNat % 65536
  let n := word.toNat % 65536 + 1
  if e ≤ n then BitVec.ofNat 32 ((word.toNat / 65536 + 1) % 65536 * 65536) else BitVec.ofNat 32 (word.toNat / 65536 * 65536 + n)

/-- PHASE of a barrier word (R161). -/
def barrierPhase (word : Word) : BitVec 16 := BitVec.ofNat 16 (word.toNat / 65536)

end Sys2Proof.Machine
end

