-- ==== Sys2Proof/Machine/CopyBase.lean ====
section
/-! DEFINITION. The elements of copy-engine operations, how one is performed, and what reads of memory in flight return
(R176 to R182, R280 to R288). -/

namespace Sys2Proof.Machine

/-! ### Elements -/

/-- The element size of a copy. -/
def CopyDesc.elem (d : CopyDesc) : Nat := 2 ^ d.esz
/-- A copy with any count of zero is empty (R176). -/
def CopyDesc.empty (d : CopyDesc) : Bool := d.count0 == 0 || d.count1 == 0 || d.count2 == 0

/-- The strides of the three dimensions at the source. -/
def CopyDesc.srcStrides (d : CopyDesc) : Int × Int × Int := ((d.elem : Int), d.sstr1.toInt, d.sstr2.toInt)
/-- The strides of the three dimensions at the destination; cp.tile transposes the first two (R177). -/
def CopyDesc.dstStrides (d : CopyDesc) (tile : Bool) : Int × Int × Int :=
  if tile then (d.dstr1.toInt, (d.elem : Int), d.dstr2.toInt) else ((d.elem : Int), d.dstr1.toInt, d.dstr2.toInt)

/-- The distance of an element's first byte from the base. -/
def elemOffset (st : Int × Int × Int) (i0 i1 i2 : Nat) : Int := i0 * st.1 + i1 * st.2.1 + i2 * st.2.2

/-- How far below the base a side reaches. -/
def lowOffset (st : Int × Int × Int) (d : CopyDesc) : Int :=
  min 0 ((d.count0 - 1 : Int) * st.1) + min 0 ((d.count1 - 1 : Int) * st.2.1) + min 0 ((d.count2 - 1 : Int) * st.2.2)
/-- How far above the base a side reaches, its last element included. -/
def highOffset (st : Int × Int × Int) (d : CopyDesc) : Int :=
  max 0 ((d.count0 - 1 : Int) * st.1) + max 0 ((d.count1 - 1 : Int) * st.2.1) + max 0 ((d.count2 - 1 : Int) * st.2.2) +
    d.elem

/-- The element indices of a copy in increasing flat index (R287). -/
def CopyDesc.indices (d : CopyDesc) : List (Nat × Nat × Nat) :=
  (List.range d.count2).flatMap fun i2 =>
    (List.range d.count1).flatMap fun i1 => (List.range d.count0).map fun i0 => (i0, i1, i2)

/-- The place of an element at a side whose base address is given. -/
def sideElem (sd : Side) (base : Nat) (st : Int × Int × Int) (i : Nat × Nat × Nat) : Place :=
  sd.place.add (((base : Int) + elemOffset st i.1 i.2.1 i.2.2) - sd.low).toNat

/-- Source and destination of every element of an operation, in increasing flat index; of a gather, row by row. -/
def CopyOp.elems (o : CopyOp) : List (Place × Place) :=
  match o.kind with
  | .gather => o.rows.flatMap fun r =>
      (List.range o.desc.count0).map fun i => (r.src.add (i * o.desc.elem), r.dst.add (i * o.desc.elem))
  | k =>
    if o.desc.empty then []
    else o.desc.indices.map fun i =>
      (sideElem o.src o.desc.src.toNat o.desc.srcStrides i,
        sideElem o.dst o.desc.dst.toNat (o.desc.dstStrides (k == .tile)) i)

/-- A place lies among `n` bytes from another. -/
def Place.within (p : Place) (q : Place) (n : Nat) : Bool :=
  match p, q with
  | .scratch c o, .scratch c' o' => c == c' && decide (o' ≤ o) && decide (o < o' + n)
  | .window c o, .window c' o' => c == c' && decide (o' ≤ o) && decide (o < o' + n)
  | .gpa f a, .gpa f' a' => f == f' && decide (a' ≤ a) && decide (a < a' + n)
  | .host a, .host a' => decide (a' ≤ a) && decide (a < a' + n)
  | .fabric m r, .fabric m' r' => m == m' && decide (r' ≤ r) && decide (r < r' + n)
  | _, _ => false

/-- A place is a destination byte of an operation in flight. -/
def CopyOp.writes (o : CopyOp) (p : Place) : Bool := o.elems.any fun e => p.within e.2 o.desc.elem

/-- The copy-engine operations of a team that are in flight: of its open batch, its closed batches, and its gathers. -/
def Engines.flying (e : Engines) : List CopyOp := e.open_ ++ (e.closed.flatMap Batch.ops) ++ e.gathers

/-- A team's copies and fills in the order of their issue. -/
def Engines.batchOps (e : Engines) : List CopyOp := e.closed.flatMap Batch.ops ++ e.open_

/-- Change the copy of a team that a number names, wherever it stands. -/
def Engines.modCopy (e : Engines) (id : Nat) (f : CopyOp → CopyOp) : Engines :=
  let g := fun o : CopyOp => if o.id = id then f o else o
  { e with
    open_ := e.open_.map g
    closed := e.closed.map fun b => { b with ops := b.ops.map g }
    gathers := e.gathers.map g }

/-- P, C, DEPTH and STATE of an open track's record, as the device writes them (R183). -/
def TrackObj.record (k : TrackObj) : Nat := k.p.toNat + 2 ^ 32 * k.c.toNat + 2 ^ 64 * k.depth + 2 ^ 96

/-- A place lies in the record of an open track that software has overwritten: what its bytes hold is unspecified until the device
writes the record next (R183, log entry 125). -/
def State.overwritten (s : State) (p : Place) : Bool :=
  match p with
  | .scratch c o =>
    match s.crews.find? c with
    | none => false
    | some cr => cr.tracks.any fun e =>
      match e.2.obj with
      | none => false
      | some k =>
        let a := k.addr.toNat - scrBase
        decide (a ≤ o) && decide (o < a + 16) && peeks cr.scratch a 16 != leBytes 16 k.record
  | _ => false

/-- A place holds an unspecified value: it is a destination byte of some copy whose batch has not completed (R282), cp.red apart
(R288), or lies in the overwritten record of a track (R183). -/
def State.inFlight (s : State) (p : Place) : Bool :=
  s.overwritten p || s.teams.any fun e => e.2.eng.flying.any fun o => o.kind != .red && o.writes p

/-! ### What a read returns -/

/-- One byte as an agent reads it: a destination byte of a copy in flight is unspecified (R282). -/
def State.loadByte (s : State) (p : Place) : Byte × State :=
  if s.inFlight p then (Config.freeByte s.fresh, { s with fresh := s.fresh + 1 }) else (s.byteAt p, s)

/-- Bytes as an agent reads them. -/
def State.loadBytes (s : State) (p : Place) : Nat → List Byte × State
  | 0 => ([], s)
  | n + 1 =>
    let (b, s1) := s.loadByte p
    let (l, s2) := s1.loadBytes (p.add 1) n
    (b :: l, s2)

/-- A little-endian number as an agent reads it. -/
def State.loadNat (s : State) (p : Place) (n : Nat) : Nat × State :=
  let (l, s1) := s.loadBytes p n
  (leNat l, s1)

/-! ### Snapshots (R189, R264, R312) -/

/-- What the engine may still read as it stood at issue. -/
def State.snapshot (s : State) (crew : Nat) : SourceSnap :=
  { dev := s.mem, host := s.host, scratch := s.scratchOf crew
    window := ((s.crews.find? crew).map Crew.window).getD [] }

/-- The state with the memories of a snapshot. -/
def State.past (s : State) (crew : Nat) (sn : SourceSnap) : State :=
  { s with
    mem := sn.dev
    host := sn.host
    crews := s.crews.modify crew fun c => { c with scratch := sn.scratch, window := sn.window } }

/-- The bytes of an element as an engine reads them between its issue and now: where they differ, the old ones or the new
ones (R189, R312); a destination byte of a copy in flight is unspecified (R282). -/
def State.engineBytes (s : State) (crew : Nat) (sn : SourceSnap) (p : Place) (n : Nat) : List Byte × State :=
  let (new, s0) := s.loadBytes p n
  let old := (s.past crew sn).readBytes p n
  if old = new then (new, s0)
  else
    let (b, s1) := s0.takeBool
    (if b then old else new, s1)

/-- A snapshot takes in what some bytes hold now, free where they are in flight (R282, R312). -/
def State.resnap (s : State) (crew : Nat) (sn : SourceSnap) (p : Place) (n : Nat) : SourceSnap × State :=
  let (l, s1) := s.loadBytes p n
  (((s1.past crew sn).putBytes p l).snapshot crew, s1)

/-- The snapshot of an operation at its issue: its source bytes in flight are unspecified (R282). -/
def State.snapSources (s : State) (crew n : Nat) : List Place → SourceSnap → SourceSnap × State
  | [], sn => (sn, s)
  | p :: l, sn =>
    if !((List.range n).any fun i => s.inFlight (p.add i)) then s.snapSources crew n l sn
    else
      let (sn1, s1) := s.resnap crew sn p n
      s1.snapSources crew n l sn1

/-! ### Performing an operation -/

/-- Free bytes. -/
def State.takeBytes (s : State) : Nat → List Byte × State
  | 0 => ([], s)
  | n + 1 =>
    let b := Config.freeByte s.fresh
    let (l, s1) := State.takeBytes { s with fresh := s.fresh + 1 } n
    (b :: l, s1)

/-- The source bytes of element `i` of an operation: those that its fabric responses brought, or those that stand here. -/
def State.copySource (s : State) (crew : Nat) (o : CopyOp) (i : Nat) (p : Place) : List Byte × State :=
  match p with
  | .fabric _ _ =>
    if o.bad.contains i then s.takeBytes o.desc.elem
    else ((List.range o.desc.elem).map fun k => o.remote.get 0 (i * o.desc.elem + k), s)
  | p => s.engineBytes crew o.snap p o.desc.elem

/-- A place on another node. -/
def Place.remote : Place → Bool
  | .fabric _ _ => true
  | _ => false

/-- A place in host memory. -/
def Place.isHost : Place → Bool
  | .host _ => true
  | _ => false

/-- Bytes that stage 2 does not map: the package refuses them as the target of its own fabric access (R298, R435). -/
def State.refuses (s : State) (p : Place) (n : Nat) : Bool :=
  match p with
  | .gpa f a => (s.stage2 f (a + n - 1)).isNone
  | _ => false

/-- The source extents of an operation: of a gather, those of its rows. -/
def CopyOp.sources (o : CopyOp) : List (Place × Nat) :=
  match o.kind with
  | .gather => o.rows.map fun r => (r.src, o.desc.count0 * o.desc.elem)
  | _ => [(o.src.place, o.src.span)]

/-- The destination element at a place lies in a source extent of its own operation (R178); both extents are made of whole,
aligned elements. -/
def CopyOp.overlaps (o : CopyOp) (p : Place) : Bool := o.sources.any fun x => p.within x.1 x.2

/-- What one element of a plain copy delivers to its destination: 0xFF at host memory from a poisoned granule (R408), a
free value where source and destination extents overlap (R178), or where the copy ended in error (R283). -/
def State.copyValue (s : State) (crew : Nat) (o : CopyOp) (i : Nat) (e : Place × Place) : List Byte × State :=
  if o.err || o.overlaps e.2 then s.takeBytes o.desc.elem
  else
    match e.2 with
    | .host _ =>
      if s.markedIn e.1 o.desc.elem || o.bad.contains i then (List.replicate o.desc.elem 0xFF, s) else s.copySource crew o i e.1
    | _ => s.copySource crew o i e.1

/-- Perform the plain elements of an operation from index `i`, in order; where an element names bytes that an earlier one
wrote, which of the two stays is free (R178). Bytes of other nodes go out as requests. The values delivered come back. -/
def copyElems (crew : Nat) (o : CopyOp) (s : State) (i : Nat) (seen : List Place) : List (Place × Place) → State × List (List Byte)
  | [] => (s, [])
  | e :: l =>
    let (v, s1) := s.copyValue crew o i e
    let (keep, s2) := if seen.contains e.2 then s1.takeBool else (true, s1)
    let s3 := if keep && !e.2.remote then s2.writeBytes e.2 v else s2
    let (s4, vs) := copyElems crew o s3 (i + 1) (e.2 :: seen) l
    (s4, (if keep then v else []) :: vs)

/-- The granule of a place. -/
def Place.granule : Place → Place
  | .scratch c o => .scratch c (o / 64 * 64)
  | .window c o => .window c (o / 64 * 64)
  | .gpa f a => .gpa f (a / 64 * 64)
  | .host a => .host (a / 64 * 64)
  | .fabric m r => .fabric m (r / 64 * 64)

/-- The marks that writes of `n`-byte units leave at their destination (R178, R408): a granule that receives a byte of a
poisoned source is marked; a granule all of whose 64 bytes come from clean sources is cleared. -/
def writeMarks (s : State) (units : List (Place × Bool)) (n : Nat) : State :=
  let poisoned (p : Place) : Bool := units.any fun e => e.2 && (List.range n).any fun k => (e.1.add k).within p 64
  let full (p : Place) : Bool := (List.range 64).all fun k => units.any fun e => (p.add k).within e.1 n
  ((units.map fun e => e.1.granule).eraseDups).foldl
    (fun s p => if poisoned p then s.setMark p true else if full p then s.setMark p false else s) s

/-- The elements of an operation from `i` on whose source bears the mark. -/
def State.badElems (s : State) (o : CopyOp) : List Nat :=
  ((List.range o.elems.length).zip o.elems).filterMap fun e => if s.markedIn e.2.1 o.desc.elem then some e.1 else none

/-- Perform a plain copy, fill or gather up to element `n`: the operation keeps the values that it delivered. -/
def State.copyUpTo (s : State) (crew : Nat) (o : CopyOp) (n : Nat) : State × CopyOp :=
  let es := o.elems
  let bad := (s.badElems o).filter fun i => decide (o.progress ≤ i) && decide (i < n)
  let (s1, vs) := copyElems crew o s o.progress ((es.take o.progress).map (·.2)) ((es.take n).drop o.progress)
  (s1, { o with vals := o.vals ++ vs, bad := o.bad ++ bad, poison := o.poison || !(o.bad ++ bad).isEmpty, progress := n })

/-- A later copy or fill has written a place, or has begun to: what it holds is that operation's (R281). What a cp.red has combined
there stands in the value that the earlier operation delivers. -/
def takenBy (later : List CopyOp) (p : Place) : Bool :=
  later.any fun o => o.kind != .red && (o.done || o.progress != 0) && o.writes p

/-- Write bytes from a place upward, those apart that later operations have taken. -/
def writeUnless (later : List CopyOp) (s : State) (p : Place) : List Byte → State
  | [] => s
  | b :: l => writeUnless later (if takenBy later p then s else s.writeBytes p [b]) (p.add 1) l

/-- The bytes of an operation as its completion leaves them: its values once more, over whatever has been written meanwhile
(R282), free ones where it ended in error (R283), and its marks. A cp.red leaves what it combined. -/
def State.settleCopy (s : State) (o : CopyOp) (later : List CopyOp) : State :=
  if o.kind = .red then s
  else
    let s1 := (o.elems.zip o.vals).foldl (fun s e =>
      if e.1.2.remote || e.2.isEmpty then s
      else
        let (v, s) := if o.err then s.takeBytes o.desc.elem else (e.2, s)
        writeUnless later s e.1.2 v) s
    writeMarks s1 (((List.range o.elems.length).zip o.elems).map fun e => (e.2.2, o.bad.contains e.1)) o.desc.elem

/-! ### cp.red (R179, R287) -/

/-- Elements of a segment: at most 4 KiB of source bytes. -/
def segLen (d : CopyDesc) : Nat := 4096 / d.elem
/-- The segments of an operation. -/
def CopyOp.segments (o : CopyOp) : Nat := (o.elems.length + segLen o.desc - 1) / segLen o.desc
/-- The elements of a segment, each with its flat index. -/
def CopyOp.segment (o : CopyOp) (k : Nat) : List (Nat × Place × Place) :=
  (((List.range o.elems.length).zip o.elems).drop (k * segLen o.desc)).take (segLen o.desc)

/-- The offset of a place within its storage. -/
def Place.offset : Place → Nat
  | .scratch _ o => o
  | .window _ o => o
  | .gpa _ a => a
  | .host a => a
  | .fabric _ r => r

/-- The elements of an operation with what each has delivered. -/
def CopyOp.delivered (o : CopyOp) : List ((Place × Place) × List Byte) := o.elems.zip o.vals

/-- The byte that an operation has delivered at a place. -/
def CopyOp.byteFor (o : CopyOp) (p : Place) : Option Byte :=
  (List.find? (fun e : (Place × Place) × List Byte => !e.2.isEmpty && p.within e.1.2 o.desc.elem) o.delivered).bind
    fun e => e.2[p.offset - e.1.2.offset]?

/-- An operation with another byte delivered at a place. -/
def CopyOp.setByte (o : CopyOp) (p : Place) (b : Byte) : CopyOp :=
  { o with vals := o.delivered.map fun e => if p.within e.1.2 o.desc.elem then e.2.set (p.offset - e.1.2.offset) b else e.2 }

/-- Of the copies and fills that a team issued before one of its operations, the last that writes a place (R281). -/
def State.writerBefore (s : State) (uid id : Nat) (p : Place) : Option CopyOp :=
  (s.teams.find? uid).bind fun t =>
    List.find? (fun o : CopyOp => o.kind != .red && o.writes p) (t.eng.batchOps.takeWhile fun o => o.id != id).reverse

/-- A byte as a combination finds it: unspecified where a copy is writing it (R282), but for a copy or fill that the same team
issued before: that one's value it is, whatever has been written there meanwhile (R281). `own` is the team and the cp.red, none where
the combination comes from another node. -/
def State.combineByte (s : State) (own : Option (Nat × Nat)) (p : Place) : Byte × State :=
  let free (u : Nat) (e : Engines) : Bool :=
    (if own.map (·.1) = some u then e.gathers else e.flying).any fun o => o.kind != .red && o.writes p
  if s.overwritten p || s.teams.any fun e => free e.1 e.2.eng then (Config.freeByte s.fresh, { s with fresh := s.fresh + 1 })
  else (((own.bind fun x => s.writerBefore x.1 x.2 p).bind fun q => q.byteFor p).getD (s.byteAt p), s)

/-- The old value that a combination reads. -/
def State.combineNat (s : State) (own : Option (Nat × Nat)) (p : Place) : Nat → Nat × State
  | 0 => (0, s)
  | n + 1 =>
    let (b, s1) := s.combineByte own p
    let (x, s2) := s1.combineNat own (p.add 1) n
    (b.toNat + 256 * x, s2)

/-- What a combination has left at a place becomes what the copy or fill before it delivers, whose completion writes it again
(R281, R282). -/
def State.carryBytes (s : State) (uid id : Nat) (p : Place) : List Byte → State
  | [] => s
  | b :: l =>
    let s1 := match s.writerBefore uid id p with
      | some q => s.modTeam uid fun t => { t with eng := t.eng.modCopy q.id fun o => o.setByte p b }
      | none => s
    s1.carryBytes uid id (p.add 1) l

/-- A write that a combination makes. -/
def State.combineWrite (s : State) (own : Option (Nat × Nat)) (p : Place) (l : List Byte) : State :=
  match own with
  | some (uid, id) => (s.writeBytes p l).carryBytes uid id p l
  | none => s.writeBytes p l

/-- Combine one element into its destination; the flags go to the operation. -/
def combineAt (s : State) (own : Option (Nat × Nat)) (op : AtomOp) (p : Place) (n : Nat) (v : Word64) : State × Flags :=
  let (x, s) := s.combineNat own p n
  let old := BitVec.ofNat 64 x
  match atomNew op old v 0 with
  | some x => (s.combineWrite own p (leBytes n x.toNat), atomFlags op old v)
  | none => (s, 0)

/-- Element `i` of a cp.red combined into a destination of this package: a poisoned source leaves its mark there, or 0xFF
in host memory (R408); an operation in error, and one whose source extent meets the element, leave a free value, and flags of free
operands (R178, R283). -/
def State.combineElem (s : State) (uid crew : Nat) (o : CopyOp) (op : AtomOp) (i : Nat) (src dst : Place) : State × Flags :=
  let own := some (uid, o.id)
  let bad := o.bad.contains i
  if o.err then
    let (v, s1) := s.takeBytes o.desc.elem
    (s1.combineWrite own dst v, 0)
  else if bad && dst.isHost then (s.combineWrite own dst (List.replicate o.desc.elem 0xFF), 0)
  else
    let (v, s1) := s.copySource crew o i src
    let (s2, f) :=
      if o.overlaps dst then
        let (x, s2) := s1.takeWord64
        let (w, s3) := s2.takeBytes o.desc.elem
        (s3.combineWrite own dst w, atomFlags op x (BitVec.ofNat 64 (leNat v)))
      else combineAt s1 own op dst o.desc.elem (BitVec.ofNat 64 (leNat v))
    (if bad then s2.setMark dst true else s2, f)

/-- Combine elements, one by one; those of other nodes go out as requests. -/
def applyElems (uid crew : Nat) (o : CopyOp) (op : AtomOp) (s : State) (fl : Flags) : List (Nat × Place × Place) → State × Flags
  | [] => (s, fl)
  | (i, src, dst) :: l =>
    if dst.remote then applyElems uid crew o op s fl l
    else
      let (s1, f) := s.combineElem uid crew o op i src dst
      applyElems uid crew o op s1 (fl ||| f) l

/-- A list in any order: each member comes at a free place among those after it. -/
def State.anyOrder {α : Type} (s : State) : List α → List α × State
  | [] => ([], s)
  | a :: l =>
    let (m, s1) := s.anyOrder l
    let (n, s2) := s1.takeNat
    let k := n % (m.length + 1)
    (m.take k ++ a :: m.drop k, s2)

/-- The combination whose location is an f32. -/
def redFloat (n : Nat) : Bool := n == 1

/-- The elements of a segment as they combine: into an f32 location in an order that is unspecified, and so free (R179); the order
of the others shows nowhere. -/
def State.redOrder (s : State) (o : CopyOp) (k : Nat) : List (Nat × Place × Place) × State :=
  if redFloat o.desc.op then s.anyOrder (o.segment k) else (o.segment k, s)

/-- Apply one segment of a cp.red, once (R287); a destination that it reads under a mark counts for POISON as a source does
(R408). -/
def State.applySegment (s : State) (uid crew : Nat) (o : CopyOp) (k : Nat) : State × CopyOp :=
  if o.applied.contains k then (s, o)
  else
    match redOp o.desc.op with
    | none => (s, o)
    | some op =>
      let bad := (o.segment k).filterMap fun e => if s.markedIn e.2.1 o.desc.elem && !o.bad.contains e.1 then some e.1 else none
      let met := (o.segment k).any fun e => s.markedIn e.2.2 o.desc.elem
      let o1 := { o with bad := o.bad ++ bad, poison := o.poison || met || !(o.bad ++ bad).isEmpty, applied := k :: o.applied }
      let (l, s0) := s.redOrder o k
      let (s1, fl) := applyElems uid crew o1 op s0 o.flags l
      (s1, { o1 with flags := fl })

/-! ### Abandonment at teardown (R357) -/

/-- Every destination byte that a torn-down operation may reach holds an unspecified value; a cp.red keeps the segments it
has applied. -/
def State.abandonCopy (s : State) (o : CopyOp) : State :=
  if o.kind = .red then s
  else o.elems.foldl (fun s e =>
    if e.2.remote then s
    else
      let (v, s1) := s.takeBytes o.desc.elem
      s1.writeBytes e.2 v) s

end Sys2Proof.Machine
end

