-- ==== Sys2Proof/Machine/MatrixBase.lean ====
section
/-! DEFINITION. The arithmetic of the matrix engine and the conversions of acc.st (R95 to R98, R137, R191, R192, R194, R198). -/

namespace Sys2Proof.Machine

/-! ### Operand formats (R95, R187) -/

/-- The floating-point format of a FORMAT code; none for Pip4 and i8. -/
def rangeFmt : Nat → Option Fmt
  | 0 => some .f8a
  | 1 => some .f8b
  | 4 => some .bf16
  | 5 => some .f16
  | _ => none

/-- Bits of an element of a format. -/
def formatBits : Nat → Nat
  | 2 => 4
  | 4 => 16
  | 5 => 16
  | _ => 8

/-- The chunk length of a pair of formats, none where R95 lists no such pair. -/
def pairChunk (a b : Nat) : Option Nat :=
  if a ≤ 1 ∧ b ≤ 2 then some 64
  else if a = 2 ∧ b = 2 then some 128
  else if a = 3 ∧ b = 3 then some 64
  else if a = 4 ∧ b = 4 then some 32
  else if a = 5 ∧ b = 5 then some 32
  else none

/-- BL of a range's BLOCK code; 0 for no scales. -/
def blockLen (code : Nat) : Nat :=
  match code with
  | 1 => 16
  | 2 => 32
  | 3 => 64
  | _ => 0
/-- BLOCK of byte +9 of a range record. -/
def RangeObj.block (r : RangeObj) : Nat := blockLen (r.ctl % 4)
/-- OSH of byte +9. -/
def RangeObj.osh (r : RangeObj) : Nat := r.ctl / 4 % 8
/-- NF of byte +9. -/
def RangeObj.nf (r : RangeObj) : Bool := r.ctl.testBit 5

/-- The operand buffer as one quarter operation reads it: its bytes at issue and now, which granules are poisoned, and the
first of the free choices between the two, one for each half byte at which an element may start (R189, R270). -/
structure OperandView where
  old : List Host.Cell
  new : List Host.Cell
  poison : Tbl Bool
  fresh : Nat
deriving DecidableEq, Repr

/-- A byte of an element that starts `key` half bytes into a range, as read; none where its granule is poisoned (R408). -/
def OperandView.byte (v : OperandView) (r : RangeObj) (key off : Nat) : Option Nat :=
  if Tbl.get v.poison false ((r.base + off) / 64) then none
  else some (peek (if Config.freeBool (v.fresh + 2 * r.base + key) then v.old else v.new) (r.base + off)).toNat

/-- A value times a power of two. -/
def FVal.scaleBy (k : Int) : FVal → FVal
  | .fin n m e => .fin n m (e + k)
  | x => x

/-- The decoded value of element `k` of a row that starts at an offset (R191); a poisoned byte decodes as a NaN that raises
IV (R408). -/
def OperandView.elem (v : OperandView) (r : RangeObj) (start k : Nat) : FVal :=
  match rangeFmt r.format with
  | some f =>
    if formatBits r.format = 16 then
      match v.byte r (2 * (start + 2 * k)) (start + 2 * k), v.byte r (2 * (start + 2 * k)) (start + 2 * k + 1) with
      | some lo, some hi => f.value (lo + 256 * hi)
      | _, _ => .nan true
    else
      match v.byte r (2 * (start + k)) (start + k) with
      | some b => f.value b
      | none => .nan true
  | none =>
    if r.format = 2 then
      match v.byte r (2 * start + k) (start + k / 2) with
      | some b =>
        let u := pip4Decode r.osh b
        let x := if k % 2 = 0 then u.1 else u.2
        .fin (decide (x < 0)) x.natAbs 0
      | none => .nan true
    else
      match v.byte r (2 * (start + k)) (start + k) with
      | some b =>
        let x := (BitVec.ofNat 8 b).toInt
        .fin (decide (x < 0)) x.natAbs 0
      | none => .nan true

/-- The value of element `k` of row or column `row`, with its block scale (R85, R96). -/
def OperandView.value (v : OperandView) (r : RangeObj) (start row k nb : Nat) : FVal :=
  let x := v.elem r start k
  if r.block = 0 then x
  else
    match v.byte r (2 * (r.soff + row * nb + k / r.block)) (r.soff + row * nb + k / r.block) with
    | none => .nan true
    | some 255 => .nan (v.byte r 0 (start + k * formatBits r.format / 8)).isNone
    | some sc => x.scaleBy ((sc : Int) - 127)

/-- Blocks along K. -/
def blocksOf (k bl : Nat) : Nat := if bl = 0 then 0 else (k + bl - 1) / bl

/-! ### The geometry (R190, R191, R271) -/

/-- OH of an unfold geometry. -/
def Geometry.oh (g : Geometry) : Nat := (g.h + 2 * g.pad - g.kh) / g.stride + 1

/-- The element of the image that A(m, k) names in unfold mode, none for the +0 outside it (R191, R271). -/
def Geometry.unfoldAt (g : Geometry) (m k : Nat) : Option Nat :=
  if g.oh * g.ow ≤ m then none
  else
    let oy := m / g.ow
    let ox := m % g.ow
    let cc := k % g.c
    let ky := k / g.c / g.kw
    let kx := k / g.c % g.kw
    let iy : Int := (oy * g.stride + ky : Nat) - (g.pad : Int)
    let ix : Int := (ox * g.stride + kx : Nat) - (g.pad : Int)
    if 0 ≤ iy ∧ iy < g.h ∧ 0 ≤ ix ∧ ix < g.w then some ((iy.toNat * g.w + ix.toNat) * g.c + cc) else none

/-- A(m, k). -/
def Geometry.aValue (g : Geometry) (v : OperandView) (r : RangeObj) (m k : Nat) : FVal :=
  if g.unfold then
    match g.unfoldAt m k with
    | none => .fin false 0 0
    | some i => v.elem r 0 i
  else v.value r (m * g.astr) m k (blocksOf g.k r.block)

/-- B(k, n). -/
def Geometry.bValue (g : Geometry) (v : OperandView) (r : RangeObj) (k n : Nat) : FVal :=
  v.value r (n * g.bstr) n k (blocksOf g.k r.block)

/-! ### Chunks (R97) -/

/-- What a chunk's products have come to. -/
structure ChunkSum where
  nan : Bool := false
  iv : Bool := false
  posInf : Bool := false
  negInf : Bool := false
  /-- the exact sum of the finite products, in units of 2^-600 -/
  sum : Int := 0
deriving DecidableEq, Repr

/-- Add one exact product. -/
def ChunkSum.add (c : ChunkSum) (a b : FVal) : ChunkSum :=
  if a.isNan || b.isNan then { c with nan := true, iv := c.iv || a.isSnan || b.isSnan }
  else
    match a, b with
    | .fin n1 m1 e1, .fin n2 m2 e2 =>
      let mag : Int := ((m1 * m2 * 2 ^ (e1 + e2 + 600).toNat : Nat) : Int)
      { c with sum := c.sum + (if n1 != n2 then -mag else mag) }
    | x, y =>
      if x.isZero || y.isZero then { c with nan := true, iv := true }
      else if x.sign != y.sign then { c with negInf := true } else { c with posInf := true }

/-- One chunk applied to an f32 accumulator (R97). -/
def applyF32 (acc : Word) (c : ChunkSum) : Word × Flags :=
  let meet := c.posInf && c.negInf
  if c.nan || meet then (0x7FC00000, flagIf (c.iv || meet) flagIV)
  else if !c.posInf && !c.negInf && c.sum == 0 then (acc, 0)
  else
    let s : FVal := if c.posInf then .inf false else if c.negInf then .inf true else .fin (decide (c.sum < 0)) c.sum.natAbs (-600)
    let r := deliver .f32 {} false (addV .rne (Fmt.f32.value acc.toNat) s)
    (BitVec.ofNat 32 r.bits, r.flags)

/-- One chunk applied to an i32 accumulator (R97). -/
def applyI32 (acc : Word) (c : ChunkSum) : Word × Flags :=
  if c.nan then (0x7FC00000, flagIf c.iv flagIV)
  else
    let t := acc.toInt + c.sum / 2 ^ 600
    (BitVec.ofInt 32 t, flagIf (decide (t < -2 ^ 31) || decide (2 ^ 31 - 1 < t)) flagSAT)

/-- The products of chunk `c` of element (m, n). -/
def chunkSum (g : Geometry) (v : OperandView) (ra rb : RangeObj) (ch c m n : Nat) : ChunkSum :=
  ((List.range (min ch (g.k - c * ch))).map (· + c * ch)).foldl
    (fun s k => s.add (g.aValue v ra m k) (g.bValue v rb k n)) {}

/-- The flat index of row `r`, column `c` of tile `t` of quarter `q` in an array of `n` tiles per quarter (R194). -/
def flatIndex (n q t r c : Nat) : Nat := ((q * n + t) * 8 + r) * 32 + c

/-- What one matrix operation does to one element in chunk `c`: mma.z starts from zero in chunk 0 (R192). -/
def chunkElem (zero : Bool) (g : Geometry) (v : OperandView) (ra rb : RangeObj) (ch c m n : Nat) (acc : Word) : Word × Flags :=
  let acc := if zero && c == 0 then 0 else acc
  let s := chunkSum g v ra rb ch c m n
  if ra.format = 3 then applyI32 acc s else applyF32 acc s

/-- Chunk `c` of quarter `q`, applied to every element of the quarter's active rows (R192, R267). -/
def chunkQuarter (zero : Bool) (g : Geometry) (v : OperandView) (ra rb : RangeObj) (ch n nl : Nat) (active : Mask) (q c : Nat)
    (acc : Tbl Word × Flags) : Tbl Word × Flags :=
  ((List.range 8).filter fun r => decide (8 * q + r < nl) && Mask.has active (8 * q + r)).foldl (fun acc r =>
    (List.range (32 * g.nt)).foldl (fun acc col =>
      let i := flatIndex n q (col / 32) r (col % 32)
      let x := chunkElem zero g v ra rb ch c (8 * q + r) col (acc.1.get 0 i)
      (acc.1.set 0 i x.1, acc.2 ||| x.2)) acc) acc

/-- The chunks of an operation's K extent. -/
def chunkCount (g : Geometry) (ch : Nat) : Nat := (g.k + ch - 1) / ch

/-- The quarters that have a lane in a mask. -/
def activeQuarters (nl : Nat) (m : Mask) : List Nat :=
  (List.range ((nl + 7) / 8)).filter fun q => (List.range 8).any fun r => decide (8 * q + r < nl) && Mask.has m (8 * q + r)

/-! ### acc.st (R197, R198) -/

/-- FMT of a control word. -/
def stFmt (ctl : Word) : Nat := ctl.toNat % 8
/-- RND of a control word. -/
def stRnd (ctl : Word) : Nat := ctl.toNat / 8 % 4
/-- The block length of a control word. -/
def stBlock (ctl : Word) : Nat := blockLen (ctl.toNat / 32 % 4)
/-- AUTO of a control word. -/
def stAuto (ctl : Word) : Bool := ctl.getLsbD 7
/-- S of a control word. -/
def stScale (ctl : Word) : Nat := ctl.toNat / 256 % 256
/-- OSH of a control word. -/
def stOsh (ctl : Word) : Nat := ctl.toNat / 2 ^ 16 % 8

/-- Bits of a stored element. -/
def stBits (ctl : Word) : Nat :=
  match stFmt ctl with
  | 1 => 16
  | 2 => 16
  | 3 => 8
  | 4 => 8
  | 5 => 4
  | _ => 32

/-- A control word keeps to the columns of R197, for rows of `n` columns. -/
def stCtlOk (ctl : Word) (n : Nat) : Bool :=
  let fmt := stFmt ctl
  let rnd := stRnd ctl
  let bl := ctl.toNat / 32 % 4
  decide (ctl.toNat < 2 ^ 19) && fmt != 7 && rnd != 3 && (fmt == 5 || stOsh ctl == 0)
    && (!stAuto ctl && bl != 0 || stScale ctl == 0) && (fmt != 5 || bl != 0)
    && (bl == 0 || (fmt == 3 || fmt == 4 || fmt == 5)) && (rnd == 0 || !(fmt == 0 || fmt == 6))
    && !(stAuto ctl && bl == 0) && decide (stBlock ctl ≤ n)

/-- The rounding mode of a control word in a row below NLANE; the others round under RNE (R198). -/
def stMode (ctl : Word) (below : Bool) : RMode :=
  if !below then .rne
  else
    match stRnd ctl with
    | 1 => .rz
    | 2 => .sr
    | _ => .rne

/-- The format that a floating-point FMT names. -/
def stTo : Nat → Fmt
  | 1 => .bf16
  | 2 => .f16
  | 3 => .f8a
  | _ => .f8b

/-- The exponent of a finite nonzero value's leading bit. -/
def FVal.expo : FVal → Option Int
  | .fin _ m e => if m = 0 then none else some (e + (m.log2 : Int))
  | _ => none

/-- The scale byte of a block under AUTO (R198). -/
def autoScale (fmt : Nat) (vals : List FVal) : Nat :=
  let off : Int := if fmt = 5 then 2 else if fmt = 3 then 7 else 14
  match vals.filterMap FVal.expo with
  | [] => 127
  | x :: xs => (max 0 (min 254 (xs.foldl max x - off + 127))).toNat

/-- A stored unit: its bit offset from the destination, its bits, how many, and the flags that it raises. -/
structure StUnit where
  off : Nat
  bits : Nat
  width : Nat
  flags : Flags
deriving DecidableEq, Repr

/-- One element outside Pip4 (R198); `scale` is none without scales. -/
def stElem (ctl : Word) (scale : Option Nat) (mode : RMode) (bits draw : Nat) : Nat × Flags :=
  match stFmt ctl with
  | 0 => (bits, 0)
  | 6 => (bits, 0)
  | f =>
    let x := Fmt.f32.value bits
    let k : Int := match scale with
      | none => 0
      | some s => 127 - (s : Int)
    let r := deliver (stTo f) { mode := mode, draw := draw } x.isSnan (x.scaleBy k).exact
    (r.bits, r.flags)

/-- One block of a row: the units of its elements from column `j0`, and its scale byte (R137, R198). -/
def stBlockUnits (ctl : Word) (rowBit j0 : Nat) (drawn : Bool) (vals : List (Word × Nat)) : List StUnit × Nat :=
  let fs := vals.map fun e => Fmt.f32.value e.1.toNat
  let scale := if stBlock ctl = 0 then none else some (if stAuto ctl then autoScale (stFmt ctl) fs else stScale ctl)
  let mode := stMode ctl drawn
  if stFmt ctl = 5 then
    let pairs := (List.range (vals.length / 2)).map fun i => ((fs[2 * i]?).getD (.fin false 0 0), (fs[2 * i + 1]?).getD (.fin false 0 0),
      ((vals[2 * i]?).map (·.2)).getD 0, ((vals[2 * i + 1]?).map (·.2)).getD 0, i)
    if fs.any FVal.isNan then
      (pairs.map fun p => ⟨rowBit + (j0 + 2 * p.2.2.2.2) * 4, 0x88, 8, flagIf (p.1.isSnan || p.2.1.isSnan) flagIV⟩, 255)
    else
      let k : Int := 127 - ((scale.getD 127 : Nat) : Int)
      (pairs.map fun p =>
        let r := pip4Pair mode (stOsh ctl) (p.1.scaleBy k) (p.2.1.scaleBy k) p.2.2.1 p.2.2.2.1
        ⟨rowBit + (j0 + 2 * p.2.2.2.2) * 4, r.bits, 8, r.flags⟩, scale.getD 127)
  else
    (((List.range vals.length).zip vals).map fun e =>
      let r := stElem ctl scale mode e.2.1.toNat e.2.2
      ⟨rowBit + (j0 + e.1) * stBits ctl, r.1, stBits ctl, r.2⟩, scale.getD 127)

/-- Every unit that an acc.st of an array writes: its elements row by row, then its scale bytes. `draws` are those taken at
issue, a row's columns in order, of the rows below NLANE. -/
def accStUnits (n q nl : Nat) (elems : Tbl Word) (ctl : Word) (draws : List Word) : List StUnit × List StUnit :=
  let cols := 32 * n
  let rows := 8 * q
  let bl := if stBlock ctl = 0 then cols else stBlock ctl
  let nb := (cols + bl - 1) / bl
  let blocks := (List.range rows).flatMap fun m => (List.range nb).map fun j =>
    let vals := ((List.range (min bl (cols - j * bl))).map fun i =>
      let col := j * bl + i
      (elems.get 0 (flatIndex n (m / 8) (col / 32) (m % 8) (col % 32)), ((draws[m * cols + col]?).getD 0).toNat))
    (m, j, stBlockUnits ctl (m * cols * stBits ctl) (j * bl) (decide (m < nl)) vals)
  (blocks.flatMap fun b => b.2.2.1,
    if stBlock ctl = 0 then []
    else blocks.map fun b => ⟨rows * cols * stBits ctl + (b.1 * nb + b.2.1) * 8, b.2.2.2, 8, 0⟩)

/-- A stored unit with the flat index of its last element, the bytes that it writes, and the elements it reads. -/
structure StWrite where
  at_ : Nat
  off : Nat
  data : List Byte
  reads : List Nat
  flags : Flags
deriving DecidableEq, Repr

/-- The writes of an acc.st: elements, or pairs of Pip4, and each scale byte with the last element of its block. -/
def stWrites (n q nl : Nat) (elems : Tbl Word) (ctl : Word) (draws : List Word) : List StWrite :=
  let cols := 32 * n
  let bl := if stBlock ctl = 0 then cols else stBlock ctl
  let nb := (cols + bl - 1) / bl
  let idx (m c : Nat) : Nat := flatIndex n (m / 8) (c / 32) (m % 8) (c % 32)
  let u := accStUnits n q nl elems ctl draws
  (u.1.map fun x =>
    let e := x.off / stBits ctl
    let i := idx (e / cols) (e % cols)
    { at_ := i, off := x.off / 8, data := leBytes (x.width / 8) x.bits, reads := if x.width = 8 ∧ stBits ctl = 4 then [i, i + 1] else [i]
      flags := x.flags : StWrite })
    ++ u.2.map fun x =>
      let b := x.off / 8 - 8 * q * cols * stBits ctl / 8
      let c := min (b % nb * bl + bl) cols - (if stBits ctl = 4 then 2 else 1)
      { at_ := idx (b / nb) c, off := x.off / 8, data := [BitVec.ofNat 8 x.bits], reads := [], flags := 0 : StWrite }

/-- The bytes that an acc.st spans (R197). -/
def accStSpan (n q : Nat) (ctl : Word) : Nat :=
  let cols := 32 * n
  let rows := 8 * q
  rows * cols * stBits ctl / 8 + (if stBlock ctl = 0 then 0 else rows * ((cols + stBlock ctl - 1) / stBlock ctl))

end Sys2Proof.Machine
end

