-- ==== Sys2Proof/Machine/Loads.lean ====
section
/-! DEFINITION. Who waits for a load of the instruction store, what LDINJ does to it, and when a crew's teams begin (R205, R206,
R210, R256, R260, R315, R320, R321, R448). -/

namespace Sys2Proof.Machine

/-! ### LDINJ (R315) -/

/-- LDINJ.ARM, COUNT, MASK and OFFSET. -/
def injArm (r : Word64) : Bool := r.getLsbD 32
/-- COUNT of LDINJ. -/
def injCount (r : Word64) : Nat := r.toNat / 2 ^ 24 % 256
/-- MASK of LDINJ. -/
def injMask (r : Word64) : Nat := r.toNat / 2 ^ 16 % 256
/-- OFFSET of LDINJ. -/
def injOffset (r : Word64) : Nat := r.toNat % 2 ^ 16

/-- A counted load: how it is altered, and LDINJ after it. -/
def injectLoad (r : Word64) : Option (Nat × Nat) × Word64 :=
  if !injArm r then (none, r)
  else if injCount r ≠ 0 then (none, r - 0x1000000)
  else (if injMask r = 0 then none else some (injOffset r, injMask r), r - 0x100000000)

/-- A decision reaches a load that shares its key. -/
def LoadReq.settle (key : Nat) (alter : Option (Nat × Nat)) (r : LoadReq) : LoadReq :=
  if r.inj = .undecided key then { r with inj := .decided alter } else r

/-- A decision reaches the queued and the saved loads that share its key (R321). -/
def State.settleLoads (s : State) (key : Nat) (alter : Option (Nat × Nat)) : State :=
  { s with
    subs := s.subs.map fun e => (e.1, { e.2 with loads := e.2.loads.map (LoadReq.settle key alter) })
    crews := s.crews.map fun e => (e.1, { e.2 with savedLoads := e.2.savedLoads.map (LoadReq.settle key alter) }) }

/-- The alteration of a counted load is decided as the load passes or its byte enters the half (R315). -/
def State.decideLoad (s : State) (r : LoadReq) : LoadReq × State :=
  match r.inj with
  | .undecided key =>
    let x := injectLoad (s.fn r.fn).ldinj
    ({ r with inj := .decided x.1 }, (s.modFn r.fn fun f => { f with ldinj := x.2 }).settleLoads key x.1)
  | _ => (r, s)

/-- The alteration of a load has been decided, and alters it. -/
def LoadReq.altered (r : LoadReq) : Bool :=
  match r.inj with
  | .decided (some _) => true
  | _ => false

/-- A load under way is given up: whether its alteration had been decided by then is free. -/
def State.giveUpLoad (s : State) (r : LoadReq) : LoadReq × State :=
  if r.started then
    let (b, s1) := s.takeBool
    if b then s1.decideLoad r else (r, s1)
  else (r, s)

/-! ### Who waits for a load -/

/-- The teams of the crews placed on a sub-core. -/
def State.teamsAt (s : State) (p : Nat × Nat) : List (Nat × Team) := s.teams.filter fun e => s.placeOf e.2 == some p

/-- A team holds a LOADING token that a load serves. -/
def Team.tokenWants (t : Team) (r : LoadReq) : Bool :=
  t.link.tokens.any fun k => (k.2.obj.map fun o => o.state == .loading && o.half == r.half && o.overlay == r.overlay).getD false

/-- A LOADING token of a team on a sub-core waits for a load (R206). -/
def State.tokensWant (s : State) (p : Nat × Nat) (r : LoadReq) : Bool :=
  (s.teamsAt p).any fun e => ((s.crews.find? e.2.crew).map Crew.set) == some r.set && e.2.tokenWants r

/-- A team on a sub-core is parked for a load, of its handler's overlay or not. -/
def State.parkedFor (s : State) (p : Nat × Nat) (r : LoadReq) (uid : Nat) (delivery : Bool) : Bool :=
  match s.teams.find? uid with
  | none => false
  | some t => s.placeOf t == some p && t.link.delivery.isSome == delivery &&
      match t.status with
      | .parked (.reload b n _) => b == r.half && n == r.overlay
      | _ => false

/-- A crew on a sub-core has a status. -/
def State.crewStands (s : State) (p : Nat × Nat) (c : Nat) (st : CrewStatus) : Bool :=
  match s.crews.find? c with
  | none => false
  | some cr => cr.place == some p && cr.status == st

/-- What a load was queued for still waits for it. -/
def State.loadWanted (s : State) (p : Nat × Nat) (r : LoadReq) : Bool :=
  match r.why with
  | .tokens => s.tokensWant p r
  | .demand u _ => s.parkedFor p r u false
  | .delivery u => s.parkedFor p r u true
  | .entry c => s.crewStands p c .filling
  | .restore c => s.crewStands p c .restoring

/-- The loads that stay once some have lost what they were queued for: one that LOADING tokens have attached to stays for
them, the others are given up. -/
def keepLoads (p : Nat × Nat) : List LoadReq → State → List LoadReq × State
  | [], s => ([], s)
  | r :: l, s =>
    if s.loadWanted p r then
      let (l1, s1) := keepLoads p l s
      (r :: l1, s1)
    else if s.tokensWant p r then
      let (l1, s1) := keepLoads p l s
      ({ r with why := .tokens } :: l1, s1)
    else keepLoads p l (s.giveUpLoad r).2

/-- Teams of a sub-core have gone, or wait no longer: the loads that nothing waits for go (R320, R321). -/
def State.pruneLoads (s : State) (p : Nat × Nat) : State :=
  let (l, s1) := keepLoads p (s.sub p).loads s
  s1.modSub p fun c => { c with loads := l }

/-! ### When a crew's teams begin (R256, R260, R448) -/

/-- Every crew of a launch with a lower index has begun. -/
def State.lowerStarted (s : State) (cr : Crew) : Bool :=
  (s.crewsOf cr.launch).all fun e => decide (cr.index ≤ e.2.index) || e.2.started

/-- A placed crew that waits for its overlays, or for the crews before it, waits no longer. -/
def State.crewDue (s : State) (c : Nat) (cr : Crew) : Bool :=
  match cr.place with
  | none => false
  | some p => (cr.status == .filling || cr.status == .restoring) && (cr.started || s.lowerStarted cr)
      && !(s.sub p).loads.any fun r => r.why == .entry c || r.why == .restore c

/-- The crews of a launch that wait no longer begin, by rising index. -/
def State.startDue (s : State) (launch : Nat) : State :=
  (s.crewsOf launch).foldl (fun s e =>
    match s.crews.find? e.1 with
    | none => s
    | some cr => if s.crewDue e.1 cr then s.modCrew e.1 fun c => { c with status := .running, started := true } else s) s

end Sys2Proof.Machine
end

