-- ==== Sys2Proof/Machine/Arbiters.lean ====
section
/-! DEFINITION. The shared arbiters: rates, buckets, lend pools, grants (R387 to R389, R392). -/

namespace Sys2Proof.Machine

/-- GUAR of a rate register. -/
def rateGuar (r : Word64) : Nat := r.toNat % 2 ^ 11
/-- BORROW. -/
def rateBorrow (r : Word64) : Bool := r.getLsbD 16
/-- DEPTH. -/
def rateDepth (r : Word64) : Nat := r.toNat / 2 ^ 20 % 16

/-- A rate register of a function. -/
def Fn.rate (f : Fn) (a : Nat) : Word64 := f.rates.get rateInit a

/-- An instance of an arbiter by number. -/
def State.arbiter (s : State) (i : Nat) : Arbiter := s.dev.arbiters.get {} i
/-- The rate in effect at an instance. -/
def Arbiter.rateOf (x : Arbiter) (v : Nat) : Word64 := x.rate.get rateInit v
/-- Tokens in a function's bucket. -/
def Arbiter.tokens (x : Arbiter) (v : Nat) : Nat := x.bucket.get 0 v
/-- T of a function. -/
def Arbiter.share (x : Arbiter) (k v : Nat) : Nat := rateGuar (x.rateOf v) * k / 1024

/-- The tier in which a function's request would be granted, if any. -/
def Arbiter.tier (x : Arbiter) (k v : Nat) : Option Nat :=
  let have_ := decide (0 < x.tokens v)
  if have_ && decide (x.granted.get 0 v < x.share k v) then some 1
  else if !have_ && x.lend.any fun e => e.1 == some v && decide (0 < e.2.2) then some 2
  else if have_ then some 3
  else if rateBorrow (x.rateOf v) && x.lend.any fun e => decide (0 < e.2.2) then some 4
  else none

/-- Take one token from the first lent entry that meets a condition. -/
def takeLent (f : Option Nat → Bool) : List (Option Nat × Nat × Nat) → List (Option Nat × Nat × Nat)
  | [] => []
  | (tag, age, n) :: l => if f tag && decide (0 < n) then (tag, age, n - 1) :: l else (tag, age, n) :: takeLent f l

/-- Grant a function in a tier: it consumes its token. -/
def Arbiter.grant (x : Arbiter) (v tier : Nat) : Arbiter :=
  let y := { x with granted := x.granted.set 0 v (x.granted.get 0 v + 1), last := x.last.insert tier v }
  match tier with
  | 2 => { y with lend := takeLent (· == some v) y.lend }
  | 4 =>
    if y.lend.any fun e => e.1 == none && decide (0 < e.2.2) then { y with lend := takeLent (· == none) y.lend }
    else { y with lend := takeLent (fun _ => true) y.lend }
  | _ => { y with bucket := y.bucket.set 0 v (y.tokens v - 1) }

/-- The function that an instance grants next among those that wait, and its tier: the first tier that has one, round robin
after the function last granted there. -/
def Arbiter.choose (x : Arbiter) (k : Nat) (waiting : List Nat) : Option (Nat × Nat) :=
  let inTier := fun n => waiting.filter fun v => x.tier k v == some n
  match List.find? (fun n => !(inTier n).isEmpty) [1, 2, 3, 4] with
  | none => none
  | some n =>
    let l := inTier n
    let pick :=
      match x.last.find? n with
      | some v => (List.find? (fun w => decide (v < w)) l).orElse fun _ => l.head?
      | none => l.head?
    pick.map fun v => (v, n)

/-- The start of a period at an instance (R389). -/
def Arbiter.refill (x : Arbiter) (k : Nat) (rates : Nat → Word64) : Arbiter :=
  let y : Arbiter := { x with
    rate := (List.range 32).foldl (fun t v => t.set rateInit v (rates v)) []
    lend := (x.lend.filter fun e => e.2.1 == 0).map fun e => (e.1, 1, e.2.2)
    granted := [] }
  let z := (List.range 32).foldl (fun (z : Arbiter) v =>
    let cap := rateDepth (z.rateOf v) * z.share k v
    let n := z.tokens v + z.share k v
    if cap < n then { z with bucket := z.bucket.set 0 v cap, lend := z.lend ++ [(some v, 0, n - cap)] }
    else { z with bucket := z.bucket.set 0 v n }) y
  let total := (List.range 32).foldl (fun n v => n + z.share k v) 0
  { z with lend := z.lend ++ [(none, 0, k - total)] }

/-- An arbiter meters a function: arbiters 0 to 2 only the rated ones. -/
def State.metered (s : State) (a v : Nat) : Bool := decide (3 ≤ a) || s.rated v

/-- The number of an instance of an arbiter. -/
def arbKey (a inst : Nat) : Nat := a + 16 * inst

/-- A function with GUAR 0 and BORROW 0 in effect at an instance of an arbiter, and no token left of an earlier rate there, is
never granted (R392). -/
def State.barred (s : State) (a inst v : Nat) : Bool :=
  let x := s.arbiter (arbKey a inst)
  s.metered a v && rateGuar (x.rateOf v) == 0 && !rateBorrow (x.rateOf v) && x.tokens v == 0
    && !x.lend.any fun e => e.1 == some v && decide (0 < e.2.2)

end Sys2Proof.Machine
end

