-- ==== Sys2Proof/Machine/Wire.lean ====
section
/-! DEFINITION. Links, planes, flits, and the messages that name no line (R429, R430, R433, R438). -/

namespace Sys2Proof.Machine

/-- A link of the package. -/
def State.link (s : State) (k : Nat) : Link := s.fab.links.get {} k
/-- Change a link. -/
def State.modLink (s : State) (k : Nat) (f : Link → Link) : State :=
  { s with fab := { s.fab with links := s.fab.links.insert k (f (s.link k)) } }
/-- A link carries traffic: it is up (R429). -/
def State.linkUp (s : State) (k : Nat) : Bool := (s.link k).state == 2

/-- Flits sent and not yet acknowledged, modulo 4,096 (R433). -/
def Link.outstanding (l : Link) : Nat := (l.txNext + 4096 - l.txAcked) % 4096
/-- A SEQ is outstanding. -/
def Link.holds (l : Link) (seq : Nat) : Bool := decide ((seq + 4096 - l.txAcked) % 4096 < l.outstanding)
/-- A link can take another flit. -/
def State.linkRoom (s : State) (k : Nat) : Bool := s.linkUp k && decide ((s.link k).outstanding < 4095)

/-- The link of a plane that a line takes: its own, or the survivor (R430). -/
def State.planeLink (s : State) (p raddr : Nat) : Option Nat :=
  if s.linkUp (2 * p) && s.linkUp (2 * p + 1) then some (2 * p + raddr / 1024 % 2)
  else if s.linkUp (2 * p) then some (2 * p)
  else if s.linkUp (2 * p + 1) then some (2 * p + 1)
  else none

/-- The plane that PLANEMAP gives a line (R429, R430). -/
def planeOf (map : Word64) (raddr : Nat) : Nat := map.toNat / 2 ^ (3 * (raddr / 128 % 8)) % 8

/-- The link that a request for a line takes, if its plane has one up (R430). -/
def State.route (s : State) (raddr : Nat) : Option Nat := s.planeLink (planeOf s.fab.planemap raddr) raddr

/-! ### Flits (R433) -/

/-- A flit: SEQ, ACK and KIND, 56 message bytes, and the CRC-32C of all of them. -/
def flitBytes (seq ack kind : Nat) (body : List Byte) : List Byte :=
  let l := leBytes 4 (seq % 4096 + ack % 4096 * 2 ^ 12 + kind % 16 * 2 ^ 24) ++ body
  l ++ leBytes 4 (crc32c l).toNat

/-- Send flits of a message: the first of the KIND given, the others continuations. The layout of messages in flits is not
architectural, so their bytes are free values. -/
def sendFlits (k : Nat) : Nat → Nat → State → State
  | _, 0, s => s
  | kind, n + 1, s =>
    let (b, s1) := s.takeBytes 56
    let l := s1.link k
    let f := flitBytes l.txNext l.rxNext kind b
    sendFlits k 2 n ((s1.modLink k fun l => { l with txNext := (l.txNext + 1) % 4096, retry := l.retry ++ [f] }).emit (.flit k f))

/-- Send a message on a link with room: as many flits as its layout takes, a free number within the retry buffer. -/
def State.sendMessage (s : State) (k : Nat) (m : OutMsg) : State :=
  let (n, s1) := s.takeNat
  (sendFlits k 1 (1 + n % (4095 - (s.link k).outstanding)) s1).emit m

/-- A flit that is no message: it takes no SEQ, and repeats the next one. -/
def State.sendNack (s : State) (k : Nat) : State :=
  s.emit (.flit k (flitBytes (s.link k).txNext (s.link k).rxNext 3 (List.replicate 56 0)))

/-! ### Messages that name no line (R430) -/

/-- The links that a message may take now: the function for which it goes is granted flits there (R387, R392). -/
def State.wireLinks (s : State) (w : Wire) : List Nat :=
  let open_ (v : Nat) : List Nat := (List.range 16).filter fun k => s.linkRoom k && !s.barred 3 k v
  match w with
  | .answer plane _ _ raddr _ => (s.planeLink plane raddr).toList.filter s.linkRoom
  | .group m => open_ m.gid.vf
  | .streamReset fn _ _ => open_ fn
  | .peerAsk fn .. => open_ fn
  | .peerServe fn .. => open_ fn

/-- Something can come from another package: the fabric is on, some link is up (R434), and boot has not failed, where the fabric
does not respond (R419). -/
def State.delivers (s : State) : Bool := s.fabValid && s.dev.phase != 15 && (List.range 16).any s.linkUp

/-- A plane delivers: one of its links is up (R430, R434). -/
def State.planeDelivers (s : State) (p : Nat) : Bool :=
  s.fabValid && s.dev.phase != 15 && decide (p < 8) && (s.linkUp (2 * p) || s.linkUp (2 * p + 1))

/-- Send a message if it waits and can go: on any link that is up, as the device chooses. -/
def State.launchWire (s : State) (w : WireMsg) : State × WireMsg :=
  if w.link.isSome || !s.fabValid then (s, w)
  else
    match s.pick (s.wireLinks w.body) with
    | (none, _) => (s, w)
    | (some k, s1) =>
      let s2 := s1.sendMessage k (.wire k w.body)
      let w1 : WireMsg := { body := w.body, link := some k, last := ((s2.link k).txNext + 4095) % 4096 }
      (s2, w1)

/-- Send every message that waits and can go, oldest first. -/
def sendWires (s : State) : List WireMsg → State × List WireMsg
  | [] => (s, [])
  | w :: l =>
    let (s1, w1) := s.launchWire w
    let (s2, l2) := sendWires s1 l
    (s2, w1 :: l2)

/-- Messages that wait take their links. -/
def State.flushWires (s : State) : State :=
  let (s1, l) := sendWires s s.fab.wires
  { s1 with fab := { s1.fab with wires := l } }

/-- Make a message. -/
def State.sendWire (s : State) (w : Wire) : State :=
  let m : WireMsg := { body := w }
  State.flushWires { s with fab := { s.fab with wires := s.fab.wires ++ [m] } }

/-- Send a group message: one for the package's own node comes back to it in its turn. -/
def State.sendGroup (s : State) (m : GroupMsg) : State :=
  if m.dst = s.node then s.later (.message m) else s.sendWire (.group m)

/-! ### Streams (R438) -/

/-- The stream of a function towards a node. -/
def State.stream (s : State) (fn node : Nat) : TxStream := s.fab.streams.get {} (fn * 1024 + node)
/-- Change a stream. -/
def State.modStream (s : State) (fn node : Nat) (f : TxStream → TxStream) : State :=
  { s with fab := { s.fab with streams := s.fab.streams.insert (fn * 1024 + node) (f (s.stream fn node)) } }

end Sys2Proof.Machine
end

