-- ==== Sys2Proof/Machine/Partition.lean ====
section
/-! DEFINITION. Which function holds what: boards, slices, descheduling, interrupts, arbiters (R372, R378, R387 to R398, R414). -/

namespace Sys2Proof.Machine

/-! ### Boards (R372) -/

/-- MODE of a BRDCFG value. -/
def brdMode (v : Word64) : Nat := v.toNat / 2 ^ 28 % 4
/-- SPLIT. -/
def brdSplit (v : Word64) : Nat := v.toNat / 2 ^ 16 % 4
/-- VFA. -/
def brdVfa (v : Word64) : Nat := v.toNat % 32
/-- VFB. -/
def brdVfb (v : Word64) : Nat := v.toNat / 2 ^ 8 % 32
/-- SLA. -/
def brdSla (v : Word64) : Nat := v.toNat / 2 ^ 20 % 16
/-- SLB. -/
def brdSlb (v : Word64) : Nat := v.toNat / 2 ^ 24 % 16

/-- A BRDCFG value gives its board to a function. -/
def brdHeldBy (c : Word64) (v : Nat) : Bool :=
  (brdMode c == 1 && brdVfa c == v) || (brdMode c == 2 && (brdVfa c == v || brdVfb c == v))

/-- A crew may stay on a board under a BRDCFG value: its function keeps the board, and the split mode is its own (R373). -/
def State.crewStays (s : State) (c : Word64) (cr : Crew) : Bool :=
  (brdHeldBy c cr.fn || (brdMode c == 3 && s.rated cr.fn)) && brdSplit c == cr.split

/-- The crews placed on a board. -/
def State.boardCrews (s : State) (i : Nat) : List (Nat × Crew) :=
  s.crews.filter fun e => (e.2.place.map fun p => p.1 / 8) == some i

/-- A value written to a board waits for crews to stop (R373). -/
def State.brdMoving (s : State) (i : Nat) : Bool :=
  match s.dev.brdPending.find? i with
  | none => false
  | some c => (s.boardCrews i).any fun e => !s.crewStays c e.2

/-- BRDCFG of a board, as it governs: a value written last governs once the last crew that it moves has stopped (R373). -/
def State.brd (s : State) (i : Nat) : Word64 :=
  match s.dev.brdPending.find? i with
  | none => s.dev.brdcfg.get 0 i
  | some c => if s.brdMoving i then s.dev.brdcfg.get 0 i else c

/-- The boards a function holds. -/
def State.boardsOf (s : State) (v : Nat) : List Nat := (List.range 24).filter fun i => brdHeldBy (s.brd i) v

/-- The board of a core (R8). -/
def boardOf (core : Nat) : Nat := core / 8

/-- The functions of a sliced board's value, VFA and VFB. -/
def brdPair (c : Word64) : Nat × Nat := (brdVfa c, brdVfb c)

/-- The round of a board under the value that governs it: none has begun until a slice begins between its functions (R373,
R378). -/
def State.slice (s : State) (i : Nat) : Slice :=
  let x := s.dev.slices.get {} i
  if brdMode (s.brd i) = 2 ∧ x.pair = some (brdPair (s.brd i)) then x else {}

/-- Change the slice of a board. -/
def State.putSlice (s : State) (b : Nat) (x : Slice) : State := { s with dev := { s.dev with slices := s.dev.slices.insert b x } }

/-- The round of a board under a value stands at a slice, which runs or does not. -/
def State.setSlice (s : State) (b : Nat) (c : Word64) (pos : Nat) (running : Option Nat) : State :=
  s.putSlice b { pos := pos, running := running, pair := some (brdPair c) }

/-- The function whose slice runs on a sliced board. -/
def State.sliceVf (s : State) (i : Nat) : Option Nat := (s.slice i).running

/-- A function holds a pool sub-core: a crew of it is placed on a MODE 3 board. -/
def State.onPool (s : State) (v : Nat) : Bool :=
  s.crews.any fun e => e.2.fn == v &&
    match e.2.place with
    | some p => brdMode (s.brd (boardOf p.1)) == 3
    | none => false

/-- A function is descheduled: it holds boards, all of them are sliced and outside its slices, and it holds no pool sub-core
(R397). -/
def State.descheduled (s : State) (v : Nat) : Bool :=
  !(s.boardsOf v).isEmpty && !s.onPool v &&
    (s.boardsOf v).all fun i => brdMode (s.brd i) == 2 && s.sliceVf i != some v

/-! ### Interrupts (R397, R414) -/

/-- Send an MSI-X message, or leave its vector pending while the host masks it (R414). -/
def State.sendMsi (s : State) (v vec : Nat) : State :=
  if (s.fn v).masked.contains vec then
    s.modFn v fun f => { f with pending := if f.pending.contains vec then f.pending else f.pending ++ [vec] }
  else s.emit (.msix v vec)

/-- Assert a vector of a function: a message, or a pending bit while the function is descheduled. -/
def State.msi (s : State) (v vec : Nat) : State :=
  if s.descheduled v then
    s.modFn v fun f => { f with msix := if f.msix.contains vec then f.msix else f.msix ++ [vec] }
  else s.sendMsi v vec

/-- The host masks a vector, or unmasks it: what pended is sent, unless its function is descheduled (R397). -/
def State.maskVector (s : State) (v vec : Nat) (on : Bool) : State :=
  if on then s.modFn v fun f => { f with masked := if f.masked.contains vec then f.masked else f.masked ++ [vec] }
  else
    let s1 := s.modFn v fun f => { f with masked := f.masked.filter (· != vec), pending := f.pending.filter (· != vec) }
    if (s.fn v).pending.contains vec then s1.msi v vec else s1

/-! ### What answers, and what is under test (R409, R419) -/

/-- What the host does to the device, which in FAILED does not respond: DEVSTAT, DEVRST and the management port alone do (R419). -/
def State.hostActs (s : State) (f : State → State) : State := if s.dev.phase = 15 then s else f s

/-- One of the sixteen translation cores, not under test (R409). -/
def State.translator (s : State) (core : Nat) : Bool := decide (core < 16) && !s.dev.testing.contains { kind := 10, num := core }

/-- The slice group of a pseudo-channel (unit 1) or an L2 slice (unit 2). -/
def unitGroup (u : UnitId) : Nat := if u.kind = 1 then u.num / 32 else u.num / 8

/-- A slice group waits for the test of a pseudo-channel or a slice of its (R409). -/
def State.groupTested (s : State) (g : Nat) : Bool :=
  s.dev.testing.any fun u => (u.kind == 1 || u.kind == 2) && unitGroup u == g

/-- A slice group is in service: not retired, and none of its units under test (R411, R412). -/
def State.groupServes (s : State) (g : Nat) : Bool := !s.dev.retiredGroups.get false g && !s.groupTested g
/-- How many slice groups are in service. -/
def State.sgroups (s : State) : Nat := ((List.range 16).filter s.groupServes).length
/-- TCSIZE: the bytes of the translation cache (R322). -/
def State.tcsize (s : State) : Nat := s.dev.tcshare * s.sgroups

/-- An access at a place waits: its slice group is under test (R409). -/
def State.waitsTest (s : State) (p : Place) : Bool :=
  match p with
  | .gpa f a =>
    match s.stage2 f a with
    | some k => s.groupTested (k / 2 ^ 35)
    | none => false
  | _ => false

/-- An access of a function to device memory needs a burst of a pool pseudo-channel, which the function is never granted (R387,
R392): the channel of an address and whether the L2 slice serves it without a burst are free values (log entry 90). -/
def State.burstWaits (s : State) (fn k : Nat) : Bool :=
  s.barred 2 (32 * (k / 2 ^ 35) + Config.burstChannel (k / 64) % 32) fn && !Config.sliceServes (k / 64)

/-- An access of a function at a place waits: its slice group is under test (R409), or it needs a burst or a host link that the
function is never granted (R392). -/
def State.placeWaits (s : State) (fn : Nat) (p : Place) : Bool :=
  s.waitsTest p ||
    match p with
    | .host _ => s.barred 4 0 fn
    | .gpa f a => ((s.stage2 f a).map (s.burstWaits fn)).getD false
    | _ => false

/-! ### Arbiters (R387) -/

/-- The capacity of one instance of an arbiter, in tokens each period: 1,024, or 1,024 for each pool sub-core at arbiter 0. -/
def State.arbCapacity (s : State) (a : Nat) : Nat :=
  if a = 0 then
    1024 * ((List.range 24).filter fun i => brdMode (s.brd i) == 3).foldl (fun n i => n + 8 * 2 ^ brdSplit (s.brd i)) 0
  else 1024

end Sys2Proof.Machine
end

