-- ==== Sys2Proof/Machine/Requests.lean ====
section
/-! DEFINITION. The page-request queue and its rings (R354, R355, R357, R394, R395). -/

namespace Sys2Proof.Machine

/-- An address of a root register or of an entry: bits [55:12]. -/
def pageBits (e : Nat) : Nat := e / 4096 % 2 ^ 44 * 4096

/-! ### Rings (R354, R355, R394) -/

/-- LOG2N of a page-request ring base. -/
def prqLog (base : Word64) : Nat := base.toNat % 16
/-- A ring has a place. -/
def prqRoom (base head tail : Word64) : Bool :=
  base != 0 && decide ((tail.toNat + 65536 - head.toNat) % 65536 < 2 ^ prqLog base)

/-- The 32 bytes of a page-request record. -/
def PageReq.bytes (r : PageReq) (entry gen : Nat) : List Byte :=
  leBytes 8 r.va ++ leBytes 8 r.gpa.toNat ++ leBytes 2 (entry + 1024 * gen) ++ leBytes 1 r.kind ++ leBytes 1 r.rep
    ++ leBytes 1 r.fn ++ leBytes 3 0 ++ leBytes 8 r.serial.toNat

/-- The place of the next record of a ring, while it has one: the guest's through stage 2, the hypervisor's in host memory. -/
def State.ringNext (s : State) (v kind : Nat) : Option Place :=
  if kind = 2 then
    if prqRoom s.dev.hbase s.dev.hhead s.dev.htail then
      some (.host (pageBits s.dev.hbase.toNat + 32 * (s.dev.htail.toNat % 2 ^ prqLog s.dev.hbase)))
    else none
  else
    let f := s.fn v
    let a := pageBits f.prqbase.toNat + 32 * (f.prqtail.toNat % 2 ^ prqLog f.prqbase)
    if prqRoom f.prqbase f.prqhead f.prqtail && (s.stage2 v a).isSome then some (.gpa v a) else none

/-- The place of the next record of a ring, where it can be written now: its slice group is not under test (R409), and the host link
is granted to the function (R392). -/
def State.ringPlace (s : State) (v kind : Nat) : Option Place := (s.ringNext v kind).filter fun p => !s.placeWaits v p

/-- The function of the request in a queue entry. -/
def State.requester (s : State) (e : Nat) : Option Nat := ((s.dev.prq.find? e).bind PrqEntry.req).map PageReq.fn

/-- The records held for a ring that a function's next record follows: of the hypervisor's, not those of another function that is
never granted the host link (R392). -/
def State.heldBefore (s : State) (v kind : Nat) : List Nat :=
  if kind = 2 then s.dev.hheld.filter fun e => s.requester e == some v || !((s.requester e).map fun w => s.barred 4 0 w).getD false
  else (s.fn v).ringHeld

/-- Write the record of an entry, or hold it behind those already held. -/
def State.writeRecord (s : State) (e : Nat) : State :=
  match s.dev.prq.find? e with
  | none => s
  | some p =>
    match p.req with
    | none => s
    | some r =>
      match (if (s.heldBefore r.fn r.kind).isEmpty then s.ringPlace r.fn r.kind else none) with
      | some pl =>
        let s1 := s.writeBytes pl (r.bytes e p.gen)
        let s2 := { s1 with dev := { s1.dev with prq := s1.dev.prq.modify e fun p => { p with written := true } } }
        if r.kind = 2 then
          { s2 with dev := { s2.dev with htail := BitVec.ofNat 64 ((s2.dev.htail.toNat + 1) % 65536) } }.msi 0 2
        else
          (s2.modFn r.fn fun f => { f with prqtail := BitVec.ofNat 64 ((f.prqtail.toNat + 1) % 65536) }).msi r.fn 0
      | none =>
        if r.kind = 2 then { s with dev := { s.dev with hheld := s.dev.hheld ++ [e] } }
        else s.modFn r.fn fun f => { f with ringHeld := f.ringHeld ++ [e] }

/-- Write the records that a ring holds back, in order, as far as they go. -/
def State.flushRing (s : State) (v kind : Nat) : State :=
  let held := if kind = 2 then s.dev.hheld else (s.fn v).ringHeld
  let s1 := if kind = 2 then { s with dev := { s.dev with hheld := [] } } else s.modFn v fun f => { f with ringHeld := [] }
  held.foldl State.writeRecord s1

/-- Write what the page-request rings hold back, as far as it goes. -/
def State.flushRings (s : State) : State := ((List.range 32).foldl (fun s v => s.flushRing v 1) s).flushRing 0 2

/-! ### Queue entries (R395) -/

/-- A function's requests that hold an entry of a class. -/
def State.prqHeld (s : State) (v : Nat) (shared : Bool) : Nat :=
  (s.dev.prq.filter fun e => e.2.shared == shared && (e.2.req.map PageReq.fn) == some v).length

/-- Free a queue entry; its generation moves on at its next use. -/
def State.freeEntry (s : State) (e : Nat) : State :=
  { s with
    dev := { s.dev with
      prq := s.dev.prq.modify e fun p => { p with req := none, written := false, answer := none }
      hheld := s.dev.hheld.filter (· != e) } }

/-- Change a team's parked probe. -/
def State.modProbe (s : State) (uid : Nat) (f : ProbeState → ProbeState) : State :=
  s.modTeam uid fun t => { t with link := { t.link with probe := t.link.probe.map f } }

/-- Set how the walk of a probe's page stands. -/
def ProbeState.setPage (p : ProbeState) (va : Nat) (st : PageState) : ProbeState :=
  { p with pages := p.pages.map fun e => if e.1 = va then (va, st) else e }

/-- Give a request a queue entry; which free entry is the device's choice. -/
def State.takeEntry (s : State) (r : PageReq) (shared : Bool) : State :=
  let (i, s1) := s.takeNat
  let free := (List.range 1024).filter fun e => ((s1.dev.prq.find? e).bind PrqEntry.req).isNone
  match free[i % free.length]? with
  | none => s1
  | some e =>
    let gen := match s1.dev.prq.find? e with
      | none => 0
      | some p => (p.gen + 1) % 64
    let s2 := { s1 with dev := { s1.dev with prq := s1.dev.prq.insert e { gen := gen, req := some r, shared := shared } } }
    (s2.modProbe r.uid fun p => p.setPage r.va (.requested e)).writeRecord e

/-- Give the function's waiting requests its reserved entries, oldest first. -/
def serveReserved (v : Nat) : Nat → State → State
  | 0, s => s
  | n + 1, s =>
    match (s.fn v).prqWait with
    | [] => s
    | r :: l =>
      if s.prqHeld v false < 16 then
        serveReserved v n ((s.modFn v fun f => { f with prqWait := l }).takeEntry r false)
      else s

/-- Serve what a freed reserved entry may serve. -/
def State.serve (s : State) (v : Nat) : State := serveReserved v 16 s

/-- Make a page request (R354). -/
def State.makeRequest (s : State) (r : PageReq) : State :=
  let s1 := s.modFn r.fn fun f => { f with prqWait := f.prqWait ++ [r], vprq := f.vprq + 1 }
  (s1.modProbe r.uid fun p => p.setPage r.va (.waiting r.rep r.kind r.gpa)).serve r.fn

/-- End the request that an entry holds: the entry is free, and a held record of it is dropped. -/
def State.endRequest (s : State) (v e : Nat) : State :=
  let s1 := s.freeEntry e
  (s1.modFn v fun f => { f with ringHeld := f.ringHeld.filter (· != e) }).serve v

/-- PRQ of QUOTA. -/
def Fn.prqQuota (f : Fn) : Nat := f.quota.toNat / 2 ^ 16 % 256

/-- The functions whose oldest waiting request may take a shared entry. -/
def State.sharedWaiters (s : State) : List Nat :=
  if 512 ≤ (s.dev.prq.filter fun e => e.2.shared && e.2.req.isSome).length then []
  else (List.range 32).filter fun v =>
    !(s.fn v).prqWait.isEmpty && decide (16 ≤ s.prqHeld v false) && decide (s.prqHeld v true < (s.fn v).prqQuota)

/-- Withdraw the requests of a team: those that wait, and those that hold an entry; the entries freed serve the function's
other waiting requests (R357, R395). -/
def State.withdraw (s : State) (v uid : Nat) : State :=
  let s1 := s.modFn v fun f => { f with prqWait := f.prqWait.filter fun r => r.uid != uid }
  let mine := (s1.dev.prq.filter fun e => (e.2.req.map PageReq.uid) == some uid).map (·.1)
  let s2 := mine.foldl State.freeEntry s1
  (s2.modFn v fun f => { f with ringHeld := f.ringHeld.filter fun e => !mine.contains e }).serve v

end Sys2Proof.Machine
end

