-- ==== Sys2Proof/Machine/Trap.lean ====
section
/-! DEFINITION. Taking an exception and what a fatal one does: delivery, kills, teardown (R57, R239, R240, R341 to R348, R357). -/

namespace Sys2Proof.Machine

/-! ### Trace records (R365 to R367) -/

/-- TRCTL.EN. -/
def Fn.tracing (f : Fn) : Bool := f.trctl.getLsbD 0
/-- TRCTL.LOSSLESS. -/
def Fn.lossless (f : Fn) : Bool := f.trctl.getLsbD 1
/-- TRCTL.MARKS. -/
def Fn.marks (f : Fn) : Bool := f.trctl.getLsbD 2
/-- TRCTL.DETAIL. -/
def Fn.detail (f : Fn) : Bool := f.trctl.getLsbD 3

/-- Records the trace ring holds. -/
def Fn.ringSize (f : Fn) : Nat := 2 ^ (f.trbase.toNat % 32)
/-- The ring has a free place (R365). -/
def Fn.ringFree (f : Fn) : Bool :=
  decide ((f.trtail.toNat + 2 ^ 32 - f.trhead.toNat) % 2 ^ 32 < f.ringSize)

/-- The native bundle address of a record: the half, and an offset in it that is a free value within the half of its split mode
(R318, R329). -/
def TraceRec.native (r : TraceRec) (n : Nat) : Nat := (if r.bank = .b then 2 ^ 17 else 0) + n % (2 ^ 17 / 2 ^ r.split)

/-- The native slot number of a record: a free value, below 16 in whole mode and below fewer in the narrower modes (R329). -/
def TraceRec.slot (r : TraceRec) (n : Nat) : Nat := n % (16 - r.split)

/-- The 32 bytes of a record (R366), its native slot and address drawn from a free value. -/
def TraceRec.bytes (r : TraceRec) (n : Nat) : List Byte :=
  leBytes 4 (r.kind % 256 + 256 * (r.team % 4) + 2 ^ 16 * r.slot n) ++ leBytes 4 r.crew ++ leBytes 4 r.vpc
    ++ leBytes 4 (r.native (n / 16)) ++ leBytes 8 r.cyc.toNat ++ leBytes 8 r.data.toNat

/-- The place of the next record of a trace ring. -/
def Fn.ringAt (f : Fn) : Nat := f.trbase.toNat / 4096 * 4096 + 32 * (f.trtail.toNat % f.ringSize)

/-- The next record of a trace ring waits: its slice group is under test, or its burst is never granted (R392, R409). -/
def State.ringWaits (s : State) (v : Nat) : Bool := s.placeWaits v (.gpa v (s.fn v).ringAt)

/-- Write one record at TRTAIL; a failed stage-2 check clears EN and writes nothing (R365). -/
def State.putRecord (s : State) (v : Nat) (r : TraceRec) : State :=
  let a := (s.fn v).ringAt
  match s.stage2 v a with
  | none => s.modFn v fun f => { f with trctl := f.trctl &&& ~~~1 }
  | some _ =>
    let (native, s1) := s.takeNat
    let s2 := s1.writeBytes (.gpa v a) (r.bytes native)
    s2.modFn v fun f => { f with trtail := BitVec.ofNat 64 ((f.trtail.toNat + 1) % 2 ^ 32) }

/-- Once the ring has a place again after records were dropped, a loss record goes before the next one (R366, R367). -/
def State.lossRecord (s : State) (v : Nat) (r : TraceRec) : State :=
  if (s.fn v).trDropped ≠ 0 ∧ (s.fn v).ringFree ∧ s.ringWaits v = false then
    (s.putRecord v { r with kind := 8, data := BitVec.ofNat 64 (s.fn v).trDropped }).modFn v fun f => { f with trDropped := 0 }
  else s

/-- Write a record if the ring has a place; one that finds none is dropped and counted, or waits in lossless mode (R367). One whose
place is under test waits in either mode (R409), and every later one behind it. -/
def State.traceRecord (s : State) (v : Nat) (r : TraceRec) : State :=
  if !(s.fn v).tracing then s
  else if !(s.fn v).trWait.isEmpty then s.modFn v fun f => { f with trWait := f.trWait ++ [r] }
  else
    let s1 := s.lossRecord v r
    if (s1.fn v).ringFree && !s1.ringWaits v then s1.putRecord v r
    else if (s1.fn v).lossless || (s1.fn v).ringFree then s1.modFn v fun f => { f with trWait := f.trWait ++ [r] }
    else s1.modFn v fun f => { f with trDropped := f.trDropped + 1, vtrlost := f.vtrlost + 1 }

/-- The trace records of a function that wait are written, or wait on, or in lossy mode are dropped, as new ones would be (R367). -/
def State.drainTrace (s : State) (v : Nat) : State :=
  (s.fn v).trWait.foldl (fun s r => s.traceRecord v r) (s.modFn v fun f => { f with trWait := [] })

/-- A count of cycles that have passed: moved on by an amount, at least one, that does not wrap. -/
def passCycles (c : Word64) (n : Nat) : Word64 :=
  let room := 2 ^ 64 - 1 - c.toNat
  if room = 0 then c else c + BitVec.ofNat 64 (1 + n % room)

/-- A count that has gone on by an amount, perhaps none, that does not wrap (log entry 102). -/
def countedOn (c : Word64) (n : Nat) : Word64 := c + BitVec.ofNat 64 (n % (2 ^ 64 - c.toNat))

/-- The cycle count of a core, moved on by a free amount (R105, R367). -/
def State.tickCore (s : State) (core : Nat) : Word64 × State :=
  let (n, s1) := s.takeNat
  let c := passCycles (s.cycles.get 0 core) n
  (c, { s1 with cycles := s1.cycles.set 0 core c })

/-- The core on which a team runs. -/
def State.coreOf (s : State) (t : Team) : Nat := ((s.placeOf t).map (·.1)).getD 0

/-- Record an event of a team at a cycle count (R366). -/
def State.traceAt (s : State) (t : Team) (kind vpc : Nat) (data cyc : Word64) : State :=
  s.traceRecord (s.fnOf t) { kind := kind, team := t.index, crew := ((s.crews.find? t.crew).map Crew.index).getD 0, vpc := vpc
                             cyc := cyc, data := data, place := s.placeOf t
                             bank := t.ctl.bank, split := ((s.crews.find? t.crew).map Crew.split).getD 0 }

/-- Record an event of a team (R366). -/
def State.traceTeam (s : State) (t : Team) (kind vpc : Nat) (data : Word64) : State :=
  if !(s.fn (s.fnOf t)).tracing then s
  else
    let (cyc, s1) := s.tickCore (s.coreOf t)
    s1.traceAt t kind vpc data cyc

/-! ### Transaction groups aborted (R218, R357, R399) -/

/-- The identity of a group of this package. -/
def State.gid (s : State) (num : Nat) (g : Group) : GroupId := { origin := s.node, vf := g.fn, number := num }

/-- Destinations that hold, or may hold, a record of the group. -/
def Group.live (g : Group) : List Nat := (g.dests.filter fun d => d.2.st != .lost).map (·.1)

/-- Change a group at its origin. -/
def State.modGroup (s : State) (num : Nat) (f : Group → Group) : State :=
  { s with fab := { s.fab with groups := s.fab.groups.modify num f } }

/-- A group's outcome has been taken, or is discarded: its number stays in use while a lost destination may hold a record
(R439). -/
def State.takeGroup (s : State) (num : Nat) : State :=
  match s.fab.groups.find? num with
  | none => s
  | some g =>
    if g.phase = .done ∧ !(g.dests.any fun d => d.2.st == .lost) then
      { s with fab := { s.fab with groups := s.fab.groups.erase num } }
    else s.modGroup num fun g => { g with freed := true }

/-- COMMIT or ABORT goes to every destination, once each has answered its PREPARE or is lost (R443). -/
def State.tellGroup (s : State) (num : Nat) : State :=
  match s.fab.groups.find? num with
  | none => s
  | some g =>
    if g.told || g.dests.any fun d => d.2.st == .asked then s
    else
      let s1 := s.modGroup num fun g => { g with told := true }
      match g.phase with
      | .committed => g.live.foldl (fun s d =>
          let s2 := if d = s.node then s else s.modStream g.fn d fun x => { x with sent := (x.sent + 1) % 2 ^ 32 }
          s2.sendGroup { gid := s.gid num g, src := s.node, dst := d, body := .commit }) s1
      | .aborted => g.live.foldl (fun s d => s.sendGroup { gid := s.gid num g, src := s.node, dst := d, body := .abort g.reason }) s1
      | _ => s

/-- Decide a group ABORTED; with no destination that may hold a record it is DONE at once (R214, R443). -/
def State.abortGroup (s : State) (num : Nat) (reason : Nat) (node : Option Nat) : State :=
  match s.fab.groups.find? num with
  | none => s
  | some g =>
    let phase := if g.live.isEmpty then .done else .aborted
    let s1 := s.modGroup num fun g => { g with phase := phase, outcome := 2, reason := reason, node := node }
    if g.live.isEmpty then (if g.freed then s1.takeGroup num else s1) else s1.tellGroup num

/-- A team is gone: its open groups abort with a reason, the outcome of the others is discarded (R204, R357). -/
def State.dropGroups (s : State) (uid reason : Nat) : State :=
  (s.fab.groups.filter fun e => e.2.uid == uid && !e.2.freed).foldl (fun s e =>
    let s1 := s.modGroup e.1 fun g => { g with freed := true }
    if e.2.phase = .open_ then s1.abortGroup e.1 reason none
    else if e.2.phase = .done then s1.takeGroup e.1
    else s1) s

/-- Every access of a team that precedes its tg.commit has completed (R443); of a team that is gone, every request. -/
def State.groupQuiet (s : State) (g : Group) : Bool :=
  match s.teams.find? g.uid with
  | none => !s.fab.requests.any fun r => r.uid == g.uid
  | some t => t.eng.fabric.all fun o => o.pending == 0 || decide (g.upto < o.idx)

/-- A preparing group is COMMITTED once every destination is READY and the team's earlier accesses are complete (R443). -/
def State.decideGroup (s : State) (num : Nat) : State :=
  match s.fab.groups.find? num with
  | none => s
  | some g =>
    if g.phase = .preparing && (g.dests.all fun d => d.2.st == .ready) && s.groupQuiet g then
      if g.dests.isEmpty then
        let s1 := s.modGroup num fun g => { g with phase := .done, outcome := 1 }
        if g.freed then s1.takeGroup num else s1
      else (s.modGroup num fun g => { g with phase := .committed, outcome := 1 }).tellGroup num
    else s

/-- The preparing groups of a team are decided that can be (R443). -/
def State.decideGroups (s : State) (uid : Nat) : State :=
  (s.fab.groups.filter fun e => e.2.uid == uid).foldl (fun s e => s.decideGroup e.1) s

/-! ### Teardown (R239, R357) -/

/-- Old or new: the units of a torn-down acc.st are stored or not, unit by unit (R357). -/
def tearUnits (dst : Place) (s : State) : List StWrite → State
  | [] => s
  | u :: l =>
    let (b, s1) := s.takeBool
    tearUnits dst (if b && !dst.remote then s1.writeBytes (dst.add u.off) u.data else s1) l

/-- Abandon one matrix operation of a team: its array goes with the crew; an acc.st has written each unit that it has not yet
stored, or not. -/
def State.abandonMat (s : State) (t : Team) (m : MatOp) : State :=
  match m.kind with
  | .mma .. => s
  | .accSt dst ctl draws =>
    if m.done || m.sent then s
    else
      match m.read.orElse fun _ => (t.eng.arrays.find? m.array).bind SlotOf.obj with
      | none => s
      | some a => tearUnits dst.place s
          ((stWrites a.n ((t.nlane + 7) / 8) t.nlane a.elems ctl draws).filter fun w => decide (m.progress ≤ w.at_))

/-- A request writes a stamp: one that has not been sent when its team is torn down is never written (R357). -/
def FabReq.stamps (r : FabReq) : Bool :=
  match r.use with
  | .stamp _ => true
  | _ => false

/-- The requests of a team that is gone and that no link has taken are performed at their target or not (R357). -/
def tearRequests (uid : Nat) : List FabReq → State → List FabReq × State
  | [], s => ([], s)
  | r :: l, s =>
    let (keep, s1) := if r.uid == uid && r.link.isNone then s.takeBool else (true, s)
    let (l1, s2) := tearRequests uid l s1
    (if keep && !(r.uid == uid && r.link.isNone && r.stamps) then r :: l1 else l1, s2)

/-- Tear a team down: requests withdrawn, engine operations abandoned, groups aborted, the team gone. -/
def State.tearTeam (s : State) (uid : Nat) (t : Team) (reason : Nat) : State :=
  let v := s.fnOf t
  let s1 := s.withdraw v uid
  let s2 := t.eng.flying.foldl State.abandonCopy s1
  let s3 := t.eng.mats.foldl (fun s m => s.abandonMat t m) s2
  let s4 := s3.dropGroups uid reason
  let (l, s5) := tearRequests uid s4.fab.requests s4
  State.decideGroups { s5 with teams := s5.teams.erase uid, fab := { s5.fab with requests := l } } uid

/-- A team of a crew that goes: one that has retired leaves nothing in flight but stores already counted, which still go out
(R240, R255); any other is torn down (R357). -/
def State.endTeam (s : State) (uid : Nat) (t : Team) (reason : Nat) : State :=
  if t.status = .retired then { s with teams := s.teams.erase uid } else s.tearTeam uid t reason

/-- A crew is gone: its teams ended, its contexts released, what was loaded for it alone given up; its launch counts it, and
a later crew that waited for it to begin may begin. -/
def State.tearCrew (s : State) (c : Nat) (reason : Nat) : State :=
  match s.crews.find? c with
  | none => s
  | some cr =>
    let flags := (s.teamsOf c).foldl (fun f e => f ||| e.2.regs.nflags) 0
    let uids := (s.teamsOf c).map (·.1)
    let s1 := (s.teamsOf c).foldl (fun s e => s.endTeam e.1 e.2 reason) s
    let s2 := s1.modLaunch cr.launch fun l => { l with retired := l.retired + 1, flags := l.flags ||| flags }
    let s3 := { s2 with crews := s2.crews.erase c }
    let s4 := match cr.place with
      | none => s3
      | some p => (s3.modSub p fun sc =>
          { sc with selected := if (sc.selected.map uids.contains).getD false then none else sc.selected }).pruneLoads p
    s4.startDue cr.launch

/-- The fault log takes the first kill after it was cleared (R348). -/
def State.logKill (s : State) (v : Nat) (crew team : Nat) (cause orig : Cause) (double : Bool) (tr : TrapState) (serial : Word64) : State :=
  if (s.fn v).flog0 ≠ 0 then s
  else s.modFn v fun f => { f with
    flog0 := BitVec.ofNat 64 (crew * 2 ^ 32 + (if double then orig.code else 0) * 2 ^ 16 + team * 256 + cause.code)
    flog1 := tr.vpc
    flog2 := tr.addr
    flog3 := BitVec.ofNat 64 (serial.toNat % 2 ^ 32 * 2 ^ 32 + tr.info.toNat) }

/-- A trap as it is raised. -/
structure Trap where
  cause : Cause
  addr : Word64 := 0
  info : Word := 0
  done : Mask := 0
  eng : Option EngStop := none
  /-- it reports the fabric write failure that the team has recorded (R437) -/
  recorded : Bool := false
deriving DecidableEq, Repr

/-- The saved state that a trap leaves (R57). -/
def Trap.state (tr : Trap) (vpc : Nat) : TrapState :=
  { cause := BitVec.ofNat 32 tr.cause.code, vpc := BitVec.ofNat 64 vpc, addr := tr.addr, info := tr.info, done := tr.done
    eng := tr.eng }

/-- Kill a team: its crew, and its table, at once (R239). `orig` is the cause that DOUBLE stands for. -/
def State.kill (s : State) (uid : Nat) (cause orig : Cause) (tr : TrapState) : State :=
  match s.teams.find? uid with
  | none => s
  | some t =>
    match s.crews.find? t.crew with
    | none => { s with teams := s.teams.erase uid }
    | some cr =>
      let serial := ((s.launches.find? cr.launch).map Launch.serial).getD 0
      let s1 := s.traceTeam t 2 tr.vpc.toNat (BitVec.ofNat 64 (cause.code + 256 * tr.info.toNat))
      let s2 := s1.logKill cr.fn cr.index t.index cause orig (cause == .double) tr serial
      let s3 := s2.modLaunch cr.launch fun l => { l with status := if l.status = 0 then 1 else l.status }
      (s.tableCrews t.crew).foldl (fun s e => s.tearCrew e.1 6) s3

/-! ### Delivery (R341 to R344) -/

/-- The cause is fatal whatever the handlers (R341): LTT_MISS, DOUBLE, and PROBE with REASON 3 or 4. -/
def Trap.fatal (tr : Trap) : Bool :=
  match tr.cause with
  | .lttMiss => true
  | .double => true
  | .probe => tr.info.toNat / 2 ^ 19 % 8 == 3 || tr.info.toNat / 2 ^ 19 % 8 == 4
  | _ => false

/-- HVEC of a cause (R342). -/
def State.hvec (s : State) (v : Nat) (c : Cause) : Word64 := (s.fn v).hvec.get 0 c.code
/-- HVEC.EN. -/
def hvecOn (h : Word64) : Bool := h.getLsbD 63
/-- HVEC.ADDR. -/
def hvecAddr (h : Word64) : Nat := h.toNat % 2 ^ 32

/-- The half that holds overlay `n` of a team's set, the one that BANK names first (R343). -/
def State.bankHolding (s : State) (t : Team) (n : Nat) : Option Bank :=
  if s.overlayIn t t.ctl.bank = some n then some t.ctl.bank
  else if s.overlayIn t (otherBank t.ctl.bank) = some n then some (otherBank t.ctl.bank)
  else none

/-- The access that a WATCH of the team's own instruction reports, exempt once at the tret that ends its frame, and the armed
watchpoint that it met (R221, R363). -/
def TrapState.reported (tr : TrapState) (armed : Tbl Watch) : Option Exempt :=
  if tr.cause.toNat = Cause.watch.code ∧ tr.eng = none then
    let n := tr.info.toNat / 2 ^ 15 % 16
    some { vpc := tr.vpc.toNat, lane := tr.info.toNat % 1024, addr := tr.addr, watch := (armed.find? n).map fun w => (n, w) }
  else none

/-- A team with its handler's frame pushed (R343). -/
def Team.enter (t : Team) (tr : TrapState) (bank : Bank) (addr : Nat) : Team :=
  { t with
    status := .runnable
    trap := { handlers := { trap := tr, bank := t.ctl.bank, active := t.ctl.active, frames := t.ctl.frames
                            returns := t.ctl.returns, priv := t.ctl.priv, barrier := t.ctl.barrier
                            arrived := if t.ctl.arrived then some t.ctl.pc else none, exempt := tr.reported t.link.watches } :: t.trap.handlers
              last := tr }
    ctl := { t.ctl with
      pc := addr, bank := bank, frames := [], returns := [], priv := .s, skip := 0, arrived := false, under := none
      breaks := [], exempt := none }
    link := { t.link with delivery := none } }

/-- The crew of a team has been asked to stop (R237). -/
def State.crewStops (s : State) (t : Team) : Bool :=
  match (s.crews.find? t.crew).map Crew.status with
  | some (.stopping _) => true
  | _ => false

/-- The launch of a team has been halted. -/
def State.launchHalted (s : State) (t : Team) : Bool := ((s.launchOf t).map Launch.halted).getD false

/-- A suspended operation is abandoned when its team is stopped for good. -/
def Engines.dropSuspended (e : Engines) : Engines :=
  { e with
    open_ := e.open_.filter fun o => o.susp.isNone
    closed := e.closed.map fun b => { b with ops := b.ops.filter fun o => o.susp.isNone }
    gathers := e.gathers.filter fun o => o.susp.isNone
    mats := e.mats.filter fun m => m.susp.isNone
    stamps := e.stamps.filter fun m => m.susp.isNone }

/-- A team stops for good as if every lane had exited: it retires once its work is complete (R226). -/
def Team.halted (t : Team) : Team :=
  { t with
    status := .parked .exit
    ctl := { t.ctl with exited := t.ctl.exited ||| t.ctl.active, frames := [] }
    trap := { t.trap with handlers := [] }
    eng := t.eng.dropSuspended
    link := { t.link with delivery := none, probe := none, fabricFault := none, answers := [], stopped := false } }

/-- The loads that waited for teams of a crew alone are given up. -/
def State.pruneCrew (s : State) (c : Nat) : State :=
  match (s.crews.find? c).bind Crew.place with
  | some p => s.pruneLoads p
  | none => s

/-- A team stops for good: it issues no more, and waits for the end of its work (R226). -/
def State.standDown (s : State) (uid : Nat) (t : Team) : State :=
  let s1 := (t.eng.flying.filter fun o => o.susp.isSome).foldl State.abandonCopy (s.withdraw (s.fnOf t) uid)
  let s2 := (t.eng.mats.filter fun m => m.susp.isSome).foldl (fun s m => s.abandonMat t m) s1
  (s2.modTeam uid Team.halted).pruneCrew t.crew

/-- A team at a safe point: it stops there if its crew is to stop (R237, R263). -/
def State.atSafePoint (s : State) (t : Team) : Team :=
  if s.crewStops t then { t with link := { t.link with stopped := true } } else t

/-- A team's own tokens for a half become STALE (R344). -/
def Team.staleTokens (t : Team) (b : Bank) : Team :=
  { t with link := { t.link with tokens := t.link.tokens.map fun e =>
      match e.2.obj with
      | some k => if k.half = b then (e.1, { e.2 with obj := some { k with state := .stale } }) else e
      | none => e } }

/-- A team of the state with a trap recorded in the trace. -/
def State.traceTrap (s : State) (t : Team) (tr : TrapState) : State :=
  s.traceTeam t 2 tr.vpc.toNat (BitVec.ofNat 64 (tr.cause.toNat % 256 + 256 * tr.info.toNat))

/-- A trap ends what its instruction was about: answers not yet taken are forgotten (R158), and a recorded fabric write
failure stands no longer once it is reported (R437). -/
def Team.struck (t : Team) (tr : Trap) : Team :=
  { t with
    ctl := { t.ctl with under := none, breaks := [] }
    link := { t.link with answers := [], fabricFault := if tr.recorded then none else t.link.fabricFault } }

/-- The handler's frame is pushed (R343). Delivery is a safe point (R347): a team whose crew is to stop stands there, and one
whose launch has been halted executes no further (R226). -/
def State.deliverTo (s : State) (uid : Nat) (t : Team) (st : TrapState) (b : Bank) (h : Word64) : State :=
  let s1 := (s.traceTrap t st).putTeam uid (s.atSafePoint (t.enter st b (hvecAddr h)))
  if s.launchHalted t then s1.standDown uid t else s1

/-- Take an exception in a team at its pc: deliver it to the handler of its cause, or kill (R343, R344). -/
def State.raise (s : State) (uid : Nat) (tr : Trap) : State :=
  match s.teams.find? uid with
  | none => s
  | some t0 =>
    let t := t0.struck tr
    let s := s.putTeam uid t
    let st := tr.state t.ctl.pc
    let v := s.fnOf t
    let h := s.hvec v tr.cause
    if tr.fatal then s.kill uid tr.cause tr.cause st
    else if t.depth = 2 then s.kill uid .double tr.cause st
    else if !hvecOn h then s.kill uid tr.cause tr.cause st
    else
      match s.bankHolding t (hvecAddr h / overlaySpan) with
      | some b => s.deliverTo uid t st b h
      | none =>
        if t.depth = 1 then s.kill uid .double tr.cause st
        else
          let half := otherBank t.ctl.bank
          match s.placeOf t, s.crews.find? t.crew with
          | some p, some cr =>
            let s1 := s.putTeam uid ({ t with
              status := .parked (.reload half (hvecAddr h / overlaySpan) (BitVec.ofNat 64 (hvecAddr h)))
              link := { t.link with delivery := some st } }.staleTokens half)
            s1.modSub p fun sc => { sc with loads := sc.loads ++ 
              [{ half := half, set := cr.set, overlay := hvecAddr h / overlaySpan, fn := v, why := .delivery uid }] }
          | _, _ => s

/-- The trap of an instruction below its privilege level (R58). -/
def privTrap (code level major : Nat) (addr : Word64) : Trap :=
  { cause := .priv, addr := addr, info := BitVec.ofNat 32 (code * 2 ^ 16 + level * 2 ^ 8 + major) }

/-- Levels compare U below S below H (R41). -/
def Priv.rank : Priv → Nat
  | .u => 0
  | .s => 1
  | .h => 2

/-- TINFO of the memory traps of majors 16 to 19, 27 and 29 (R147). -/
def memInfo (lane : Nat) (uni wr : Bool) (size watch : Nat) (reason : Nat) : Word :=
  BitVec.ofNat 32 (lane % 1024 + (if uni then 1024 else 0) + (if wr then 2048 else 0) + size % 8 * 2 ^ 12 + watch % 16 * 2 ^ 15
    + reason % 8 * 2 ^ 19)

/-- TINFO of majors 20 to 24, and of every HANDLE trap (R175). -/
def engInfo (reason role lane : Nat) : Word := BitVec.ofNat 32 (reason % 16 * 2 ^ 14 + role % 16 * 2 ^ 10 + lane % 1024)

/-- A HANDLE trap (R171, R175). -/
def handleTrap (reason role : Nat) (h : Handle) : Trap :=
  { cause := .handle, addr := h.setWidth 64, info := engInfo reason role 0 }

end Sys2Proof.Machine
end

