-- ==== Sys2Proof/Machine/FabricBase.lean ====
section
/-! DEFINITION. How a fabric request leaves the package: planes, links, streams, releases (R429 to R432, R437, R438). -/

namespace Sys2Proof.Machine

/-- A request bears a write, and so counts in its stream (R438). -/
def remoteWrites : RemoteOp → Bool
  | .load _ => false
  | .atom .ldAcq _ _ => false
  | _ => true

/-- Some write of a stream is still unanswered. -/
def State.streamBusy (s : State) (fn node : Nat) : Bool :=
  s.fab.requests.any fun r => r.fn == fn && r.node == node && remoteWrites r.op && r.link.isSome

/-- A request is a team's own access, not one of an engine operation. -/
def FabReq.ofTeam (r : FabReq) : Bool :=
  match r.use with
  | .access _ => true
  | .write .. => true
  | _ => false

/-- Two requests name a line in common. -/
def FabReq.meets (q r : FabReq) : Bool := q.node == r.node && q.raddr / 128 == r.raddr / 128

/-- An earlier access of the same team, not yet answered. -/
def FabReq.precedes (q r : FabReq) : Bool := q.uid == r.uid && decide (q.id < r.id) && q.ofTeam

/-- A release waits at its origin: its stream has had a failure, or an earlier write of its team to another target is not yet
complete, or one to its own target has not been sent, and so is not in N (R314, R438). -/
def State.releaseWaits (s : State) (r : FabReq) : Bool :=
  r.release.isSome &&
    ((s.stream r.fn r.node).failed ||
      s.fab.requests.any fun q => q.precedes r && remoteWrites q.op && (q.node != r.node || q.link.isNone))

/-- A request waits for an earlier access of its team to the same line that could still be overtaken: one not yet sent, or a
release, which its target may hold (R149, R301, R308, R312). -/
def State.lineWaits (s : State) (r : FabReq) : Bool :=
  s.fab.requests.any fun q => q.precedes r && q.meets r && (q.link.isNone || q.release.isSome)

/-- Put a waiting request on its link: it takes flits, and a write-bearing one counts in SENT; a release carries SENT as it
stood before it (R438). A request that finds no membership, no link up, a full retry buffer, a pending map, no grant of its
arbiter (R392), or an earlier access that it must wait for, stays. -/
def State.launchReq (s : State) (r : FabReq) : State × FabReq :=
  if r.link.isSome || s.fab.pendingMap.isSome || !s.fabValid || s.releaseWaits r || s.lineWaits r then (s, r)
  else
    match s.route r.raddr with
    | none => (s, r)
    | some k =>
      if !s.linkRoom k || s.barred 3 k r.fn then (s, r)
      else
        let st := s.stream r.fn r.node
        let r' := { r with link := some k, release := r.release.map fun _ => st.sent }
        let s1 := s.sendMessage k (.request r')
        (if remoteWrites r.op then s1.modStream r.fn r.node fun t => { t with sent := (t.sent + 1) % 2 ^ 32 } else s1, r')

/-- Send every request that waits and can go, in order. -/
def sendWaiting : List FabReq → State → State
  | [], s => s
  | r :: l, s =>
    let (s1, r') := s.launchReq r
    sendWaiting l { s1 with fab := { s1.fab with requests := s1.fab.requests.map fun q => if q.id = r'.id then r' else q } }

/-- Requests and messages that wait take their links, oldest first. -/
def State.flushFabric (s : State) : State := (sendWaiting s.fab.requests s).flushWires

/-- Make a request of a node for a function's team. -/
def State.request (s : State) (fn uid node raddr : Nat) (op : RemoteOp) (use : FabFor) (release : Bool) : State :=
  let r : FabReq := { id := s.fab.nextId, fn := fn, uid := uid, launch := ((s.crews.find? (uid / 4)).map Crew.launch).getD 0,
                      node := node, raddr := raddr, op := op, use := use
                      release := if release then some 0 else none }
  State.flushFabric { s with fab := { s.fab with requests := s.fab.requests ++ [r], nextId := s.fab.nextId + 1 } }

/-- Why a fabric access fails before it is sent, if it does: no membership, a lost node, or the own node's refusal
(R298, R429, R435, R436). -/
def State.fabricFails (s : State) (fn : Nat) (p : Place) : Option Nat :=
  match p with
  | .fabric n r =>
    if !s.fabValid || s.fab.lostNodes.contains n then some 2
    else if n = s.node then (if (s.stage2 fn r).isSome then none else some 1)
    else none
  | _ => none

/-- A team's write-bearing fabric accesses that are not yet complete (R438). -/
def Team.fabricBusy (t : Team) : Bool := t.eng.fabric.any fun o => o.pending != 0

/-- Some of those precede the team's latest release fence at fabric scope: a later write here waits for them (R307, R438). -/
def Team.fenced (t : Team) : Bool :=
  match t.link.fence with
  | some n => t.eng.fabric.any fun o => o.pending != 0 && decide (o.idx ≤ n)
  | none => false

/-- The team has made a release fence at fabric scope: every later write of it on the fabric is a release (R307, R438). -/
def Team.released (t : Team) : Bool := t.link.fence.isSome

/-- The trap of a recorded fabric write failure (R437). -/
def writeFaultTrap (f : WriteFault) : Trap :=
  { cause := .fabric, addr := f.addr, info := memInfo 0 true true f.size 0 f.reason, recorded := true }

end Sys2Proof.Machine
end

