-- ==== Sys2Proof/Machine/Operands.lean ====
section
/-! DEFINITION. The operand forms: what an instruction reads, in which lanes, and where its result goes (R22, R28 to R31, R99). -/

namespace Sys2Proof.Machine

/-- Write v[d] in the lanes of active() from the registers as they stood before the slot (R99). -/
def laneV (s : State) (g : Option Guard) (d : Nat) (f : Regs → Nat → Word) : Out :=
  regOp s fun t => t.regs.setV d t.nlane (t.lanes g) (f t.regs)

/-- As `laneV`, with the flags that the lanes of active() raise (R93). -/
def laneVF (s : State) (g : Option Guard) (d : Nat) (f : Regs → Nat → Word × Flags) : Out :=
  regOp s fun t => (t.regs.setV d t.nlane (t.lanes g) fun l => (f t.regs l).1).raise
    (lanesFlags t.nlane (t.lanes g) fun l => (f t.regs l).2)

/-- Write w[d] in the lanes of active(). -/
def laneW (s : State) (g : Option Guard) (d : Nat) (f : Regs → Nat → Word64) : Out :=
  regOp s fun t => t.regs.setW d t.nlane (t.lanes g) (f t.regs)

/-- Write p[d] in the lanes of active(). -/
def laneP (s : State) (g : Option Guard) (d : Nat) (f : Regs → Nat → Bool) : Out :=
  regOp s fun t => t.regs.setP d t.nlane (t.lanes g) (f t.regs)

/-- As `laneP`, with flags. -/
def lanePF (s : State) (g : Option Guard) (d : Nat) (f : Regs → Nat → Bool × Flags) : Out :=
  regOp s fun t => (t.regs.setP d t.nlane (t.lanes g) fun l => (f t.regs l).1).raise
    (lanesFlags t.nlane (t.lanes g) fun l => (f t.regs l).2)

/-- One source register. -/
def laneVV (s : State) (g : Option Guard) (d a : Nat) (f : Word → Word) : Out := laneV s g d fun r l => f (r.v a l)
/-- Two source registers. -/
def laneVVV (s : State) (g : Option Guard) (d a b : Nat) (f : Word → Word → Word) : Out :=
  laneV s g d fun r l => f (r.v a l) (r.v b l)
/-- Two source registers, with flags. -/
def laneVVVF (s : State) (g : Option Guard) (d a b : Nat) (f : Word → Word → Word × Flags) : Out :=
  laneVF s g d fun r l => f (r.v a l) (r.v b l)
/-- The destination is read as the first source (R39). -/
def laneIO (s : State) (g : Option Guard) (d a b : Nat) (f : Word → Word → Word → Word) : Out :=
  laneV s g d fun r l => f (r.v d l) (r.v a l) (r.v b l)
/-- A compare of two source registers. -/
def lanePVV (s : State) (g : Option Guard) (d a b : Nat) (f : Word → Word → Bool) : Out :=
  laneP s g d fun r l => f (r.v a l) (r.v b l)
/-- Two source predicates. -/
def lanePPP (s : State) (g : Option Guard) (d a b : Nat) (f : Bool → Bool → Bool) : Out :=
  laneP s g d fun r l => f (Mask.has (r.p a) l) (Mask.has (r.p b) l)
/-- Two 64-bit source registers. -/
def laneWWW (s : State) (g : Option Guard) (d a b : Nat) (f : Word64 → Word64 → Word64) : Out :=
  laneW s g d fun r l => f (r.w a l) (r.w b l)
/-- A compare of two 64-bit source registers. -/
def lanePWW (s : State) (g : Option Guard) (d a b : Nat) (f : Word64 → Word64 → Bool) : Out :=
  laneP s g d fun r l => f (r.w a l) (r.w b l)

/-- A lane instruction with a uniform destination: nothing is written when active() is empty (R101). -/
def laneTeam (s : State) (g : Option Guard) (f : Team → Mask → Nat → Regs) : Out :=
  regOp s fun t =>
    match lowestLane t.nlane (t.lanes g) with
    | none => t.regs
    | some m => f t (t.lanes g) m

/-- A uniform instruction on s registers. -/
def uniSSS (s : State) (g : Option Guard) (d a b : Nat) (f : Word → Word → Word) : Out :=
  regOpIf s g fun t => t.regs.setS d (f (t.regs.s a) (t.regs.s b))
/-- A uniform compare of s registers. -/
def uniQSS (s : State) (g : Option Guard) (d a b : Nat) (f : Word → Word → Bool) : Out :=
  regOpIf s g fun t => t.regs.setQ d (f (t.regs.s a) (t.regs.s b))
/-- A uniform instruction on x registers. -/
def uniXXX (s : State) (g : Option Guard) (d a b : Nat) (f : Word64 → Word64 → Word64) : Out :=
  regOpIf s g fun t => t.regs.setX d (f (t.regs.x a) (t.regs.x b))

end Sys2Proof.Machine
end

