-- ==== Sys2Proof/Machine/MemOps.lean ====
section
/-! DEFINITION. The checks of a memory access, lane by lane performance, and the meanings of majors 16 to 18 but for probe
(R143 to R150, R153 to R158, R165, R435 to R437). -/

namespace Sys2Proof.Machine

/-! ### One access (R146) -/

/-- An access as it is checked: its bytes, its direction, and how a trap reports it. -/
structure Access where
  addr : Nat
  size : Nat
  log2 : Nat
  rd : Bool
  wr : Bool
  lane : Nat := 0
  uni : Bool := false
  /-- a failed cas is a read to a watchpoint (R362) -/
  watchWr : Bool := wr
  /-- bar.wait is never watched (R362) -/
  watched : Bool := true
  /-- a cas of another node that meets one watchpoint if it writes, and another or none if it fails: the first, the value with which
  it writes, and the second (R362, R363) -/
  judged : Option (Nat × Nat × Option Nat) := none
deriving DecidableEq, Repr

/-- The watchpoint's memory range meets bytes `a` to `a + n − 1` in an enabled direction (R223, R362). -/
def Watch.hits (w : Watch) (a n : Nat) (rd wr : Bool) : Bool :=
  w.array.isNone && decide (a < w.base + w.length) && decide (w.base < a + n) && ((w.read && rd) || (w.write && wr))

/-- The access is the one that a tret exempts (R221, R363). -/
def Team.exempts (t : Team) (lane : Nat) (addr : Nat) : Bool :=
  match t.ctl.exempt with
  | some e => e.vpc == t.ctl.pc && e.lane == lane && e.addr == BitVec.ofNat 64 addr
  | none => false

/-- The lowest-numbered watchpoint that an access meets (R363). -/
def Team.watchOn (t : Team) (x : Access) : Option Nat :=
  if t.exempts x.lane x.addr || !x.watched then none
  else (List.find? (fun e => e.2.hits x.addr x.size x.rd x.watchWr) t.link.watches).map (·.1)

/-- The trap of an access. -/
def Access.trap (x : Access) (c : Cause) (watch reason : Nat) : Trap :=
  { cause := c, addr := BitVec.ofNat 64 x.addr, info := memInfo x.lane x.uni x.wr x.log2 watch reason }

/-- The trap of an access that cannot be made: a watchpoint that a judged cas meets even if it fails comes before it (R146). -/
def Access.denied (x : Access) (c : Cause) (reason : Nat) : Trap :=
  match x.judged with
  | some (_, _, some n) => x.trap .watch n 0
  | _ => x.trap c 0 reason

/-- The checks of R146 in their order: the place that the access reaches, or its trap. -/
def State.checkAccess (s : State) (t : Team) (x : Access) : Except Trap Place :=
  if x.addr % x.size ≠ 0 then .error (x.trap .align 0 0)
  else
    match s.resolve t x.addr x.size x.wr with
    | .error c => .error (x.trap c 0 0)
    | .ok p =>
      match t.watchOn x with
      | some n => .error (x.trap .watch n 0)
      | none =>
        if x.rd && s.markedIn (s.home (s.fnOf t) p) x.size then .error (x.trap .poison 0 0)
        else
          match s.fabricFails (s.fnOf t) p with
          | some r => .error (x.denied .fabric r)
          | none => .ok (s.home (s.fnOf t) p)

/-! ### Lane by lane (R157, R158) -/

/-- A team of the state. -/
def State.teamD (s : State) (uid : Nat) : Team := (s.teams.find? uid).getD { crew := 0, index := 0, nlane := 0 }

/-- What one lane of an access comes to. -/
inductive LaneRes where
  | done (s : State)
  | trap (tr : Trap)
  /-- the lane goes on when the answer of another node is here, or what the access waits for is over -/
  | wait (s : State)

/-- A mask with a lane added. -/
def Mask.add (m : Mask) (l : Nat) : Mask := m ||| (1#1024 <<< l)

/-- A team waits in the middle of its instruction, which goes on where it is. -/
def Team.waits (t : Team) : Team := { t with status := .waiting }

/-- A team waits in the middle of an access, some lanes performed (R158). -/
def Team.waitsAt (t : Team) (under : Nat × Bool) (done : Mask) : Team :=
  { t.waits with ctl := { t.ctl with skip := done, under := some under } }

/-- Other agents act before a lane of the team's access (R153, log entry 122). -/
def State.breaksAt (s : State) (uid l : Nat) : Bool := (s.teamD uid).ctl.breaks.contains l

/-- The break before a lane is over. -/
def Team.unbreak (t : Team) (l : Nat) : Team := { t with ctl := { t.ctl with breaks := t.ctl.breaks.filter (· != l) } }

/-- Perform an access in the lanes of active() that the done mask does not hold, in rising order; a trap reports the lanes
already performed (R157), a wait keeps them (R158), and the number of the access. -/
def runLanes (uid : Nat) (under : Nat × Bool) (step : State → Nat → LaneRes) (finish : State → State) :
    List Nat → State → Mask → State
  | [], s, _ => (finish s).modTeam uid Team.advance
  | l :: ls, s, m =>
    if Mask.has m l then runLanes uid under step finish ls s m
    else if s.breaksAt uid l then s.modTeam uid fun t => (t.unbreak l).waitsAt under m
    else
      match step s l with
      | .done s' => runLanes uid under step finish ls s' (Mask.add m l)
      | .trap tr => s.raise uid { tr with done := m }
      | .wait s' => s'.modTeam uid fun t => t.waitsAt under m

/-- The lanes of a mask, rising. -/
def maskLanes (nl : Nat) (m : Mask) : List Nat := (lanesBelow nl).filter fun l => Mask.has m l

/-- EA of a lane (R26, R27). -/
def Team.ea (t : Team) (xb vo : Nat) (disp : Word) (size l : Nat) : Nat :=
  (t.regs.x xb + (t.regs.v vo l).signExtend 64 * BitVec.ofNat 64 size + disp.signExtend 64 * BitVec.ofNat 64 size).toNat

/-- EA of a uniform access (R150). -/
def Team.eaUni (t : Team) (xb : Nat) (disp : Word) (size : Nat) : Nat :=
  (t.regs.x xb + disp.signExtend 64 * BitVec.ofNat 64 size).toNat

/-- The answer a lane waits for, if it has come. -/
def Team.answer (t : Team) (l : Nat) : Option RemoteAnswer := t.link.answers.find? l

/-- Forget a lane's answer. -/
def Team.takeAnswer (t : Team) (l : Nat) : Team := { t with link := { t.link with answers := t.link.answers.erase l } }

/-- A request of a team's lane has no answer yet. -/
def State.asked (s : State) (uid lane : Nat) : Bool := s.fab.requests.any fun r => r.uid == uid && r.use == .access lane

/-- The place lies in a scratchpad, where every ordering acts at crew scope (R155, R305). -/
def Place.inScratch : Place → Bool
  | .scratch _ _ => true
  | _ => false

/-- A write here, or a release here at fabric scope, must wait for fabric writes of its team (R307, R438). -/
def Team.holdsWrite (t : Team) (p : Place) (wr release : Bool) : Bool :=
  !p.inScratch && ((release && t.fabricBusy) || (wr && t.fenced))

/-- Perform one access that returns a value: at once when its bytes are here, by a request and its answer when they are on
another node. `here` gives the value and the state after it; `use` takes the value. A cas of another node whose watchpoint depends
on its value asks for the value first: one that would write is reported, and so is one that fails where it meets a watchpoint too;
else that one is over (R362, R363). -/
def State.fetchLane (s : State) (uid : Nat) (x : Access) (op : RemoteOp) (release : Bool)
    (here : State → Place → Nat × State) (use : State → Nat → State) : LaneRes :=
  let t := s.teamD uid
  match t.answer x.lane with
  | some (.data bytes) =>
    match x.judged with
    | some (w, v, f) =>
      if leNat bytes = v then .trap (x.trap .watch w 0)
      else
        match f with
        | some n => .trap (x.trap .watch n 0)
        | none => .done (use (s.modTeam uid fun t => t.takeAnswer x.lane) (leNat bytes))
    | none => .done (use (s.modTeam uid fun t => t.takeAnswer x.lane) (leNat bytes))
  | some .done => .done (use (s.modTeam uid fun t => t.takeAnswer x.lane) 0)
  | some .poison => .trap (x.denied .poison 0)
  | some (.fail r) => .trap (x.denied .fabric r)
  | none =>
    if s.asked uid x.lane then .wait s
    else
      match s.checkAccess t x with
      | .error tr => .trap tr
      | .ok (.fabric n r) =>
        .wait (s.request (s.fnOf t) uid n r (if x.judged.isSome then .load x.size else op) (.access x.lane)
          (release || (x.wr && t.released)))
      | .ok p =>
        if s.placeWaits (s.fnOf t) p || t.holdsWrite p x.wr release then .wait s
        else
          let (v, s1) := here s p
          .done (use s1 v)

/-! ### The fabric class (R165) -/

/-- An instruction's fabric operation gains a request not yet answered (R165). -/
def Team.addFabric (t : Team) (id : Nat) : Team :=
  let l := t.eng.fabric
  let l' : List FabOp :=
    match l.find? (fun o => o.id == id) with
    | some _ => l.map (fun o => if o.id = id then { o with pending := o.pending + 1 } else o)
    | none => l ++ [{ id := id, idx := t.eng.fabIssued + 1, pending := 1 }]
  { t with eng := { t.eng with
      fabric := l'
      fabIssued := if (l.find? fun o => o.id == id).isSome then t.eng.fabIssued else t.eng.fabIssued + 1 } }

/-- Completions are counted in order (R165): the oldest operations leave once they are complete. -/
def Team.settleFabric (t : Team) : Team := { t with eng := { t.eng with fabric := t.eng.fabric.dropWhile fun o => o.pending == 0 } }

/-- An instruction with a lane at a fabric address is counted, whether or not it has sent anything (R165, R298). -/
def Team.countFabric (t : Team) (id : Nat) : Team :=
  if t.eng.fabric.any fun o => o.id == id then t.settleFabric
  else
    let o : FabOp := { id := id, idx := t.eng.fabIssued + 1, pending := 0 }
    let u : Team := { t with eng := { t.eng with fabric := t.eng.fabric ++ [o], fabIssued := t.eng.fabIssued + 1 } }
    u.settleFabric

/-- The end of an access: its answers are forgotten, and it is counted when it has a lane at a fabric address. -/
def endAccess (uid id : Nat) (fabric : Bool) (s : State) : State :=
  s.modTeam uid fun t =>
    let u := { t with link := { t.link with answers := [] } }
    if fabric then u.countFabric id else u

/-- Some lane of an access has a fabric address (R165). -/
def Team.anyFabric (t : Team) (ls : List Nat) (ea : Nat → Nat) : Bool :=
  match t.ctl.under with
  | some u => u.2
  | none => ls.any fun l => inFabric (ea l) && !Mask.has t.ctl.skip l

/-- An access begins, or goes on under its number: with a lane at a fabric address it has one of its own (R165). -/
def State.accessOp (s : State) (t : Team) (fabric : Bool) : (Nat × Bool) × State :=
  match t.ctl.under with
  | some u => (u, s)
  | none => if fabric then (let (op, s0) := s.newUid; ((op, true), s0)) else ((0, false), s)

/-- The fabric counter is full: an instruction that has not begun stalls at issue (R165). -/
def Team.counterFull (t : Team) : Bool := t.ctl.under.isNone && decide (8191 ≤ t.eng.fabric.length)

/-- Park a team at its instruction, which is issued again when the stall ends. -/
def State.stall (s : State) (uid : Nat) (w : Stall) : State :=
  s.modTeam uid fun t => { t with status := .parked (.stall w) }

/-! ### Loads (R148, R150) -/

/-- Write a loaded value to the data registers of a lane: v[T], w[T], or v[T] to v[T + 3]. -/
def Regs.loadLane (r : Regs) (t nl size l v : Nat) : Regs :=
  let one : Mask := 1#1024 <<< l
  if size = 8 then r.setW t nl one fun _ => BitVec.ofNat 64 v
  else if size = 16 then
    (((r.setV t nl one fun _ => BitVec.ofNat 32 v).setV (t + 1) nl one fun _ => BitVec.ofNat 32 (v / 2 ^ 32)).setV (t + 2) nl one
      fun _ => BitVec.ofNat 32 (v / 2 ^ 64)).setV (t + 3) nl one fun _ => BitVec.ofNat 32 (v / 2 ^ 96)
  else r.setV t nl one fun _ => BitVec.ofNat 32 v

/-- The value that a lane stores. -/
def Regs.storeLane (r : Regs) (t size l : Nat) : Nat :=
  if size = 8 then (r.w t l).toNat
  else if size = 16 then
    (r.v t l).toNat + 2 ^ 32 * (r.v (t + 1) l).toNat + 2 ^ 64 * (r.v (t + 2) l).toNat + 2 ^ 96 * (r.v (t + 3) l).toNat
  else (r.v t l).toNat % 2 ^ (8 * size)

/-- The lanes that have answers or requests no longer count once an instruction is over. -/
def clearAnswers (uid : Nat) (s : State) : State := s.modTeam uid fun t => { t with link := { t.link with answers := [] } }

/-- ld.bN (R148). -/
def loadOp (s : State) (g : Option Guard) (t xb vo : Nat) (disp : Word) (log2 : Nat) : Out :=
  withTeam s fun uid tm =>
    let size := 2 ^ log2
    let ls := maskLanes tm.nlane (tm.lanes g)
    let fabric := tm.anyFabric ls fun l => tm.ea xb vo disp size l
    if fabric && tm.counterFull then s.stall uid (.counterFull .fabric)
    else
      let (op, s0) := s.accessOp tm fabric
      runLanes uid op (fun s l =>
        let x : Access := { addr := (s.teamD uid).ea xb vo disp size l, size := size, log2 := log2, rd := true, wr := false, lane := l }
        s.fetchLane uid x (.load size) false (fun s p => s.loadNat p size) fun s v =>
          s.modTeam uid fun tm => { tm with regs := tm.regs.loadLane t tm.nlane size l v })
        (endAccess uid op.1 fabric) ls s0 tm.ctl.skip

/-- lds (R150). -/
def loadUni (s : State) (g : Option Guard) (xb : Nat) (disp : Word) (log2 : Nat) (set : Regs → Nat → Regs) : Out :=
  withTeam s fun uid tm =>
    if guardHolds tm.regs g then
      let size := 2 ^ log2
      let fabric := inFabric (tm.eaUni xb disp size)
      if fabric && tm.counterFull then s.stall uid (.counterFull .fabric)
      else
        let (op, s0) := s.accessOp tm fabric
        runLanes uid op (fun s _ =>
          let x : Access := { addr := (s.teamD uid).eaUni xb disp size, size := size, log2 := log2, rd := true, wr := false, uni := true }
          s.fetchLane uid x (.load size) false (fun s p => s.loadNat p size) fun s v =>
            s.modTeam uid fun tm => { tm with regs := set tm.regs v })
          (endAccess uid op.1 fabric) [0] s0 0
    else s.putTeam uid tm.advance

/-! ### Stores (R148, R149, R437, R438) -/

/-- The gate of a fence, or of an access that has not begun: at fabric scope a release or an SC operation reports a recorded
failure first, the lanes that it has performed done (R437); an SC operation waits until the team's earlier accesses have reached
their points of coherence (R155, R311). -/
def syncGate (s : State) (uid : Nat) (t : Team) (report sc : Bool) (go : State) : State :=
  if t.ctl.under.isSome then go
  else
    match (if report then t.link.fabricFault else none) with
    | some f => s.raise uid { writeFaultTrap f with done := t.ctl.skip }
    | none => if sc && t.fabricBusy then s.modTeam uid Team.waits else go

/-- A store at a place of this package must wait. -/
def State.storeWaits (s : State) (uid : Nat) (p : Place) : Bool :=
  match p with
  | .fabric _ _ => false
  | p => s.placeWaits (s.fnOf (s.teamD uid)) p || (s.teamD uid).holdsWrite p true false

/-- Store a value at a checked place: here, or by a request that the team does not wait for. Where an earlier lane of the
instruction named the same bytes, which value stays is free (R149). -/
def State.storeAt (s : State) (uid op : Nat) (x : Access) (p : Place) (again : Bool) (v : Nat) : State :=
  let (keep, s1) := if again then s.takeBool else (true, s)
  match p with
  | .fabric n r =>
    if keep then
      (s1.request (s1.fnOf (s1.teamD uid)) uid n r (.store (leBytes x.size v)) (.write op (BitVec.ofNat 64 x.addr) x.log2)
        (s1.teamD uid).released).modTeam uid fun t => t.addFabric op
    else s1
  | p => if keep then s1.writeNat p x.size v else s1

/-- st.bN (R148); after a release fence at fabric scope a store on the fabric is a release (R437, R438). -/
def storeOp (s : State) (g : Option Guard) (t xb vo : Nat) (disp : Word) (log2 : Nat) : Out :=
  withTeam s fun uid tm =>
    let size := 2 ^ log2
    let ls := maskLanes tm.nlane (tm.lanes g)
    let ea := fun l => tm.ea xb vo disp size l
    let fabric := tm.anyFabric ls ea
    syncGate s uid tm (fabric && tm.released) false <|
      if fabric && tm.counterFull then s.stall uid (.counterFull .fabric)
      else
        let (op, s0) := s.accessOp tm fabric
        runLanes uid op (fun s l =>
          let x : Access := { addr := ea l, size := size, log2 := log2, rd := false, wr := true, lane := l }
          match s.checkAccess (s.teamD uid) x with
          | .error tr => .trap tr
          | .ok p =>
            if s.storeWaits uid p then .wait s
            else
              let again := ls.any fun k => decide (k < l) && (tm.ctl.under.isSome || !Mask.has tm.ctl.skip k) && ea k == ea l
              .done (s.storeAt uid op.1 x p again (tm.regs.storeLane t size l)))
          (endAccess uid op.1 fabric) ls s0 tm.ctl.skip

/-- sts (R150). -/
def storeUni (s : State) (g : Option Guard) (xb : Nat) (disp : Word) (log2 : Nat) (val : Regs → Nat) : Out :=
  withTeam s fun uid tm =>
    if guardHolds tm.regs g then
      let size := 2 ^ log2
      let a := tm.eaUni xb disp size
      let fabric := inFabric a
      syncGate s uid tm (fabric && tm.released) false <|
      if fabric && tm.counterFull then s.stall uid (.counterFull .fabric)
      else
        let (op, s0) := s.accessOp tm fabric
        runLanes uid op (fun s _ =>
          let x : Access := { addr := a, size := size, log2 := log2, rd := false, wr := true, uni := true }
          match s.checkAccess (s.teamD uid) x with
          | .error tr => .trap tr
          | .ok p => if s.storeWaits uid p then .wait s else .done (s.storeAt uid op.1 x p false (val tm.regs)))
          (endAccess uid op.1 fabric) [0] s0 0
    else s.putTeam uid tm.advance

/-! ### Atomics (R153 to R156) -/

/-- The order includes a release (R155). -/
def orderReleases (o : Order) : Bool := o == .release || o == .acqRel

/-- The operand of an atomic in a lane: v[T], or w[T] for the 64-bit ones. -/
def atomArg (r : Regs) (op : AtomOp) (t l : Nat) : Word64 := if atomSize op = 8 then r.w t l else (r.v t l).setWidth 64
/-- The new value of a cas in a lane. -/
def atomArg2 (r : Regs) (op : AtomOp) (t l : Nat) : Word64 := atomArg r op (t + 1) l

/-- One read-modify-write here: the old value, and the state after it; st.rel only writes. -/
def State.atomHere (s : State) (op : AtomOp) (a b : Word64) (p : Place) : Nat × State :=
  let size := atomSize op
  let (v, s1) := if op = .stRel then (0, s) else s.loadNat p size
  let old := BitVec.ofNat 64 v
  match atomNew op old a b with
  | some n => (v, s1.writeNat p size n.toNat)
  | none => (v, s1)

/-- A cas: its compare value decides whether it writes. -/
def isCas (op : AtomOp) : Bool := op == .cas || op == .casI64

/-- A failed cas writes nothing, and is then only a read to a watchpoint (R362). One of another node counts as a read until its
value is known. -/
def State.casFails (s : State) (op : AtomOp) (t : Team) (a : Word64) (addr : Nat) : Bool :=
  isCas op &&
    match s.resolve t addr (atomSize op) true with
    | .ok p =>
      match s.home (s.fnOf t) p with
      | .fabric _ _ => true
      | p => (s.loadNat p (atomSize op)).1 != a.toNat
    | .error _ => false

/-- The access of an atomic in a lane: a cas of another node that meets another watchpoint if it writes than if it fails is judged by
its value. -/
def State.atomAccess (s : State) (op : AtomOp) (t : Team) (a : Word64) (addr lane : Nat) : Access :=
  let size := atomSize op
  let x : Access := { addr := addr, size := size, log2 := size.log2, rd := op != .stRel, wr := atomWrites op, lane := lane
                      watchWr := atomWrites op && !s.casFails op t a addr }
  let far := match s.resolve t addr size true with
    | .ok p => (match s.home (s.fnOf t) p with
      | .fabric _ _ => true
      | _ => false)
    | .error _ => false
  let failed := t.watchOn x
  match t.watchOn { x with watchWr := true } with
  | some w => if isCas op && far && some w != failed then { x with watched := false, judged := some (w, a.toNat, failed) } else x
  | none => x

/-- An atomic of major 18 in the lanes of the active mask (R153, R155); on the scratchpad it acts at crew scope, and after a
release fence at fabric scope one that writes on the fabric is a release (R438). -/
def atomOp (s : State) (op : AtomOp) (t xb vo : Nat) (order : Order) (scope : Scope) (sc nr : Bool) : Out :=
  withTeam s fun uid tm =>
    let size := atomSize op
    let release := scope == .fabric && (orderReleases order || sc)
    let ls := maskLanes tm.nlane tm.ctl.active
    let fabric := tm.anyFabric ls fun l => tm.ea xb vo 0 size l
    let beyond := ls.any fun l => !inLocal (tm.ea xb vo 0 size l)
    let (op_, s0) := s.accessOp tm fabric
    syncGate s uid tm ((release && beyond) || (fabric && atomWrites op && tm.released)) sc <|
      if fabric && tm.counterFull then s.stall uid (.counterFull .fabric)
      else runLanes uid op_ (fun s l =>
        let cur := s.teamD uid
        let a := atomArg cur.regs op t l
        s.fetchLane uid (s.atomAccess op cur a (cur.ea xb vo 0 size l) l) (.atom op a (atomArg2 cur.regs op t l)) release
          (fun s p => s.atomHere op a (atomArg2 cur.regs op t l) p) fun s v =>
            let s := s.modTeam uid fun c => { c with regs := c.regs.raise (atomFlags op (BitVec.ofNat 64 v) a) }
            if op = .stRel ∨ (nr ∧ op ≠ .ldAcq) then s
            else s.modTeam uid fun c => { c with regs := c.regs.loadLane t c.nlane size l v })
        (endAccess uid op_.1 fabric) ls s0 tm.ctl.skip

end Sys2Proof.Machine
end

