-- ==== Sys2Proof/WellFormed.lean ====
section
/-! DEFINITION. Which instructions the encoding admits, constructor by constructor. -/

namespace Sys2Proof

/-- A register number of the role lies within its class's fixed range or declared count; a pair or quad wholly
(R22, R23, R40). A role that names no register admits any number. -/
def Counts.ok (c : Counts) (r : Role) (n : Nat) : Bool :=
  match r with
  | .v => decide (n < c.nv)
  | .w => decide (n < c.nw)
  | .s => decide (n < c.ns)
  | .x => decide (n < c.nx)
  | .p | .k | .y | .h => decide (n < 16)
  | .q => decide (n < 8)
  | .a => decide (n < 64)
  | .o => decide (n < 32)
  | .v2 => decide (n + 1 < c.nv)
  | .v4 => decide (n + 3 < c.nv)
  | .w2 => decide (n + 1 < c.nw)
  | .none | .imm _ | .lit | .hnum | .byCode => true

/-- No class declares more than 32,768 registers (R23). -/
def Counts.wf (c : Counts) : Bool :=
  decide (c.nv ≤ 32768) && decide (c.nw ≤ 32768) && decide (c.ns ≤ 32768) && decide (c.nx ≤ 32768)

/-- The class of the register that holds a special register's value (R56). -/
def SpReg.role : SpReg → Role
  | .launch | .argbase | .scrbase | .cycles | .tvpc | .taddr => .x
  | .srseed => .v
  | .team | .crew | .table | .nteam | .nlane | .ncrew | .nflags | .fpmode | .bank | .priv | .tcause | .tinfo | .tdone _
  | .vf | .core | .split => .s

/-- The special registers wrsp may name (the Write column of R56). -/
def SpReg.writable : SpReg → Bool
  | .cycles | .nflags | .fpmode | .srseed | .tcause | .tvpc | .taddr | .tinfo | .tdone _ => true
  | .team | .crew | .table | .nteam | .nlane | .ncrew | .launch | .argbase | .scrbase | .bank | .priv | .vf | .core
  | .split => false

/-- The group index of TDONE, zero for every other code (R56). -/
def SpReg.group : SpReg → Nat
  | .tdone n => n
  | _ => 0

/-- The group index has five bits (R56). -/
def SpReg.wf (r : SpReg) : Bool := decide (r.group < 32)

/-- A guard of class lane names p0 to p15 (R31). -/
def laneGuard : Option Guard → Bool
  | none => true
  | some g => decide (g.num < 16)

/-- A guard of class uniform names q0 to q7 (R31). -/
def uniGuard : Option Guard → Bool
  | none => true
  | some g => decide (g.num < 8)

/-- The slot can say the guard without a guard entry: it is absent, or the default p1 or q1 (R30). -/
def plainGuard : Option Guard → Bool
  | none => true
  | some g => decide (g = ⟨false, 1⟩)

/-- Every number of the list is below a bound. -/
def below (n : Nat) (l : List Nat) : Bool := l.all fun k => decide (k < n)

/-- Some lender carries a form A slot, or a form M slot whose IMM4 names a handle: mixed up to 2,047 with any guard, wide up to
32,767 with a plain one (R34, R35). -/
def fits (g : Option Guard) (regs : List Nat) : Bool :=
  below 2048 regs || (plainGuard g && below 32768 regs)

/-- An immediate of 32 bits is what the low `n` bits give under its role (R29). -/
def immFits (signed : Bool) (n v : Nat) : Bool :=
  if signed then decide (v < 2 ^ (n - 1)) || decide (2 ^ 32 ≤ v + 2 ^ (n - 1)) else decide (v < 2 ^ n)

/-- Some lender carries a form I slot: mixed with 15 bits, wide with the slot's 7, immediate with 32 (R34, R35). -/
def fitsImm (g : Option Guard) (regs : List Nat) (signed : Bool) (v : Nat) : Bool :=
  (below 2048 regs && immFits signed 15 v)
    || (plainGuard g && ((below 32768 regs && immFits signed 7 v) || below 128 regs))

/-- Some lender carries a form M slot with a displacement: mixed with 12 bits, wide with 4, immediate with 29 (R34). -/
def fitsDisp (g : Option Guard) (regs : List Nat) (v : Nat) : Bool :=
  (below 2048 regs && immFits true 12 v)
    || (plainGuard g && ((below 32768 regs && immFits true 4 v) || (below 128 regs && immFits true 29 v)))

/-- Some lender carries a form AT slot: the modifier bits ride in a mixed lender (R34, R48). -/
def fitsAtomic (regs : List Nat) (sc nr : Bool) : Bool :=
  below 2048 regs || (below 32768 regs && !sc && !nr)

/-- The encoding admits the instruction in a kernel that declares these counts. An event has no encoding. -/
def Instr.wf (c : Counts) : Instr → Bool
  | .nop =>
    true
  | .mov g d a =>
    laneGuard g && c.ok .v d && c.ok .v a && fits g [d, a]
  | .movi g d imm =>
    laneGuard g && c.ok .v d && fitsImm g [d] true imm.toNat
  | .sel g d a b =>
    laneGuard g && c.ok .v d && c.ok .v a && c.ok .p b && fits g [d, a, b]
  | .laneid g d =>
    laneGuard g && c.ok .v d && fits g [d]
  | .rdsp g d r =>
    (if r == .srseed then laneGuard g else uniGuard g) && c.ok r.role d && r.wf && fitsImm g [d] false (128 * r.group)
  | .wrsp g a r =>
    (if r == .srseed then laneGuard g else uniGuard g) && c.ok r.role a && r.wf && r.writable && fitsImm g [a] false (128 * r.group)
  | .addI32 g d a b =>
    laneGuard g && c.ok .v d && c.ok .v a && c.ok .v b && fits g [d, a, b]
  | .subI32 g d a b =>
    laneGuard g && c.ok .v d && c.ok .v a && c.ok .v b && fits g [d, a, b]
  | .minI32 g d a b =>
    laneGuard g && c.ok .v d && c.ok .v a && c.ok .v b && fits g [d, a, b]
  | .minN32 g d a b =>
    laneGuard g && c.ok .v d && c.ok .v a && c.ok .v b && fits g [d, a, b]
  | .maxI32 g d a b =>
    laneGuard g && c.ok .v d && c.ok .v a && c.ok .v b && fits g [d, a, b]
  | .maxN32 g d a b =>
    laneGuard g && c.ok .v d && c.ok .v a && c.ok .v b && fits g [d, a, b]
  | .andB32 g d a b =>
    laneGuard g && c.ok .v d && c.ok .v a && c.ok .v b && fits g [d, a, b]
  | .orB32 g d a b =>
    laneGuard g && c.ok .v d && c.ok .v a && c.ok .v b && fits g [d, a, b]
  | .xorB32 g d a b =>
    laneGuard g && c.ok .v d && c.ok .v a && c.ok .v b && fits g [d, a, b]
  | .andnB32 g d a b =>
    laneGuard g && c.ok .v d && c.ok .v a && c.ok .v b && fits g [d, a, b]
  | .absI32 g d a =>
    laneGuard g && c.ok .v d && c.ok .v a && fits g [d, a]
  | .negI32 g d a =>
    laneGuard g && c.ok .v d && c.ok .v a && fits g [d, a]
  | .addsI32 g d a b =>
    laneGuard g && c.ok .v d && c.ok .v a && c.ok .v b && fits g [d, a, b]
  | .subsI32 g d a b =>
    laneGuard g && c.ok .v d && c.ok .v a && c.ok .v b && fits g [d, a, b]
  | .addsN32 g d a b =>
    laneGuard g && c.ok .v d && c.ok .v a && c.ok .v b && fits g [d, a, b]
  | .subsN32 g d a b =>
    laneGuard g && c.ok .v d && c.ok .v a && c.ok .v b && fits g [d, a, b]
  | .addiI32 g d a imm =>
    laneGuard g && c.ok .v d && c.ok .v a && fitsImm g [d, a] true imm.toNat
  | .andiB32 g d a imm =>
    laneGuard g && c.ok .v d && c.ok .v a && fitsImm g [d, a] false imm.toNat
  | .oriB32 g d a imm =>
    laneGuard g && c.ok .v d && c.ok .v a && fitsImm g [d, a] false imm.toNat
  | .xoriB32 g d a imm =>
    laneGuard g && c.ok .v d && c.ok .v a && fitsImm g [d, a] false imm.toNat
  | .miniI32 g d a imm =>
    laneGuard g && c.ok .v d && c.ok .v a && fitsImm g [d, a] true imm.toNat
  | .maxiI32 g d a imm =>
    laneGuard g && c.ok .v d && c.ok .v a && fitsImm g [d, a] true imm.toNat
  | .shlB32 g d a b =>
    laneGuard g && c.ok .v d && c.ok .v a && c.ok .v b && fits g [d, a, b]
  | .shrN32 g d a b =>
    laneGuard g && c.ok .v d && c.ok .v a && c.ok .v b && fits g [d, a, b]
  | .shrI32 g d a b =>
    laneGuard g && c.ok .v d && c.ok .v a && c.ok .v b && fits g [d, a, b]
  | .shliB32 g d a imm =>
    laneGuard g && c.ok .v d && c.ok .v a && fitsImm g [d, a] false imm.toNat
  | .shriN32 g d a imm =>
    laneGuard g && c.ok .v d && c.ok .v a && fitsImm g [d, a] false imm.toNat
  | .shriI32 g d a imm =>
    laneGuard g && c.ok .v d && c.ok .v a && fitsImm g [d, a] false imm.toNat
  | .bfeN32 g d a b =>
    laneGuard g && c.ok .v d && c.ok .v a && c.ok .v b && fits g [d, a, b]
  | .bfeI32 g d a b =>
    laneGuard g && c.ok .v d && c.ok .v a && c.ok .v b && fits g [d, a, b]
  | .bfiB32 g d a b =>
    laneGuard g && c.ok .v d && c.ok .v a && c.ok .v b && fits g [d, a, b]
  | .popcB32 g d a =>
    laneGuard g && c.ok .v d && c.ok .v a && fits g [d, a]
  | .clzB32 g d a =>
    laneGuard g && c.ok .v d && c.ok .v a && fits g [d, a]
  | .brevB32 g d a =>
    laneGuard g && c.ok .v d && c.ok .v a && fits g [d, a]
  | .prmtB32 g d a b =>
    laneGuard g && c.ok .v d && c.ok .v a && c.ok .v b && fits g [d, a, b]
  | .mulI32 g d a b =>
    laneGuard g && c.ok .v d && c.ok .v a && c.ok .v b && fits g [d, a, b]
  | .mulhiI32 g d a b =>
    laneGuard g && c.ok .v d && c.ok .v a && c.ok .v b && fits g [d, a, b]
  | .mulhiN32 g d a b =>
    laneGuard g && c.ok .v d && c.ok .v a && c.ok .v b && fits g [d, a, b]
  | .madI32 g d a b =>
    laneGuard g && c.ok .v d && c.ok .v a && c.ok .v b && fits g [d, a, b]
  | .divI32 g d a b =>
    laneGuard g && c.ok .v d && c.ok .v a && c.ok .v b && fits g [d, a, b]
  | .divN32 g d a b =>
    laneGuard g && c.ok .v d && c.ok .v a && c.ok .v b && fits g [d, a, b]
  | .remI32 g d a b =>
    laneGuard g && c.ok .v d && c.ok .v a && c.ok .v b && fits g [d, a, b]
  | .remN32 g d a b =>
    laneGuard g && c.ok .v d && c.ok .v a && c.ok .v b && fits g [d, a, b]
  | .fadd g d a b =>
    laneGuard g && c.ok .v d && c.ok .v a && c.ok .v b && fits g [d, a, b]
  | .fsub g d a b =>
    laneGuard g && c.ok .v d && c.ok .v a && c.ok .v b && fits g [d, a, b]
  | .fmul g d a b =>
    laneGuard g && c.ok .v d && c.ok .v a && c.ok .v b && fits g [d, a, b]
  | .ffma g d a b =>
    laneGuard g && c.ok .v d && c.ok .v a && c.ok .v b && fits g [d, a, b]
  | .fmin g d a b =>
    laneGuard g && c.ok .v d && c.ok .v a && c.ok .v b && fits g [d, a, b]
  | .fmax g d a b =>
    laneGuard g && c.ok .v d && c.ok .v a && c.ok .v b && fits g [d, a, b]
  | .fabs g d a =>
    laneGuard g && c.ok .v d && c.ok .v a && fits g [d, a]
  | .fneg g d a =>
    laneGuard g && c.ok .v d && c.ok .v a && fits g [d, a]
  | .fdiv g d a b =>
    laneGuard g && c.ok .v d && c.ok .v a && c.ok .v b && fits g [d, a, b]
  | .fsqrt g d a =>
    laneGuard g && c.ok .v d && c.ok .v a && fits g [d, a]
  | .frcp g d a =>
    laneGuard g && c.ok .v d && c.ok .v a && fits g [d, a]
  | .frsq g d a =>
    laneGuard g && c.ok .v d && c.ok .v a && fits g [d, a]
  | .fexp2 g d a =>
    laneGuard g && c.ok .v d && c.ok .v a && fits g [d, a]
  | .flog2 g d a =>
    laneGuard g && c.ok .v d && c.ok .v a && fits g [d, a]
  | .fsin g d a =>
    laneGuard g && c.ok .v d && c.ok .v a && fits g [d, a]
  | .fcos g d a =>
    laneGuard g && c.ok .v d && c.ok .v a && fits g [d, a]
  | .ftanh g d a =>
    laneGuard g && c.ok .v d && c.ok .v a && fits g [d, a]
  | .frnd g d a rnd =>
    laneGuard g && c.ok .v d && c.ok .v a && (rnd != .sr) && fits g [d, a]
  | .haddF16 g d a b =>
    laneGuard g && c.ok .v d && c.ok .v a && c.ok .v b && fits g [d, a, b]
  | .hmulF16 g d a b =>
    laneGuard g && c.ok .v d && c.ok .v a && c.ok .v b && fits g [d, a, b]
  | .hfmaF16 g d a b =>
    laneGuard g && c.ok .v d && c.ok .v a && c.ok .v b && fits g [d, a, b]
  | .hminF16 g d a b =>
    laneGuard g && c.ok .v d && c.ok .v a && c.ok .v b && fits g [d, a, b]
  | .hmaxF16 g d a b =>
    laneGuard g && c.ok .v d && c.ok .v a && c.ok .v b && fits g [d, a, b]
  | .haddBf16 g d a b =>
    laneGuard g && c.ok .v d && c.ok .v a && c.ok .v b && fits g [d, a, b]
  | .hmulBf16 g d a b =>
    laneGuard g && c.ok .v d && c.ok .v a && c.ok .v b && fits g [d, a, b]
  | .hfmaBf16 g d a b =>
    laneGuard g && c.ok .v d && c.ok .v a && c.ok .v b && fits g [d, a, b]
  | .cmpEqI32 g d a b =>
    laneGuard g && c.ok .p d && c.ok .v a && c.ok .v b && fits g [d, a, b]
  | .cmpNeI32 g d a b =>
    laneGuard g && c.ok .p d && c.ok .v a && c.ok .v b && fits g [d, a, b]
  | .cmpLtI32 g d a b =>
    laneGuard g && c.ok .p d && c.ok .v a && c.ok .v b && fits g [d, a, b]
  | .cmpLeI32 g d a b =>
    laneGuard g && c.ok .p d && c.ok .v a && c.ok .v b && fits g [d, a, b]
  | .cmpGtI32 g d a b =>
    laneGuard g && c.ok .p d && c.ok .v a && c.ok .v b && fits g [d, a, b]
  | .cmpGeI32 g d a b =>
    laneGuard g && c.ok .p d && c.ok .v a && c.ok .v b && fits g [d, a, b]
  | .cmpLtN32 g d a b =>
    laneGuard g && c.ok .p d && c.ok .v a && c.ok .v b && fits g [d, a, b]
  | .cmpLeN32 g d a b =>
    laneGuard g && c.ok .p d && c.ok .v a && c.ok .v b && fits g [d, a, b]
  | .cmpGtN32 g d a b =>
    laneGuard g && c.ok .p d && c.ok .v a && c.ok .v b && fits g [d, a, b]
  | .cmpGeN32 g d a b =>
    laneGuard g && c.ok .p d && c.ok .v a && c.ok .v b && fits g [d, a, b]
  | .fcmpEq g d a b =>
    laneGuard g && c.ok .p d && c.ok .v a && c.ok .v b && fits g [d, a, b]
  | .fcmpNe g d a b =>
    laneGuard g && c.ok .p d && c.ok .v a && c.ok .v b && fits g [d, a, b]
  | .fcmpLt g d a b =>
    laneGuard g && c.ok .p d && c.ok .v a && c.ok .v b && fits g [d, a, b]
  | .fcmpLe g d a b =>
    laneGuard g && c.ok .p d && c.ok .v a && c.ok .v b && fits g [d, a, b]
  | .fcmpGt g d a b =>
    laneGuard g && c.ok .p d && c.ok .v a && c.ok .v b && fits g [d, a, b]
  | .fcmpGe g d a b =>
    laneGuard g && c.ok .p d && c.ok .v a && c.ok .v b && fits g [d, a, b]
  | .fcmpUn g d a b =>
    laneGuard g && c.ok .p d && c.ok .v a && c.ok .v b && fits g [d, a, b]
  | .fcmpOr g d a b =>
    laneGuard g && c.ok .p d && c.ok .v a && c.ok .v b && fits g [d, a, b]
  | .pand g d a b =>
    laneGuard g && c.ok .p d && c.ok .p a && c.ok .p b && fits g [d, a, b]
  | .por g d a b =>
    laneGuard g && c.ok .p d && c.ok .p a && c.ok .p b && fits g [d, a, b]
  | .pxor g d a b =>
    laneGuard g && c.ok .p d && c.ok .p a && c.ok .p b && fits g [d, a, b]
  | .pandn g d a b =>
    laneGuard g && c.ok .p d && c.ok .p a && c.ok .p b && fits g [d, a, b]
  | .pnot g d a =>
    laneGuard g && c.ok .p d && c.ok .p a && fits g [d, a]
  | .pmov g d a =>
    laneGuard g && c.ok .p d && c.ok .p a && fits g [d, a]
  | .pset g d val =>
    laneGuard g && c.ok .p d && fitsImm g [d] false val.toNat
  | .voteAny g d a =>
    laneGuard g && c.ok .q d && c.ok .p a && fits g [d, a]
  | .voteAll g d a =>
    laneGuard g && c.ok .q d && c.ok .p a && fits g [d, a]
  | .ballot g d a group =>
    laneGuard g && c.ok .s d && c.ok .p a && decide (group < 32) && fitsImm g [d, a] false group
  | .pcnt g d a =>
    laneGuard g && c.ok .s d && c.ok .p a && fits g [d, a]
  | .addI64 g d a b =>
    laneGuard g && c.ok .w d && c.ok .w a && c.ok .w b && fits g [d, a, b]
  | .subI64 g d a b =>
    laneGuard g && c.ok .w d && c.ok .w a && c.ok .w b && fits g [d, a, b]
  | .mulI64 g d a b =>
    laneGuard g && c.ok .w d && c.ok .w a && c.ok .w b && fits g [d, a, b]
  | .shlB64 g d a b =>
    laneGuard g && c.ok .w d && c.ok .w a && c.ok .w b && fits g [d, a, b]
  | .shrN64 g d a b =>
    laneGuard g && c.ok .w d && c.ok .w a && c.ok .w b && fits g [d, a, b]
  | .shrI64 g d a b =>
    laneGuard g && c.ok .w d && c.ok .w a && c.ok .w b && fits g [d, a, b]
  | .andB64 g d a b =>
    laneGuard g && c.ok .w d && c.ok .w a && c.ok .w b && fits g [d, a, b]
  | .orB64 g d a b =>
    laneGuard g && c.ok .w d && c.ok .w a && c.ok .w b && fits g [d, a, b]
  | .xorB64 g d a b =>
    laneGuard g && c.ok .w d && c.ok .w a && c.ok .w b && fits g [d, a, b]
  | .cmpEqI64 g d a b =>
    laneGuard g && c.ok .p d && c.ok .w a && c.ok .w b && fits g [d, a, b]
  | .cmpLtI64 g d a b =>
    laneGuard g && c.ok .p d && c.ok .w a && c.ok .w b && fits g [d, a, b]
  | .cmpLtN64 g d a b =>
    laneGuard g && c.ok .p d && c.ok .w a && c.ok .w b && fits g [d, a, b]
  | .sxtI64 g d a =>
    laneGuard g && c.ok .w d && c.ok .v a && fits g [d, a]
  | .zxtN64 g d a =>
    laneGuard g && c.ok .w d && c.ok .v a && fits g [d, a]
  | .truncB32 g d a =>
    laneGuard g && c.ok .v d && c.ok .w a && fits g [d, a]
  | .sadd g d a b =>
    uniGuard g && c.ok .s d && c.ok .s a && c.ok .s b && fits g [d, a, b]
  | .ssub g d a b =>
    uniGuard g && c.ok .s d && c.ok .s a && c.ok .s b && fits g [d, a, b]
  | .smul g d a b =>
    uniGuard g && c.ok .s d && c.ok .s a && c.ok .s b && fits g [d, a, b]
  | .sand g d a b =>
    uniGuard g && c.ok .s d && c.ok .s a && c.ok .s b && fits g [d, a, b]
  | .sor g d a b =>
    uniGuard g && c.ok .s d && c.ok .s a && c.ok .s b && fits g [d, a, b]
  | .sxor g d a b =>
    uniGuard g && c.ok .s d && c.ok .s a && c.ok .s b && fits g [d, a, b]
  | .sshl g d a b =>
    uniGuard g && c.ok .s d && c.ok .s a && c.ok .s b && fits g [d, a, b]
  | .sshr g d a b =>
    uniGuard g && c.ok .s d && c.ok .s a && c.ok .s b && fits g [d, a, b]
  | .sminI32 g d a b =>
    uniGuard g && c.ok .s d && c.ok .s a && c.ok .s b && fits g [d, a, b]
  | .smaxI32 g d a b =>
    uniGuard g && c.ok .s d && c.ok .s a && c.ok .s b && fits g [d, a, b]
  | .scmpEq g d a b =>
    uniGuard g && c.ok .q d && c.ok .s a && c.ok .s b && fits g [d, a, b]
  | .scmpLt g d a b =>
    uniGuard g && c.ok .q d && c.ok .s a && c.ok .s b && fits g [d, a, b]
  | .xadd g d a b =>
    uniGuard g && c.ok .x d && c.ok .x a && c.ok .x b && fits g [d, a, b]
  | .xsub g d a b =>
    uniGuard g && c.ok .x d && c.ok .x a && c.ok .x b && fits g [d, a, b]
  | .xshl g d a b =>
    uniGuard g && c.ok .x d && c.ok .x a && c.ok .x b && fits g [d, a, b]
  | .xcmpLt g d a b =>
    uniGuard g && c.ok .q d && c.ok .x a && c.ok .x b && fits g [d, a, b]
  | .smovi g d imm =>
    uniGuard g && c.ok .s d && fitsImm g [d] true imm.toNat
  | .xmovi g d imm =>
    uniGuard g && c.ok .x d && fitsImm g [d] true imm.toNat
  | .xmovhi g d imm =>
    uniGuard g && c.ok .x d && fitsImm g [d] false imm.toNat
  | .s2v g d a =>
    laneGuard g && c.ok .v d && c.ok .s a && fits g [d, a]
  | .v2s g d a =>
    laneGuard g && c.ok .s d && c.ok .v a && fits g [d, a]
  | .x2w g d a =>
    laneGuard g && c.ok .w d && c.ok .x a && fits g [d, a]
  | .w2x g d a =>
    laneGuard g && c.ok .x d && c.ok .w a && fits g [d, a]
  | .cvtF32I32 g d a rnd =>
    laneGuard g && c.ok .v d && c.ok .v a && (rnd == .rne || rnd == .rz || rnd == .sr) && fits g [d, a]
  | .cvtI32F32 g d a rnd =>
    laneGuard g && c.ok .v d && c.ok .v a && (rnd == .rne || rnd == .rz || rnd == .sr) && fits g [d, a]
  | .cvtF32N32 g d a rnd =>
    laneGuard g && c.ok .v d && c.ok .v a && (rnd == .rne || rnd == .rz || rnd == .sr) && fits g [d, a]
  | .cvtN32F32 g d a rnd =>
    laneGuard g && c.ok .v d && c.ok .v a && (rnd == .rne || rnd == .rz || rnd == .sr) && fits g [d, a]
  | .cvtF16F32 g d a rnd =>
    laneGuard g && c.ok .v d && c.ok .v a && (rnd == .rne || rnd == .rz || rnd == .sr) && fits g [d, a]
  | .cvtBf16F32 g d a rnd =>
    laneGuard g && c.ok .v d && c.ok .v a && (rnd == .rne || rnd == .rz || rnd == .sr) && fits g [d, a]
  | .cvtF8aF32 g d a rnd =>
    laneGuard g && c.ok .v d && c.ok .v a && (rnd == .rne || rnd == .rz || rnd == .sr) && fits g [d, a]
  | .cvtF8bF32 g d a rnd =>
    laneGuard g && c.ok .v d && c.ok .v a && (rnd == .rne || rnd == .rz || rnd == .sr) && fits g [d, a]
  | .pip4Pack g d a rnd =>
    laneGuard g && c.ok .v d && c.ok .v a && (rnd == .rne || rnd == .rz || rnd == .sr) && fits g [d, a]
  | .cvtF32F16 g d a =>
    laneGuard g && c.ok .v d && c.ok .v a && fits g [d, a]
  | .cvtF32Bf16 g d a =>
    laneGuard g && c.ok .v d && c.ok .v a && fits g [d, a]
  | .cvtF32F8a g d a =>
    laneGuard g && c.ok .v d && c.ok .v a && fits g [d, a]
  | .cvtF32F8b g d a =>
    laneGuard g && c.ok .v d && c.ok .v a && fits g [d, a]
  | .pip4Unpack g d a =>
    laneGuard g && c.ok .v d && c.ok .v a && fits g [d, a]
  | .scaleBlk g d a b =>
    laneGuard g && c.ok .v d && c.ok .v a && c.ok .v b && fits g [d, a, b]
  | .shflIdx g d a team =>
    laneGuard g && c.ok .v d && c.ok .v a && fitsImm g [d, a] false team.toNat
  | .shflUp g d a team k =>
    laneGuard g && c.ok .v d && c.ok .v a && decide (k < 16384) && fitsImm g [d, a] false (team.toNat + 2 * k)
  | .shflDn g d a team k =>
    laneGuard g && c.ok .v d && c.ok .v a && decide (k < 16384) && fitsImm g [d, a] false (team.toNat + 2 * k)
  | .shflXor g d a team k =>
    laneGuard g && c.ok .v d && c.ok .v a && decide (k < 16384) && fitsImm g [d, a] false (team.toNat + 2 * k)
  | .redAddI32 g d a team =>
    laneGuard g && c.ok .v d && c.ok .v a && fitsImm g [d, a] false team.toNat
  | .redMinI32 g d a team =>
    laneGuard g && c.ok .v d && c.ok .v a && fitsImm g [d, a] false team.toNat
  | .redMinN32 g d a team =>
    laneGuard g && c.ok .v d && c.ok .v a && fitsImm g [d, a] false team.toNat
  | .redMaxI32 g d a team =>
    laneGuard g && c.ok .v d && c.ok .v a && fitsImm g [d, a] false team.toNat
  | .redFadd g d a team =>
    laneGuard g && c.ok .v d && c.ok .v a && fitsImm g [d, a] false team.toNat
  | .scanAddI32 g d a team =>
    laneGuard g && c.ok .v d && c.ok .v a && fitsImm g [d, a] false team.toNat
  | .bcastL g d a team k =>
    laneGuard g && c.ok .v d && c.ok .v a && decide (k < 16384) && fitsImm g [d, a] false (team.toNat + 2 * k)
  | .ldB8 g t xb vo disp =>
    laneGuard g && c.ok .v t && decide (xb < 32) && c.ok .x xb && c.ok .v vo && fitsDisp g [t, vo] disp.toNat
  | .ldB16 g t xb vo disp =>
    laneGuard g && c.ok .v t && decide (xb < 32) && c.ok .x xb && c.ok .v vo && fitsDisp g [t, vo] disp.toNat
  | .ldB32 g t xb vo disp =>
    laneGuard g && c.ok .v t && decide (xb < 32) && c.ok .x xb && c.ok .v vo && fitsDisp g [t, vo] disp.toNat
  | .ldB64 g t xb vo disp =>
    laneGuard g && c.ok .w t && decide (xb < 32) && c.ok .x xb && c.ok .v vo && fitsDisp g [t, vo] disp.toNat
  | .ldB128 g t xb vo disp =>
    laneGuard g && c.ok .v4 t && decide (xb < 32) && c.ok .x xb && c.ok .v vo && fitsDisp g [t, vo] disp.toNat
  | .ldsB32 g t xb disp =>
    uniGuard g && c.ok .s t && decide (xb < 32) && c.ok .x xb && fitsDisp g [t] disp.toNat
  | .ldsB64 g t xb disp =>
    uniGuard g && c.ok .x t && decide (xb < 32) && c.ok .x xb && fitsDisp g [t] disp.toNat
  | .probe g t xb vo disp =>
    laneGuard g && c.ok .v t && decide (xb < 32) && c.ok .x xb && c.ok .v vo && fitsDisp g [t, vo] disp.toNat
  | .stB8 g t xb vo disp =>
    laneGuard g && c.ok .v t && decide (xb < 32) && c.ok .x xb && c.ok .v vo && fitsDisp g [t, vo] disp.toNat
  | .stB16 g t xb vo disp =>
    laneGuard g && c.ok .v t && decide (xb < 32) && c.ok .x xb && c.ok .v vo && fitsDisp g [t, vo] disp.toNat
  | .stB32 g t xb vo disp =>
    laneGuard g && c.ok .v t && decide (xb < 32) && c.ok .x xb && c.ok .v vo && fitsDisp g [t, vo] disp.toNat
  | .stB64 g t xb vo disp =>
    laneGuard g && c.ok .w t && decide (xb < 32) && c.ok .x xb && c.ok .v vo && fitsDisp g [t, vo] disp.toNat
  | .stB128 g t xb vo disp =>
    laneGuard g && c.ok .v4 t && decide (xb < 32) && c.ok .x xb && c.ok .v vo && fitsDisp g [t, vo] disp.toNat
  | .stsB32 g t xb disp =>
    uniGuard g && c.ok .s t && decide (xb < 32) && c.ok .x xb && fitsDisp g [t] disp.toNat
  | .stsB64 g t xb disp =>
    uniGuard g && c.ok .x t && decide (xb < 32) && c.ok .x xb && fitsDisp g [t] disp.toNat
  | .atomAddI32 t xb vo order _ sc nr =>
    c.ok .v t && decide (xb < 32) && c.ok .x xb && c.ok .v vo && (!sc || order == .acqRel) && fitsAtomic [t, vo] sc nr
  | .atomAddF32 t xb vo order _ sc nr =>
    c.ok .v t && decide (xb < 32) && c.ok .x xb && c.ok .v vo && (!sc || order == .acqRel) && fitsAtomic [t, vo] sc nr
  | .atomMinI32 t xb vo order _ sc nr =>
    c.ok .v t && decide (xb < 32) && c.ok .x xb && c.ok .v vo && (!sc || order == .acqRel) && fitsAtomic [t, vo] sc nr
  | .atomMinN32 t xb vo order _ sc nr =>
    c.ok .v t && decide (xb < 32) && c.ok .x xb && c.ok .v vo && (!sc || order == .acqRel) && fitsAtomic [t, vo] sc nr
  | .atomMaxI32 t xb vo order _ sc nr =>
    c.ok .v t && decide (xb < 32) && c.ok .x xb && c.ok .v vo && (!sc || order == .acqRel) && fitsAtomic [t, vo] sc nr
  | .atomMaxN32 t xb vo order _ sc nr =>
    c.ok .v t && decide (xb < 32) && c.ok .x xb && c.ok .v vo && (!sc || order == .acqRel) && fitsAtomic [t, vo] sc nr
  | .atomAnd t xb vo order _ sc nr =>
    c.ok .v t && decide (xb < 32) && c.ok .x xb && c.ok .v vo && (!sc || order == .acqRel) && fitsAtomic [t, vo] sc nr
  | .atomOr t xb vo order _ sc nr =>
    c.ok .v t && decide (xb < 32) && c.ok .x xb && c.ok .v vo && (!sc || order == .acqRel) && fitsAtomic [t, vo] sc nr
  | .atomXor t xb vo order _ sc nr =>
    c.ok .v t && decide (xb < 32) && c.ok .x xb && c.ok .v vo && (!sc || order == .acqRel) && fitsAtomic [t, vo] sc nr
  | .atomXchg t xb vo order _ sc nr =>
    c.ok .v t && decide (xb < 32) && c.ok .x xb && c.ok .v vo && (!sc || order == .acqRel) && fitsAtomic [t, vo] sc nr
  | .atomCas t xb vo order _ sc nr =>
    c.ok .v2 t && decide (xb < 32) && c.ok .x xb && c.ok .v vo && (!sc || order == .acqRel) && fitsAtomic [t, vo] sc nr
  | .atomAddI64 t xb vo order _ sc nr =>
    c.ok .w t && decide (xb < 32) && c.ok .x xb && c.ok .v vo && (!sc || order == .acqRel) && fitsAtomic [t, vo] sc nr
  | .atomCasI64 t xb vo order _ sc nr =>
    c.ok .w2 t && decide (xb < 32) && c.ok .x xb && c.ok .v vo && (!sc || order == .acqRel) && fitsAtomic [t, vo] sc nr
  | .ldAcq t xb vo order _ sc nr =>
    c.ok .v t && decide (xb < 32) && c.ok .x xb && c.ok .v vo && (order == .acquire) && !nr && fitsAtomic [t, vo] sc nr
  | .stRel t xb vo order _ sc nr =>
    c.ok .v t && decide (xb < 32) && c.ok .x xb && c.ok .v vo && (order == .release) && !nr && fitsAtomic [t, vo] sc nr
  | .atomIncN32 t xb vo order _ sc nr =>
    c.ok .v t && decide (xb < 32) && c.ok .x xb && c.ok .v vo && (!sc || order == .acqRel) && fitsAtomic [t, vo] sc nr
  | .fence g _ order sc =>
    uniGuard g && (order != .relaxed) && (!sc || order == .acqRel) && fitsImm g [] false 0
  | .barArrive g a b =>
    uniGuard g && c.ok .x a && c.ok .s b && fits g [a, b]
  | .barWait g a =>
    uniGuard g && c.ok .x a && fits g [a]
  | .barSync g a b =>
    uniGuard g && c.ok .x a && c.ok .s b && fits g [a, b]
  | .mon g a =>
    uniGuard g && c.ok .x a && fits g [a]
  | .mwait g =>
    uniGuard g && fits g []
  | .waitc g _ n =>
    uniGuard g && decide (n < 8192) && fitsImm g [] false (4 * n)
  | .waitb g a =>
    uniGuard g && c.ok .s a && fits g [a]
  | .yield g =>
    uniGuard g && fits g []
  | .nflagMerge g a =>
    uniGuard g && c.ok .x a && fits g [a]
  | .cpG2s g a =>
    uniGuard g && c.ok .x a && fits g [a]
  | .cpS2g g a =>
    uniGuard g && c.ok .x a && fits g [a]
  | .cpG2g g a =>
    uniGuard g && c.ok .x a && fits g [a]
  | .cpTile g a =>
    uniGuard g && c.ok .x a && fits g [a]
  | .cpRed g a =>
    uniGuard g && c.ok .x a && fits g [a]
  | .cpGather g a b =>
    laneGuard g && c.ok .x a && c.ok .v b && fits g [a, b]
  | .cpClose g d =>
    uniGuard g && c.ok .s d && fits g [d]
  | .cpStamp g a _ =>
    uniGuard g && c.ok .x a && fits g [a]
  | .trkOpen g d a b =>
    uniGuard g && c.ok .k d && c.ok .x a && c.ok .s b && fits g [d, a, b]
  | .trkWfill g a b =>
    uniGuard g && c.ok .k a && c.ok .s b && fits g [a, b]
  | .trkWfree g a b =>
    uniGuard g && c.ok .k a && c.ok .s b && fits g [a, b]
  | .trkAdvP g a b =>
    uniGuard g && c.ok .k a && c.ok .s b && fits g [a, b]
  | .trkAdvC g a b =>
    uniGuard g && c.ok .k a && c.ok .s b && fits g [a, b]
  | .trkClose g a =>
    uniGuard g && c.ok .k a && fits g [a]
  | .trkState g d a =>
    uniGuard g && c.ok .s d && c.ok .k a && fits g [d, a]
  | .obRsv g d a =>
    uniGuard g && c.ok .o d && c.ok .x a && fits g [d, a]
  | .obRel g a =>
    uniGuard g && c.ok .o a && fits g [a]
  | .obFill g a b =>
    uniGuard g && c.ok .o a && c.ok .x b && fits g [a, b]
  | .obInfo g d a =>
    uniGuard g && c.ok .x d && c.ok .o a && fits g [d, a]
  | .unfCfg g a =>
    uniGuard g && c.ok .x a && fits g [a]
  | .mma g d a b =>
    laneGuard g && c.ok .a d && c.ok .o a && c.ok .o b && fits g [d, a, b]
  | .mmaZ g d a b =>
    laneGuard g && c.ok .a d && c.ok .o a && c.ok .o b && fits g [d, a, b]
  | .accAlloc g d a =>
    uniGuard g && c.ok .a d && c.ok .s a && fits g [d, a]
  | .accFree g a =>
    uniGuard g && c.ok .a a && fits g [a]
  | .accRd g d a b =>
    laneGuard g && c.ok .v d && c.ok .a a && c.ok .v b && fits g [d, a, b]
  | .accWr g d a b =>
    laneGuard g && c.ok .v d && c.ok .a a && c.ok .v b && fits g [d, a, b]
  | .accZero g a =>
    uniGuard g && c.ok .a a && fits g [a]
  | .accSt g d a b =>
    uniGuard g && c.ok .x d && c.ok .a a && c.ok .s b && fits g [d, a, b]
  | .accPatch g d a b =>
    uniGuard g && c.ok .s d && c.ok .a a && c.ok .s b && fits g [d, a, b]
  | .accFlags g d a =>
    uniGuard g && c.ok .s d && c.ok .a a && fits g [d, a]
  | .bra cond _ =>
    decide (cond.num < 16)
  | .bru cond _ =>
    decide (cond.num < 8)
  | .dvg cond _ =>
    decide (cond.num < 16)
  | .cnv =>
    true
  | .brk cond =>
    decide (cond.num < 16)
  | .call cond _ =>
    decide (cond.num < 8)
  | .extRet =>
    true
  | .extExit =>
    true
  | .extCalli a =>
    c.ok .x a
  | .extJmpi a =>
    c.ok .x a
  | .ovld g d a _ =>
    uniGuard g && c.ok .y d && c.ok .s a && fits g [d, a]
  | .ovwait g d a =>
    uniGuard g && c.ok .q d && c.ok .y a && fits g [d, a]
  | .ifence g =>
    uniGuard g && fits g []
  | .bswap g a =>
    uniGuard g && c.ok .x a && fits g [a]
  | .calt g a b =>
    uniGuard g && c.ok .y a && c.ok .x b && fits g [a, b]
  | .ovrel g a =>
    uniGuard g && c.ok .y a && fits g [a]
  | .lch g d a =>
    uniGuard g && c.ok .s d && c.ok .x a && fits g [d, a]
  | .cjoin g a =>
    uniGuard g && c.ok .x a && fits g [a]
  | .lstat g d a =>
    uniGuard g && c.ok .s d && c.ok .x a && fits g [d, a]
  | .tgOpen g h =>
    uniGuard g && decide (h < 16) && fits g []
  | .tstB32 g t xb vo h =>
    laneGuard g && c.ok .v t && decide (xb < 32) && c.ok .x xb && c.ok .v vo && decide (h < 16) && fits g [t, vo]
  | .tstB64 g t xb vo h =>
    laneGuard g && c.ok .w t && decide (xb < 32) && c.ok .x xb && c.ok .v vo && decide (h < 16) && fits g [t, vo]
  | .tstB128 g t xb vo h =>
    laneGuard g && c.ok .v4 t && decide (xb < 32) && c.ok .x xb && c.ok .v vo && decide (h < 16) && fits g [t, vo]
  | .tgCommit g h =>
    uniGuard g && decide (h < 16) && fits g []
  | .tgAbort g h =>
    uniGuard g && decide (h < 16) && fits g []
  | .tgWait g t h =>
    uniGuard g && c.ok .s t && decide (h < 16) && fits g [t]
  | .trap g imm =>
    uniGuard g && fitsImm g [] false imm.toNat
  | .tret =>
    true
  | .brkpt g imm =>
    uniGuard g && fitsImm g [] false imm.toNat
  | .mark g imm =>
    uniGuard g && fitsImm g [] false imm.toNat
  | .wptSet g a b =>
    uniGuard g && c.ok .s a && c.ok .x b && fits g [a, b]
  | .wptClr g a =>
    uniGuard g && c.ok .s a && fits g [a]
  | .perfRd g d a =>
    uniGuard g && c.ok .x d && c.ok .s a && fits g [d, a]
  | .cfgRd g d a =>
    uniGuard g && c.ok .x d && c.ok .x a && fits g [d, a]
  | .cfgWr g a b =>
    uniGuard g && c.ok .x a && c.ok .x b && fits g [a, b]
  | .halt =>
    true
  | .illegalEncoding _ _ => false
  | .deliveryLoadDone _ _ _ _ => false
  | .parkWake _ => false
  | .trkAdvanceApply _ _ => false
  | .mmaComplete _ _ => false
  | .accStComplete _ _ => false
  | .batchComplete _ _ => false
  | .gatherComplete _ _ => false
  | .stampWrite _ => false
  | .cpredSegmentApply _ _ _ => false
  | .copyAbandon _ _ _ _ => false
  | .engineWatchSuspend _ _ _ => false
  | .teamRetire _ => false
  | .quantumExpiry _ _ => false
  | .preemptRequest _ _ => false
  | .crewSaveDone _ => false
  | .crewRestore _ _ => false
  | .launchWindowWrite _ _ _ => false
  | .launchReady _ => false
  | .crewPlace _ _ _ => false
  | .tablePlace _ _ _ => false
  | .entryFillDone _ _ _ => false
  | .launchComplete _ => false
  | .overlayLoadStart _ _ _ => false
  | .overlayLoadDone _ _ _ _ => false
  | .forcedReclaim _ _ _ => false
  | .translationDone _ => false
  | .reoptSetComplete _ _ => false
  | .regionRollback _ _ => false
  | .prqEntryGrant => false
  | .prresp _ _ _ => false
  | .probeReplay _ => false
  | .prqhead _ _ _ => false
  | .prqbase _ _ _ => false
  | .inval _ _ => false
  | .flog0 _ _ => false
  | .trhead _ _ => false
  | .brdcfg _ _ => false
  | .sgcfg _ _ => false
  | .s2base _ _ => false
  | .s2bound _ _ => false
  | .quota _ _ => false
  | .vfEnable _ => false
  | .vfScrubDone _ => false
  | .vfReset _ => false
  | .vfResetDone _ => false
  | .vfFlr _ => false
  | .sliceExpiry _ => false
  | .sliceStart _ => false
  | .rate _ _ _ => false
  | .bucketRefill _ _ => false
  | .imgLoad _ => false
  | .imgLoadDone _ => false
  | .imgUnload _ _ => false
  | .imgUnloadDone _ => false
  | .keySlotWrite _ _ _ => false
  | .powerOn => false
  | .bootPhaseAdvance _ => false
  | .devrst _ => false
  | .pcieReset => false
  | .getVersion _ => false
  | .getCapabilities _ _ => false
  | .negotiateAlgorithms _ => false
  | .getDigests _ => false
  | .getCertificate _ _ => false
  | .challenge _ _ => false
  | .getMeasurements _ _ _ => false
  | .spdmUnsupportedRequest _ => false
  | .mctpControl _ _ => false
  | .pldmMonitoring _ _ => false
  | .pldmFirmwareUpdate => false
  | .vendorResetMessage => false
  | .ckptSave => false
  | .ckptRestore => false
  | .ckptDone _ => false
  | .errorDetect _ _ _ _ => false
  | .selfTestDone _ _ _ _ => false
  | .errcnt _ => false
  | .l2Writeback _ => false
  | .reencryptDone _ _ => false
  | .fabid _ => false
  | .planemap _ => false
  | .planemapApply => false
  | .linkEnable _ _ => false
  | .linkUp _ _ => false
  | .linkDown _ => false
  | .flitReceive _ _ _ => false
  | .nackReceive _ _ => false
  | .planeWaitTimeout _ => false
  | .fabricRequestReceive _ _ _ _ _ _ => false
  | .fabricResponseReceive _ _ => false
  | .fabricReleasePerform _ _ => false
  | .releaseCountTimeout _ _ => false
  | .streamReset _ _ _ => false
  | .stgq _ _ => false
  | .stagedStoreReceive _ _ _ _ => false
  | .prepare _ _ _ _ => false
  | .ready _ _ => false
  | .refuse _ _ _ => false
  | .commit _ => false
  | .abort _ => false
  | .acknowledge _ _ _ => false
  | .forget _ => false
  | .query _ _ => false
  | .queryAnswer _ _ _ => false
  | .tgresolve _ => false
  | .nodeLost _ => false
  | .peerFetchRequest _ _ _ _ _ _ => false
  | .peerFetchReceive _ _ _ _ _ _ _ => false
  | .configRegisterWrite _ _ => false
  | .peerFetchTimeout _ => false

end Sys2Proof
end

