-- ==== Sys2Proof/Decode.lean ====
section
/-! DEFINITION. From the words of a quad to an instruction or a named defect, and from an instruction to its words. -/

namespace Sys2Proof

/-- Bits `[hi:lo]` of a word. -/
def bits (w hi lo : Nat) : Nat := w / 2 ^ lo % 2 ^ (hi + 1 - lo)

/-! Literals and codes. -/

/-- The scope codes (R27). -/
def Scope.toCode : Scope → Nat
  | .crew => 0 | .table => 1 | .device => 2 | .fabric => 3

/-- The scope a code names; only the codes 0 to 3 occur. -/
def Scope.ofCode : Nat → Scope
  | 0 => .crew | 1 => .table | 2 => .device | _ => .fabric

/-- The order codes (R27). -/
def Order.toCode : Order → Nat
  | .relaxed => 0 | .acquire => 1 | .release => 2 | .acqRel => 3

/-- The order a code names; only the codes 0 to 3 occur. -/
def Order.ofCode : Nat → Order
  | 0 => .relaxed | 1 => .acquire | 2 => .release | _ => .acqRel

/-- The rounding codes (R55). -/
def Rnd.toCode : Rnd → Nat
  | .rne => 0 | .rz => 1 | .sr => 2 | .ru => 3 | .rd => 4 | .rna => 5 | .fpmode => 6

/-- The rounding mode a code names; only the codes 0 to 6 occur. -/
def Rnd.ofCode : Nat → Rnd
  | 0 => .rne | 1 => .rz | 2 => .sr | 3 => .ru | 4 => .rd | 5 => .rna | _ => .fpmode

/-- The waitc classes (R49). -/
def WaitClass.toCode : WaitClass → Nat
  | .matrix => 0 | .gather => 1 | .fabric => 2

/-- The class a code names; only the codes 0 to 2 occur. -/
def WaitClass.ofCode : Nat → WaitClass
  | 0 => .matrix | 1 => .gather | _ => .fabric

/-- The bank codes of ovld (R52). -/
def Bank.toCode : Bank → Nat
  | .a => 0 | .b => 1

/-- The bank a code names; only the codes 0 and 1 occur. -/
def Bank.ofCode : Nat → Bank
  | 0 => .a | _ => .b

/-- The code of a special register (R56). -/
def SpReg.toCode : SpReg → Nat
  | .team => 0x00 | .crew => 0x01 | .table => 0x02 | .nteam => 0x03 | .nlane => 0x04 | .ncrew => 0x05 | .launch => 0x06
  | .argbase => 0x07 | .scrbase => 0x08 | .cycles => 0x09 | .nflags => 0x0A | .fpmode => 0x0B | .srseed => 0x0C
  | .bank => 0x0D | .priv => 0x0E | .tcause => 0x10 | .tvpc => 0x11 | .taddr => 0x12 | .tinfo => 0x13 | .tdone _ => 0x14
  | .vf => 0x20 | .core => 0x21 | .split => 0x22

/-- The immediate of rdsp and wrsp: the code in bits 6..0, the group index in bits 11..7 (R56). -/
def SpReg.toImm (r : SpReg) : Nat := r.toCode + 128 * r.group

/-- The special register a code names, with the group index that TDONE takes (R56). -/
def SpReg.ofCode (group : Nat) : Nat → Option SpReg
  | 0x00 => some .team | 0x01 => some .crew | 0x02 => some .table | 0x03 => some .nteam | 0x04 => some .nlane
  | 0x05 => some .ncrew | 0x06 => some .launch | 0x07 => some .argbase | 0x08 => some .scrbase | 0x09 => some .cycles
  | 0x0A => some .nflags | 0x0B => some .fpmode | 0x0C => some .srseed | 0x0D => some .bank | 0x0E => some .priv
  | 0x10 => some .tcause | 0x11 => some .tvpc | 0x12 => some .taddr | 0x13 => some .tinfo | 0x14 => some (.tdone group)
  | 0x20 => some .vf | 0x21 => some .core | 0x22 => some .split
  | _ => none

/-- The special register an assembled immediate names (R56). -/
def SpReg.ofImm (imm : Nat) : Option SpReg := SpReg.ofCode (imm / 128 % 32) (imm % 128)

/-! The opcode map. -/

/-- The form of a slot (R25 to R28). -/
inductive Form where
  | A | I | M | AT | J
deriving DecidableEq, Repr

/-- The guard class of an instruction (R30). -/
inductive GuardClass where
  | none | lane | uniform | byCode
deriving DecidableEq, Repr

/-- One row of the opcode map. -/
structure OpInfo where
  form : Form
  d : Role
  a : Role
  b : Role
  gc : GuardClass
deriving DecidableEq, Repr

/-- The rows of one major in the order of their FN: form, the roles of D, A and B (T, VO and IMM4 in form M), and the guard
class (R42 to R53). An FN past the end of its list names no mnemonic (R54). -/
def opRows : Nat → List OpInfo
  | 0 =>
    [⟨.A, .none, .none, .none, .none⟩, ⟨.A, .v, .v, .none, .lane⟩, ⟨.I, .v, .none, .imm true, .lane⟩, ⟨.A, .v, .v, .p, .lane⟩, ⟨.A, .v, .none, .none, .lane⟩, ⟨.I, .byCode, .none, .imm false, .byCode⟩, ⟨.I, .none, .byCode, .imm false, .byCode⟩]
  | 1 =>
    List.replicate 10 ⟨.A, .v, .v, .v, .lane⟩ ++
    List.replicate 2 ⟨.A, .v, .v, .none, .lane⟩ ++
    List.replicate 4 ⟨.A, .v, .v, .v, .lane⟩
  | 2 =>
    [⟨.I, .v, .v, .imm true, .lane⟩] ++
    List.replicate 3 ⟨.I, .v, .v, .imm false, .lane⟩ ++
    List.replicate 2 ⟨.I, .v, .v, .imm true, .lane⟩
  | 3 =>
    List.replicate 3 ⟨.A, .v, .v, .v, .lane⟩ ++
    List.replicate 3 ⟨.I, .v, .v, .imm false, .lane⟩ ++
    List.replicate 3 ⟨.A, .v, .v, .v, .lane⟩ ++
    List.replicate 3 ⟨.A, .v, .v, .none, .lane⟩ ++
    [⟨.A, .v, .v, .v, .lane⟩]
  | 4 =>
    List.replicate 8 ⟨.A, .v, .v, .v, .lane⟩
  | 5 =>
    List.replicate 6 ⟨.A, .v, .v, .v, .lane⟩ ++
    List.replicate 2 ⟨.A, .v, .v, .none, .lane⟩
  | 6 =>
    [⟨.A, .v, .v, .v, .lane⟩] ++
    List.replicate 8 ⟨.A, .v, .v, .none, .lane⟩ ++
    [⟨.A, .v, .v, .lit, .lane⟩]
  | 7 =>
    List.replicate 8 ⟨.A, .v, .v, .v, .lane⟩
  | 8 =>
    List.replicate 10 ⟨.A, .p, .v, .v, .lane⟩
  | 9 =>
    List.replicate 8 ⟨.A, .p, .v, .v, .lane⟩
  | 10 =>
    List.replicate 4 ⟨.A, .p, .p, .p, .lane⟩ ++
    List.replicate 2 ⟨.A, .p, .p, .none, .lane⟩ ++
    [⟨.I, .p, .none, .imm false, .lane⟩] ++
    List.replicate 2 ⟨.A, .q, .p, .none, .lane⟩ ++
    [⟨.I, .s, .p, .imm false, .lane⟩, ⟨.A, .s, .p, .none, .lane⟩]
  | 11 =>
    List.replicate 9 ⟨.A, .w, .w, .w, .lane⟩ ++
    List.replicate 3 ⟨.A, .p, .w, .w, .lane⟩ ++
    List.replicate 2 ⟨.A, .w, .v, .none, .lane⟩ ++
    [⟨.A, .v, .w, .none, .lane⟩]
  | 12 =>
    List.replicate 10 ⟨.A, .s, .s, .s, .uniform⟩ ++
    List.replicate 2 ⟨.A, .q, .s, .s, .uniform⟩ ++
    List.replicate 3 ⟨.A, .x, .x, .x, .uniform⟩ ++
    [⟨.A, .q, .x, .x, .uniform⟩]
  | 13 =>
    [⟨.I, .s, .none, .imm true, .uniform⟩, ⟨.I, .x, .none, .imm true, .uniform⟩, ⟨.I, .x, .none, .imm false, .uniform⟩, ⟨.A, .v, .s, .none, .lane⟩, ⟨.A, .s, .v, .none, .lane⟩, ⟨.A, .w, .x, .none, .lane⟩, ⟨.A, .x, .w, .none, .lane⟩]
  | 14 =>
    List.replicate 5 ⟨.A, .v, .v, .lit, .lane⟩ ++
    [⟨.A, .v, .v, .none, .lane⟩, ⟨.A, .v, .v, .lit, .lane⟩, ⟨.A, .v, .v, .none, .lane⟩, ⟨.A, .v, .v, .lit, .lane⟩, ⟨.A, .v, .v, .none, .lane⟩, ⟨.A, .v, .v, .lit, .lane⟩, ⟨.A, .v, .v, .none, .lane⟩, ⟨.A, .v, .v, .lit, .lane⟩, ⟨.A, .v, .v, .none, .lane⟩, ⟨.A, .v, .v, .v, .lane⟩]
  | 15 =>
    List.replicate 11 ⟨.I, .v, .v, .imm false, .lane⟩
  | 16 =>
    List.replicate 3 ⟨.M, .v, .v, .imm true, .lane⟩ ++
    [⟨.M, .w, .v, .imm true, .lane⟩, ⟨.M, .v4, .v, .imm true, .lane⟩, ⟨.M, .s, .none, .imm true, .uniform⟩, ⟨.M, .x, .none, .imm true, .uniform⟩, ⟨.M, .v, .v, .imm true, .lane⟩]
  | 17 =>
    List.replicate 3 ⟨.M, .v, .v, .imm true, .lane⟩ ++
    [⟨.M, .w, .v, .imm true, .lane⟩, ⟨.M, .v4, .v, .imm true, .lane⟩, ⟨.M, .s, .none, .imm true, .uniform⟩, ⟨.M, .x, .none, .imm true, .uniform⟩]
  | 18 =>
    List.replicate 10 ⟨.AT, .v, .v, .none, .none⟩ ++
    [⟨.AT, .v2, .v, .none, .none⟩, ⟨.AT, .w, .v, .none, .none⟩, ⟨.AT, .w2, .v, .none, .none⟩] ++
    List.replicate 3 ⟨.AT, .v, .v, .none, .none⟩
  | 19 =>
    [⟨.I, .none, .none, .imm false, .uniform⟩, ⟨.A, .none, .x, .s, .uniform⟩, ⟨.A, .none, .x, .none, .uniform⟩, ⟨.A, .none, .x, .s, .uniform⟩, ⟨.A, .none, .x, .none, .uniform⟩, ⟨.A, .none, .none, .none, .uniform⟩, ⟨.I, .none, .none, .imm false, .uniform⟩, ⟨.A, .none, .s, .none, .uniform⟩, ⟨.A, .none, .none, .none, .uniform⟩, ⟨.A, .none, .x, .none, .uniform⟩]
  | 20 =>
    List.replicate 5 ⟨.A, .none, .x, .none, .uniform⟩ ++
    [⟨.A, .none, .x, .v, .lane⟩, ⟨.A, .s, .none, .none, .uniform⟩, ⟨.A, .none, .x, .lit, .uniform⟩]
  | 21 =>
    [⟨.A, .k, .x, .s, .uniform⟩] ++
    List.replicate 4 ⟨.A, .none, .k, .s, .uniform⟩ ++
    [⟨.A, .none, .k, .none, .uniform⟩, ⟨.A, .s, .k, .none, .uniform⟩]
  | 22 =>
    [⟨.A, .o, .x, .none, .uniform⟩, ⟨.A, .none, .o, .none, .uniform⟩, ⟨.A, .none, .o, .x, .uniform⟩, ⟨.A, .x, .o, .none, .uniform⟩]
  | 23 =>
    [⟨.A, .none, .x, .none, .uniform⟩] ++
    List.replicate 2 ⟨.A, .a, .o, .o, .lane⟩ ++
    [⟨.A, .a, .s, .none, .uniform⟩, ⟨.A, .none, .a, .none, .uniform⟩]
  | 24 =>
    List.replicate 2 ⟨.A, .v, .a, .v, .lane⟩ ++
    [⟨.A, .none, .a, .none, .uniform⟩, ⟨.A, .x, .a, .s, .uniform⟩, ⟨.A, .s, .a, .s, .uniform⟩, ⟨.A, .s, .a, .none, .uniform⟩]
  | 25 =>
    List.replicate 7 ⟨.J, .none, .none, .none, .none⟩
  | 26 =>
    [⟨.A, .y, .s, .lit, .uniform⟩, ⟨.A, .q, .y, .none, .uniform⟩, ⟨.A, .none, .none, .none, .uniform⟩, ⟨.A, .none, .x, .none, .uniform⟩, ⟨.A, .none, .y, .x, .uniform⟩, ⟨.A, .none, .y, .none, .uniform⟩]
  | 27 =>
    [⟨.A, .s, .x, .none, .uniform⟩, ⟨.A, .none, .x, .none, .uniform⟩, ⟨.A, .s, .x, .none, .uniform⟩]
  | 28 =>
    [⟨.M, .none, .none, .hnum, .uniform⟩, ⟨.M, .v, .v, .hnum, .lane⟩, ⟨.M, .w, .v, .hnum, .lane⟩, ⟨.M, .v4, .v, .hnum, .lane⟩] ++
    List.replicate 2 ⟨.M, .none, .none, .hnum, .uniform⟩ ++
    [⟨.M, .s, .none, .hnum, .uniform⟩]
  | 29 =>
    [⟨.I, .none, .none, .imm false, .uniform⟩, ⟨.A, .none, .none, .none, .none⟩] ++
    List.replicate 2 ⟨.I, .none, .none, .imm false, .uniform⟩ ++
    [⟨.A, .none, .s, .x, .uniform⟩, ⟨.A, .none, .s, .none, .uniform⟩, ⟨.A, .x, .s, .none, .uniform⟩, ⟨.A, .x, .x, .none, .uniform⟩, ⟨.A, .none, .x, .x, .uniform⟩, ⟨.A, .none, .none, .none, .none⟩]
  | _ => []

/-- The row of the opcode map for a major and an FN. -/
def opInfo (mj fn : Nat) : Option OpInfo := (opRows mj)[fn]?

/-- The fields of one instruction with lender bits attached and the immediate brought to 32 bits (R29, R34). `d`, `a` and `b`
are D, A and B, or T and VO; `p`, `neg` and `imm` are the condition and offset of form J. -/
structure Fields where
  form : Form
  mj : Nat
  fn : Nat
  d : Nat := 0
  a : Nat := 0
  b : Nat := 0
  xb : Nat := 0
  imm : Nat := 0
  guard : Option Guard := none
  ord : Nat := 0
  scope : Nat := 0
  mods : Nat := 0
  p : Nat := 0
  neg : Bool := false
deriving DecidableEq, Repr

/-- The instruction of major 0 (R42) that FN and fields name. -/
def instrOf0 (f : Fields) : Option Instr :=
  match f.fn with
  | 0 => some .nop
  | 1 => some (.mov f.guard f.d f.a)
  | 2 => some (.movi f.guard f.d (BitVec.ofNat 32 f.imm))
  | 3 => some (.sel f.guard f.d f.a f.b)
  | 4 => some (.laneid f.guard f.d)
  | 5 => (SpReg.ofImm f.imm).map fun r => .rdsp f.guard f.d r
  | 6 => (SpReg.ofImm f.imm).map fun r => .wrsp f.guard f.a r
  | _ => none

/-- The instruction of major 1 (R42) that FN and fields name. -/
def instrOf1 (f : Fields) : Option Instr :=
  match f.fn with
  | 0 => some (.addI32 f.guard f.d f.a f.b)
  | 1 => some (.subI32 f.guard f.d f.a f.b)
  | 2 => some (.minI32 f.guard f.d f.a f.b)
  | 3 => some (.minN32 f.guard f.d f.a f.b)
  | 4 => some (.maxI32 f.guard f.d f.a f.b)
  | 5 => some (.maxN32 f.guard f.d f.a f.b)
  | 6 => some (.andB32 f.guard f.d f.a f.b)
  | 7 => some (.orB32 f.guard f.d f.a f.b)
  | 8 => some (.xorB32 f.guard f.d f.a f.b)
  | 9 => some (.andnB32 f.guard f.d f.a f.b)
  | 10 => some (.absI32 f.guard f.d f.a)
  | 11 => some (.negI32 f.guard f.d f.a)
  | 12 => some (.addsI32 f.guard f.d f.a f.b)
  | 13 => some (.subsI32 f.guard f.d f.a f.b)
  | 14 => some (.addsN32 f.guard f.d f.a f.b)
  | 15 => some (.subsN32 f.guard f.d f.a f.b)
  | _ => none

/-- The instruction of major 2 (R42) that FN and fields name. -/
def instrOf2 (f : Fields) : Option Instr :=
  match f.fn with
  | 0 => some (.addiI32 f.guard f.d f.a (BitVec.ofNat 32 f.imm))
  | 1 => some (.andiB32 f.guard f.d f.a (BitVec.ofNat 32 f.imm))
  | 2 => some (.oriB32 f.guard f.d f.a (BitVec.ofNat 32 f.imm))
  | 3 => some (.xoriB32 f.guard f.d f.a (BitVec.ofNat 32 f.imm))
  | 4 => some (.miniI32 f.guard f.d f.a (BitVec.ofNat 32 f.imm))
  | 5 => some (.maxiI32 f.guard f.d f.a (BitVec.ofNat 32 f.imm))
  | _ => none

/-- The instruction of major 3 (R42) that FN and fields name. -/
def instrOf3 (f : Fields) : Option Instr :=
  match f.fn with
  | 0 => some (.shlB32 f.guard f.d f.a f.b)
  | 1 => some (.shrN32 f.guard f.d f.a f.b)
  | 2 => some (.shrI32 f.guard f.d f.a f.b)
  | 3 => some (.shliB32 f.guard f.d f.a (BitVec.ofNat 32 f.imm))
  | 4 => some (.shriN32 f.guard f.d f.a (BitVec.ofNat 32 f.imm))
  | 5 => some (.shriI32 f.guard f.d f.a (BitVec.ofNat 32 f.imm))
  | 6 => some (.bfeN32 f.guard f.d f.a f.b)
  | 7 => some (.bfeI32 f.guard f.d f.a f.b)
  | 8 => some (.bfiB32 f.guard f.d f.a f.b)
  | 9 => some (.popcB32 f.guard f.d f.a)
  | 10 => some (.clzB32 f.guard f.d f.a)
  | 11 => some (.brevB32 f.guard f.d f.a)
  | 12 => some (.prmtB32 f.guard f.d f.a f.b)
  | _ => none

/-- The instruction of major 4 (R42) that FN and fields name. -/
def instrOf4 (f : Fields) : Option Instr :=
  match f.fn with
  | 0 => some (.mulI32 f.guard f.d f.a f.b)
  | 1 => some (.mulhiI32 f.guard f.d f.a f.b)
  | 2 => some (.mulhiN32 f.guard f.d f.a f.b)
  | 3 => some (.madI32 f.guard f.d f.a f.b)
  | 4 => some (.divI32 f.guard f.d f.a f.b)
  | 5 => some (.divN32 f.guard f.d f.a f.b)
  | 6 => some (.remI32 f.guard f.d f.a f.b)
  | 7 => some (.remN32 f.guard f.d f.a f.b)
  | _ => none

/-- The instruction of major 5 (R43) that FN and fields name. -/
def instrOf5 (f : Fields) : Option Instr :=
  match f.fn with
  | 0 => some (.fadd f.guard f.d f.a f.b)
  | 1 => some (.fsub f.guard f.d f.a f.b)
  | 2 => some (.fmul f.guard f.d f.a f.b)
  | 3 => some (.ffma f.guard f.d f.a f.b)
  | 4 => some (.fmin f.guard f.d f.a f.b)
  | 5 => some (.fmax f.guard f.d f.a f.b)
  | 6 => some (.fabs f.guard f.d f.a)
  | 7 => some (.fneg f.guard f.d f.a)
  | _ => none

/-- The instruction of major 6 (R43) that FN and fields name. -/
def instrOf6 (f : Fields) : Option Instr :=
  match f.fn with
  | 0 => some (.fdiv f.guard f.d f.a f.b)
  | 1 => some (.fsqrt f.guard f.d f.a)
  | 2 => some (.frcp f.guard f.d f.a)
  | 3 => some (.frsq f.guard f.d f.a)
  | 4 => some (.fexp2 f.guard f.d f.a)
  | 5 => some (.flog2 f.guard f.d f.a)
  | 6 => some (.fsin f.guard f.d f.a)
  | 7 => some (.fcos f.guard f.d f.a)
  | 8 => some (.ftanh f.guard f.d f.a)
  | 9 => some (.frnd f.guard f.d f.a (Rnd.ofCode f.b))
  | _ => none

/-- The instruction of major 7 (R43) that FN and fields name. -/
def instrOf7 (f : Fields) : Option Instr :=
  match f.fn with
  | 0 => some (.haddF16 f.guard f.d f.a f.b)
  | 1 => some (.hmulF16 f.guard f.d f.a f.b)
  | 2 => some (.hfmaF16 f.guard f.d f.a f.b)
  | 3 => some (.hminF16 f.guard f.d f.a f.b)
  | 4 => some (.hmaxF16 f.guard f.d f.a f.b)
  | 5 => some (.haddBf16 f.guard f.d f.a f.b)
  | 6 => some (.hmulBf16 f.guard f.d f.a f.b)
  | 7 => some (.hfmaBf16 f.guard f.d f.a f.b)
  | _ => none

/-- The instruction of major 8 (R43) that FN and fields name. -/
def instrOf8 (f : Fields) : Option Instr :=
  match f.fn with
  | 0 => some (.cmpEqI32 f.guard f.d f.a f.b)
  | 1 => some (.cmpNeI32 f.guard f.d f.a f.b)
  | 2 => some (.cmpLtI32 f.guard f.d f.a f.b)
  | 3 => some (.cmpLeI32 f.guard f.d f.a f.b)
  | 4 => some (.cmpGtI32 f.guard f.d f.a f.b)
  | 5 => some (.cmpGeI32 f.guard f.d f.a f.b)
  | 6 => some (.cmpLtN32 f.guard f.d f.a f.b)
  | 7 => some (.cmpLeN32 f.guard f.d f.a f.b)
  | 8 => some (.cmpGtN32 f.guard f.d f.a f.b)
  | 9 => some (.cmpGeN32 f.guard f.d f.a f.b)
  | _ => none

/-- The instruction of major 9 (R43) that FN and fields name. -/
def instrOf9 (f : Fields) : Option Instr :=
  match f.fn with
  | 0 => some (.fcmpEq f.guard f.d f.a f.b)
  | 1 => some (.fcmpNe f.guard f.d f.a f.b)
  | 2 => some (.fcmpLt f.guard f.d f.a f.b)
  | 3 => some (.fcmpLe f.guard f.d f.a f.b)
  | 4 => some (.fcmpGt f.guard f.d f.a f.b)
  | 5 => some (.fcmpGe f.guard f.d f.a f.b)
  | 6 => some (.fcmpUn f.guard f.d f.a f.b)
  | 7 => some (.fcmpOr f.guard f.d f.a f.b)
  | _ => none

/-- The instruction of major 10 (R44) that FN and fields name. -/
def instrOf10 (f : Fields) : Option Instr :=
  match f.fn with
  | 0 => some (.pand f.guard f.d f.a f.b)
  | 1 => some (.por f.guard f.d f.a f.b)
  | 2 => some (.pxor f.guard f.d f.a f.b)
  | 3 => some (.pandn f.guard f.d f.a f.b)
  | 4 => some (.pnot f.guard f.d f.a)
  | 5 => some (.pmov f.guard f.d f.a)
  | 6 => some (.pset f.guard f.d (f.imm == 1))
  | 7 => some (.voteAny f.guard f.d f.a)
  | 8 => some (.voteAll f.guard f.d f.a)
  | 9 => some (.ballot f.guard f.d f.a f.imm)
  | 10 => some (.pcnt f.guard f.d f.a)
  | _ => none

/-- The instruction of major 11 (R44) that FN and fields name. -/
def instrOf11 (f : Fields) : Option Instr :=
  match f.fn with
  | 0 => some (.addI64 f.guard f.d f.a f.b)
  | 1 => some (.subI64 f.guard f.d f.a f.b)
  | 2 => some (.mulI64 f.guard f.d f.a f.b)
  | 3 => some (.shlB64 f.guard f.d f.a f.b)
  | 4 => some (.shrN64 f.guard f.d f.a f.b)
  | 5 => some (.shrI64 f.guard f.d f.a f.b)
  | 6 => some (.andB64 f.guard f.d f.a f.b)
  | 7 => some (.orB64 f.guard f.d f.a f.b)
  | 8 => some (.xorB64 f.guard f.d f.a f.b)
  | 9 => some (.cmpEqI64 f.guard f.d f.a f.b)
  | 10 => some (.cmpLtI64 f.guard f.d f.a f.b)
  | 11 => some (.cmpLtN64 f.guard f.d f.a f.b)
  | 12 => some (.sxtI64 f.guard f.d f.a)
  | 13 => some (.zxtN64 f.guard f.d f.a)
  | 14 => some (.truncB32 f.guard f.d f.a)
  | _ => none

/-- The instruction of major 12 (R44) that FN and fields name. -/
def instrOf12 (f : Fields) : Option Instr :=
  match f.fn with
  | 0 => some (.sadd f.guard f.d f.a f.b)
  | 1 => some (.ssub f.guard f.d f.a f.b)
  | 2 => some (.smul f.guard f.d f.a f.b)
  | 3 => some (.sand f.guard f.d f.a f.b)
  | 4 => some (.sor f.guard f.d f.a f.b)
  | 5 => some (.sxor f.guard f.d f.a f.b)
  | 6 => some (.sshl f.guard f.d f.a f.b)
  | 7 => some (.sshr f.guard f.d f.a f.b)
  | 8 => some (.sminI32 f.guard f.d f.a f.b)
  | 9 => some (.smaxI32 f.guard f.d f.a f.b)
  | 10 => some (.scmpEq f.guard f.d f.a f.b)
  | 11 => some (.scmpLt f.guard f.d f.a f.b)
  | 12 => some (.xadd f.guard f.d f.a f.b)
  | 13 => some (.xsub f.guard f.d f.a f.b)
  | 14 => some (.xshl f.guard f.d f.a f.b)
  | 15 => some (.xcmpLt f.guard f.d f.a f.b)
  | _ => none

/-- The instruction of major 13 (R44) that FN and fields name. -/
def instrOf13 (f : Fields) : Option Instr :=
  match f.fn with
  | 0 => some (.smovi f.guard f.d (BitVec.ofNat 32 f.imm))
  | 1 => some (.xmovi f.guard f.d (BitVec.ofNat 32 f.imm))
  | 2 => some (.xmovhi f.guard f.d (BitVec.ofNat 32 f.imm))
  | 3 => some (.s2v f.guard f.d f.a)
  | 4 => some (.v2s f.guard f.d f.a)
  | 5 => some (.x2w f.guard f.d f.a)
  | 6 => some (.w2x f.guard f.d f.a)
  | _ => none

/-- The instruction of major 14 (R44) that FN and fields name. -/
def instrOf14 (f : Fields) : Option Instr :=
  match f.fn with
  | 0 => some (.cvtF32I32 f.guard f.d f.a (Rnd.ofCode f.b))
  | 1 => some (.cvtI32F32 f.guard f.d f.a (Rnd.ofCode f.b))
  | 2 => some (.cvtF32N32 f.guard f.d f.a (Rnd.ofCode f.b))
  | 3 => some (.cvtN32F32 f.guard f.d f.a (Rnd.ofCode f.b))
  | 4 => some (.cvtF16F32 f.guard f.d f.a (Rnd.ofCode f.b))
  | 6 => some (.cvtBf16F32 f.guard f.d f.a (Rnd.ofCode f.b))
  | 8 => some (.cvtF8aF32 f.guard f.d f.a (Rnd.ofCode f.b))
  | 10 => some (.cvtF8bF32 f.guard f.d f.a (Rnd.ofCode f.b))
  | 12 => some (.pip4Pack f.guard f.d f.a (Rnd.ofCode f.b))
  | 5 => some (.cvtF32F16 f.guard f.d f.a)
  | 7 => some (.cvtF32Bf16 f.guard f.d f.a)
  | 9 => some (.cvtF32F8a f.guard f.d f.a)
  | 11 => some (.cvtF32F8b f.guard f.d f.a)
  | 13 => some (.pip4Unpack f.guard f.d f.a)
  | 14 => some (.scaleBlk f.guard f.d f.a f.b)
  | _ => none

/-- The instruction of major 15 (R45) that FN and fields name. -/
def instrOf15 (f : Fields) : Option Instr :=
  match f.fn with
  | 0 => some (.shflIdx f.guard f.d f.a (f.imm % 2 == 1))
  | 1 => some (.shflUp f.guard f.d f.a (f.imm % 2 == 1) (f.imm / 2))
  | 2 => some (.shflDn f.guard f.d f.a (f.imm % 2 == 1) (f.imm / 2))
  | 3 => some (.shflXor f.guard f.d f.a (f.imm % 2 == 1) (f.imm / 2))
  | 4 => some (.redAddI32 f.guard f.d f.a (f.imm % 2 == 1))
  | 5 => some (.redMinI32 f.guard f.d f.a (f.imm % 2 == 1))
  | 6 => some (.redMinN32 f.guard f.d f.a (f.imm % 2 == 1))
  | 7 => some (.redMaxI32 f.guard f.d f.a (f.imm % 2 == 1))
  | 8 => some (.redFadd f.guard f.d f.a (f.imm % 2 == 1))
  | 9 => some (.scanAddI32 f.guard f.d f.a (f.imm % 2 == 1))
  | 10 => some (.bcastL f.guard f.d f.a (f.imm % 2 == 1) (f.imm / 2))
  | _ => none

/-- The instruction of major 16 (R46) that FN and fields name. -/
def instrOf16 (f : Fields) : Option Instr :=
  match f.fn with
  | 0 => some (.ldB8 f.guard f.d f.xb f.a (BitVec.ofNat 32 f.imm))
  | 1 => some (.ldB16 f.guard f.d f.xb f.a (BitVec.ofNat 32 f.imm))
  | 2 => some (.ldB32 f.guard f.d f.xb f.a (BitVec.ofNat 32 f.imm))
  | 3 => some (.ldB64 f.guard f.d f.xb f.a (BitVec.ofNat 32 f.imm))
  | 4 => some (.ldB128 f.guard f.d f.xb f.a (BitVec.ofNat 32 f.imm))
  | 5 => some (.ldsB32 f.guard f.d f.xb (BitVec.ofNat 32 f.imm))
  | 6 => some (.ldsB64 f.guard f.d f.xb (BitVec.ofNat 32 f.imm))
  | 7 => some (.probe f.guard f.d f.xb f.a (BitVec.ofNat 32 f.imm))
  | _ => none

/-- The instruction of major 17 (R46) that FN and fields name. -/
def instrOf17 (f : Fields) : Option Instr :=
  match f.fn with
  | 0 => some (.stB8 f.guard f.d f.xb f.a (BitVec.ofNat 32 f.imm))
  | 1 => some (.stB16 f.guard f.d f.xb f.a (BitVec.ofNat 32 f.imm))
  | 2 => some (.stB32 f.guard f.d f.xb f.a (BitVec.ofNat 32 f.imm))
  | 3 => some (.stB64 f.guard f.d f.xb f.a (BitVec.ofNat 32 f.imm))
  | 4 => some (.stB128 f.guard f.d f.xb f.a (BitVec.ofNat 32 f.imm))
  | 5 => some (.stsB32 f.guard f.d f.xb (BitVec.ofNat 32 f.imm))
  | 6 => some (.stsB64 f.guard f.d f.xb (BitVec.ofNat 32 f.imm))
  | _ => none

/-- The instruction of major 18 (R47) that FN and fields name. -/
def instrOf18 (f : Fields) : Option Instr :=
  match f.fn with
  | 0 => some (.atomAddI32 f.d f.xb f.a (Order.ofCode f.ord) (Scope.ofCode f.scope) (f.mods % 2 == 1) (f.mods / 2 % 2 == 1))
  | 1 => some (.atomAddF32 f.d f.xb f.a (Order.ofCode f.ord) (Scope.ofCode f.scope) (f.mods % 2 == 1) (f.mods / 2 % 2 == 1))
  | 2 => some (.atomMinI32 f.d f.xb f.a (Order.ofCode f.ord) (Scope.ofCode f.scope) (f.mods % 2 == 1) (f.mods / 2 % 2 == 1))
  | 3 => some (.atomMinN32 f.d f.xb f.a (Order.ofCode f.ord) (Scope.ofCode f.scope) (f.mods % 2 == 1) (f.mods / 2 % 2 == 1))
  | 4 => some (.atomMaxI32 f.d f.xb f.a (Order.ofCode f.ord) (Scope.ofCode f.scope) (f.mods % 2 == 1) (f.mods / 2 % 2 == 1))
  | 5 => some (.atomMaxN32 f.d f.xb f.a (Order.ofCode f.ord) (Scope.ofCode f.scope) (f.mods % 2 == 1) (f.mods / 2 % 2 == 1))
  | 6 => some (.atomAnd f.d f.xb f.a (Order.ofCode f.ord) (Scope.ofCode f.scope) (f.mods % 2 == 1) (f.mods / 2 % 2 == 1))
  | 7 => some (.atomOr f.d f.xb f.a (Order.ofCode f.ord) (Scope.ofCode f.scope) (f.mods % 2 == 1) (f.mods / 2 % 2 == 1))
  | 8 => some (.atomXor f.d f.xb f.a (Order.ofCode f.ord) (Scope.ofCode f.scope) (f.mods % 2 == 1) (f.mods / 2 % 2 == 1))
  | 9 => some (.atomXchg f.d f.xb f.a (Order.ofCode f.ord) (Scope.ofCode f.scope) (f.mods % 2 == 1) (f.mods / 2 % 2 == 1))
  | 10 => some (.atomCas f.d f.xb f.a (Order.ofCode f.ord) (Scope.ofCode f.scope) (f.mods % 2 == 1) (f.mods / 2 % 2 == 1))
  | 11 => some (.atomAddI64 f.d f.xb f.a (Order.ofCode f.ord) (Scope.ofCode f.scope) (f.mods % 2 == 1) (f.mods / 2 % 2 == 1))
  | 12 => some (.atomCasI64 f.d f.xb f.a (Order.ofCode f.ord) (Scope.ofCode f.scope) (f.mods % 2 == 1) (f.mods / 2 % 2 == 1))
  | 13 => some (.ldAcq f.d f.xb f.a (Order.ofCode f.ord) (Scope.ofCode f.scope) (f.mods % 2 == 1) (f.mods / 2 % 2 == 1))
  | 14 => some (.stRel f.d f.xb f.a (Order.ofCode f.ord) (Scope.ofCode f.scope) (f.mods % 2 == 1) (f.mods / 2 % 2 == 1))
  | 15 => some (.atomIncN32 f.d f.xb f.a (Order.ofCode f.ord) (Scope.ofCode f.scope) (f.mods % 2 == 1) (f.mods / 2 % 2 == 1))
  | _ => none

/-- The instruction of major 19 (R49) that FN and fields name. -/
def instrOf19 (f : Fields) : Option Instr :=
  match f.fn with
  | 0 => some (.fence f.guard (Scope.ofCode (f.imm % 4)) (Order.ofCode (f.imm / 4 % 4)) (f.imm / 16 % 2 == 1))
  | 1 => some (.barArrive f.guard f.a f.b)
  | 2 => some (.barWait f.guard f.a)
  | 3 => some (.barSync f.guard f.a f.b)
  | 4 => some (.mon f.guard f.a)
  | 5 => some (.mwait f.guard)
  | 6 => some (.waitc f.guard (WaitClass.ofCode (f.imm % 4)) (f.imm / 4))
  | 7 => some (.waitb f.guard f.a)
  | 8 => some (.yield f.guard)
  | 9 => some (.nflagMerge f.guard f.a)
  | _ => none

/-- The instruction of major 20 (R50) that FN and fields name. -/
def instrOf20 (f : Fields) : Option Instr :=
  match f.fn with
  | 0 => some (.cpG2s f.guard f.a)
  | 1 => some (.cpS2g f.guard f.a)
  | 2 => some (.cpG2g f.guard f.a)
  | 3 => some (.cpTile f.guard f.a)
  | 4 => some (.cpRed f.guard f.a)
  | 5 => some (.cpGather f.guard f.a f.b)
  | 6 => some (.cpClose f.guard f.d)
  | 7 => some (.cpStamp f.guard f.a (Scope.ofCode f.b))
  | _ => none

/-- The instruction of major 21 (R50) that FN and fields name. -/
def instrOf21 (f : Fields) : Option Instr :=
  match f.fn with
  | 0 => some (.trkOpen f.guard f.d f.a f.b)
  | 1 => some (.trkWfill f.guard f.a f.b)
  | 2 => some (.trkWfree f.guard f.a f.b)
  | 3 => some (.trkAdvP f.guard f.a f.b)
  | 4 => some (.trkAdvC f.guard f.a f.b)
  | 5 => some (.trkClose f.guard f.a)
  | 6 => some (.trkState f.guard f.d f.a)
  | _ => none

/-- The instruction of major 22 (R50) that FN and fields name. -/
def instrOf22 (f : Fields) : Option Instr :=
  match f.fn with
  | 0 => some (.obRsv f.guard f.d f.a)
  | 1 => some (.obRel f.guard f.a)
  | 2 => some (.obFill f.guard f.a f.b)
  | 3 => some (.obInfo f.guard f.d f.a)
  | _ => none

/-- The instruction of major 23 (R50) that FN and fields name. -/
def instrOf23 (f : Fields) : Option Instr :=
  match f.fn with
  | 0 => some (.unfCfg f.guard f.a)
  | 1 => some (.mma f.guard f.d f.a f.b)
  | 2 => some (.mmaZ f.guard f.d f.a f.b)
  | 3 => some (.accAlloc f.guard f.d f.a)
  | 4 => some (.accFree f.guard f.a)
  | _ => none

/-- The instruction of major 24 (R50) that FN and fields name. -/
def instrOf24 (f : Fields) : Option Instr :=
  match f.fn with
  | 0 => some (.accRd f.guard f.d f.a f.b)
  | 1 => some (.accWr f.guard f.d f.a f.b)
  | 2 => some (.accZero f.guard f.a)
  | 3 => some (.accSt f.guard f.d f.a f.b)
  | 4 => some (.accPatch f.guard f.d f.a f.b)
  | 5 => some (.accFlags f.guard f.d f.a)
  | _ => none

/-- The instruction of major 25 (R51) that FN and fields name. -/
noncomputable def instrOf25 (f : Fields) : Option Instr :=
  match f.fn with
  | 0 => some (.bra ⟨f.neg, f.p⟩ (BitVec.ofNat 19 f.imm))
  | 1 => some (.bru ⟨f.neg, f.p⟩ (BitVec.ofNat 19 f.imm))
  | 2 => some (.dvg ⟨f.neg, f.p⟩ (BitVec.ofNat 19 f.imm))
  | 3 => some (.cnv)
  | 4 => some (.brk ⟨f.neg, f.p⟩)
  | 5 => some (.call ⟨f.neg, f.p⟩ (BitVec.ofNat 19 f.imm))
  | 6 =>
    match f.p with
    | 0 => some .extRet
    | 1 => some .extExit
    | 2 => some (.extCalli f.a)
    | 3 => some (.extJmpi f.a)
    | _ => none
  | _ => none

/-- The instruction of major 26 (R52) that FN and fields name. -/
noncomputable def instrOf26 (f : Fields) : Option Instr :=
  match f.fn with
  | 0 => some (.ovld f.guard f.d f.a (Bank.ofCode f.b))
  | 1 => some (.ovwait f.guard f.d f.a)
  | 2 => some (.ifence f.guard)
  | 3 => some (.bswap f.guard f.a)
  | 4 => some (.calt f.guard f.a f.b)
  | 5 => some (.ovrel f.guard f.a)
  | _ => none

/-- The instruction of major 27 (R52) that FN and fields name. -/
noncomputable def instrOf27 (f : Fields) : Option Instr :=
  match f.fn with
  | 0 => some (.lch f.guard f.d f.a)
  | 1 => some (.cjoin f.guard f.a)
  | 2 => some (.lstat f.guard f.d f.a)
  | _ => none

/-- The instruction of major 28 (R53) that FN and fields name. -/
noncomputable def instrOf28 (f : Fields) : Option Instr :=
  match f.fn with
  | 0 => some (.tgOpen f.guard f.imm)
  | 1 => some (.tstB32 f.guard f.d f.xb f.a f.imm)
  | 2 => some (.tstB64 f.guard f.d f.xb f.a f.imm)
  | 3 => some (.tstB128 f.guard f.d f.xb f.a f.imm)
  | 4 => some (.tgCommit f.guard f.imm)
  | 5 => some (.tgAbort f.guard f.imm)
  | 6 => some (.tgWait f.guard f.d f.imm)
  | _ => none

/-- The instruction of major 29 (R52) that FN and fields name. -/
noncomputable def instrOf29 (f : Fields) : Option Instr :=
  match f.fn with
  | 0 => some (.trap f.guard (BitVec.ofNat 32 f.imm))
  | 1 => some .tret
  | 2 => some (.brkpt f.guard (BitVec.ofNat 32 f.imm))
  | 3 => some (.mark f.guard (BitVec.ofNat 32 f.imm))
  | 4 => some (.wptSet f.guard f.a f.b)
  | 5 => some (.wptClr f.guard f.a)
  | 6 => some (.perfRd f.guard f.d f.a)
  | 7 => some (.cfgRd f.guard f.d f.a)
  | 8 => some (.cfgWr f.guard f.a f.b)
  | 9 => some .halt
  | _ => none

/-- The instruction that a slot's assembled fields name, if any. -/
noncomputable def instrOf (f : Fields) : Option Instr :=
  match f.mj with
  | 0 => instrOf0 f
  | 1 => instrOf1 f
  | 2 => instrOf2 f
  | 3 => instrOf3 f
  | 4 => instrOf4 f
  | 5 => instrOf5 f
  | 6 => instrOf6 f
  | 7 => instrOf7 f
  | 8 => instrOf8 f
  | 9 => instrOf9 f
  | 10 => instrOf10 f
  | 11 => instrOf11 f
  | 12 => instrOf12 f
  | 13 => instrOf13 f
  | 14 => instrOf14 f
  | 15 => instrOf15 f
  | 16 => instrOf16 f
  | 17 => instrOf17 f
  | 18 => instrOf18 f
  | 19 => instrOf19 f
  | 20 => instrOf20 f
  | 21 => instrOf21 f
  | 22 => instrOf22 f
  | 23 => instrOf23 f
  | 24 => instrOf24 f
  | 25 => instrOf25 f
  | 26 => instrOf26 f
  | 27 => instrOf27 f
  | 28 => instrOf28 f
  | 29 => instrOf29 f
  | _ => none

/-- The major, FN and fields of an instruction, none for an event: the encoding tables read the other way. -/
def fieldsOf : Instr → Option Fields
  | .nop =>
    some { form := .A, mj := 0, fn := 0 }
  | .mov g d a =>
    some { form := .A, mj := 0, fn := 1, guard := g, d := d, a := a }
  | .movi g d imm =>
    some { form := .I, mj := 0, fn := 2, guard := g, d := d, imm := imm.toNat }
  | .sel g d a b =>
    some { form := .A, mj := 0, fn := 3, guard := g, d := d, a := a, b := b }
  | .laneid g d =>
    some { form := .A, mj := 0, fn := 4, guard := g, d := d }
  | .rdsp g d r =>
    some { form := .I, mj := 0, fn := 5, guard := g, d := d, imm := r.toImm }
  | .wrsp g a r =>
    some { form := .I, mj := 0, fn := 6, guard := g, a := a, imm := r.toImm }
  | .addI32 g d a b =>
    some { form := .A, mj := 1, fn := 0, guard := g, d := d, a := a, b := b }
  | .subI32 g d a b =>
    some { form := .A, mj := 1, fn := 1, guard := g, d := d, a := a, b := b }
  | .minI32 g d a b =>
    some { form := .A, mj := 1, fn := 2, guard := g, d := d, a := a, b := b }
  | .minN32 g d a b =>
    some { form := .A, mj := 1, fn := 3, guard := g, d := d, a := a, b := b }
  | .maxI32 g d a b =>
    some { form := .A, mj := 1, fn := 4, guard := g, d := d, a := a, b := b }
  | .maxN32 g d a b =>
    some { form := .A, mj := 1, fn := 5, guard := g, d := d, a := a, b := b }
  | .andB32 g d a b =>
    some { form := .A, mj := 1, fn := 6, guard := g, d := d, a := a, b := b }
  | .orB32 g d a b =>
    some { form := .A, mj := 1, fn := 7, guard := g, d := d, a := a, b := b }
  | .xorB32 g d a b =>
    some { form := .A, mj := 1, fn := 8, guard := g, d := d, a := a, b := b }
  | .andnB32 g d a b =>
    some { form := .A, mj := 1, fn := 9, guard := g, d := d, a := a, b := b }
  | .absI32 g d a =>
    some { form := .A, mj := 1, fn := 10, guard := g, d := d, a := a }
  | .negI32 g d a =>
    some { form := .A, mj := 1, fn := 11, guard := g, d := d, a := a }
  | .addsI32 g d a b =>
    some { form := .A, mj := 1, fn := 12, guard := g, d := d, a := a, b := b }
  | .subsI32 g d a b =>
    some { form := .A, mj := 1, fn := 13, guard := g, d := d, a := a, b := b }
  | .addsN32 g d a b =>
    some { form := .A, mj := 1, fn := 14, guard := g, d := d, a := a, b := b }
  | .subsN32 g d a b =>
    some { form := .A, mj := 1, fn := 15, guard := g, d := d, a := a, b := b }
  | .addiI32 g d a imm =>
    some { form := .I, mj := 2, fn := 0, guard := g, d := d, a := a, imm := imm.toNat }
  | .andiB32 g d a imm =>
    some { form := .I, mj := 2, fn := 1, guard := g, d := d, a := a, imm := imm.toNat }
  | .oriB32 g d a imm =>
    some { form := .I, mj := 2, fn := 2, guard := g, d := d, a := a, imm := imm.toNat }
  | .xoriB32 g d a imm =>
    some { form := .I, mj := 2, fn := 3, guard := g, d := d, a := a, imm := imm.toNat }
  | .miniI32 g d a imm =>
    some { form := .I, mj := 2, fn := 4, guard := g, d := d, a := a, imm := imm.toNat }
  | .maxiI32 g d a imm =>
    some { form := .I, mj := 2, fn := 5, guard := g, d := d, a := a, imm := imm.toNat }
  | .shlB32 g d a b =>
    some { form := .A, mj := 3, fn := 0, guard := g, d := d, a := a, b := b }
  | .shrN32 g d a b =>
    some { form := .A, mj := 3, fn := 1, guard := g, d := d, a := a, b := b }
  | .shrI32 g d a b =>
    some { form := .A, mj := 3, fn := 2, guard := g, d := d, a := a, b := b }
  | .shliB32 g d a imm =>
    some { form := .I, mj := 3, fn := 3, guard := g, d := d, a := a, imm := imm.toNat }
  | .shriN32 g d a imm =>
    some { form := .I, mj := 3, fn := 4, guard := g, d := d, a := a, imm := imm.toNat }
  | .shriI32 g d a imm =>
    some { form := .I, mj := 3, fn := 5, guard := g, d := d, a := a, imm := imm.toNat }
  | .bfeN32 g d a b =>
    some { form := .A, mj := 3, fn := 6, guard := g, d := d, a := a, b := b }
  | .bfeI32 g d a b =>
    some { form := .A, mj := 3, fn := 7, guard := g, d := d, a := a, b := b }
  | .bfiB32 g d a b =>
    some { form := .A, mj := 3, fn := 8, guard := g, d := d, a := a, b := b }
  | .popcB32 g d a =>
    some { form := .A, mj := 3, fn := 9, guard := g, d := d, a := a }
  | .clzB32 g d a =>
    some { form := .A, mj := 3, fn := 10, guard := g, d := d, a := a }
  | .brevB32 g d a =>
    some { form := .A, mj := 3, fn := 11, guard := g, d := d, a := a }
  | .prmtB32 g d a b =>
    some { form := .A, mj := 3, fn := 12, guard := g, d := d, a := a, b := b }
  | .mulI32 g d a b =>
    some { form := .A, mj := 4, fn := 0, guard := g, d := d, a := a, b := b }
  | .mulhiI32 g d a b =>
    some { form := .A, mj := 4, fn := 1, guard := g, d := d, a := a, b := b }
  | .mulhiN32 g d a b =>
    some { form := .A, mj := 4, fn := 2, guard := g, d := d, a := a, b := b }
  | .madI32 g d a b =>
    some { form := .A, mj := 4, fn := 3, guard := g, d := d, a := a, b := b }
  | .divI32 g d a b =>
    some { form := .A, mj := 4, fn := 4, guard := g, d := d, a := a, b := b }
  | .divN32 g d a b =>
    some { form := .A, mj := 4, fn := 5, guard := g, d := d, a := a, b := b }
  | .remI32 g d a b =>
    some { form := .A, mj := 4, fn := 6, guard := g, d := d, a := a, b := b }
  | .remN32 g d a b =>
    some { form := .A, mj := 4, fn := 7, guard := g, d := d, a := a, b := b }
  | .fadd g d a b =>
    some { form := .A, mj := 5, fn := 0, guard := g, d := d, a := a, b := b }
  | .fsub g d a b =>
    some { form := .A, mj := 5, fn := 1, guard := g, d := d, a := a, b := b }
  | .fmul g d a b =>
    some { form := .A, mj := 5, fn := 2, guard := g, d := d, a := a, b := b }
  | .ffma g d a b =>
    some { form := .A, mj := 5, fn := 3, guard := g, d := d, a := a, b := b }
  | .fmin g d a b =>
    some { form := .A, mj := 5, fn := 4, guard := g, d := d, a := a, b := b }
  | .fmax g d a b =>
    some { form := .A, mj := 5, fn := 5, guard := g, d := d, a := a, b := b }
  | .fabs g d a =>
    some { form := .A, mj := 5, fn := 6, guard := g, d := d, a := a }
  | .fneg g d a =>
    some { form := .A, mj := 5, fn := 7, guard := g, d := d, a := a }
  | .fdiv g d a b =>
    some { form := .A, mj := 6, fn := 0, guard := g, d := d, a := a, b := b }
  | .fsqrt g d a =>
    some { form := .A, mj := 6, fn := 1, guard := g, d := d, a := a }
  | .frcp g d a =>
    some { form := .A, mj := 6, fn := 2, guard := g, d := d, a := a }
  | .frsq g d a =>
    some { form := .A, mj := 6, fn := 3, guard := g, d := d, a := a }
  | .fexp2 g d a =>
    some { form := .A, mj := 6, fn := 4, guard := g, d := d, a := a }
  | .flog2 g d a =>
    some { form := .A, mj := 6, fn := 5, guard := g, d := d, a := a }
  | .fsin g d a =>
    some { form := .A, mj := 6, fn := 6, guard := g, d := d, a := a }
  | .fcos g d a =>
    some { form := .A, mj := 6, fn := 7, guard := g, d := d, a := a }
  | .ftanh g d a =>
    some { form := .A, mj := 6, fn := 8, guard := g, d := d, a := a }
  | .frnd g d a rnd =>
    some { form := .A, mj := 6, fn := 9, guard := g, d := d, a := a, b := rnd.toCode }
  | .haddF16 g d a b =>
    some { form := .A, mj := 7, fn := 0, guard := g, d := d, a := a, b := b }
  | .hmulF16 g d a b =>
    some { form := .A, mj := 7, fn := 1, guard := g, d := d, a := a, b := b }
  | .hfmaF16 g d a b =>
    some { form := .A, mj := 7, fn := 2, guard := g, d := d, a := a, b := b }
  | .hminF16 g d a b =>
    some { form := .A, mj := 7, fn := 3, guard := g, d := d, a := a, b := b }
  | .hmaxF16 g d a b =>
    some { form := .A, mj := 7, fn := 4, guard := g, d := d, a := a, b := b }
  | .haddBf16 g d a b =>
    some { form := .A, mj := 7, fn := 5, guard := g, d := d, a := a, b := b }
  | .hmulBf16 g d a b =>
    some { form := .A, mj := 7, fn := 6, guard := g, d := d, a := a, b := b }
  | .hfmaBf16 g d a b =>
    some { form := .A, mj := 7, fn := 7, guard := g, d := d, a := a, b := b }
  | .cmpEqI32 g d a b =>
    some { form := .A, mj := 8, fn := 0, guard := g, d := d, a := a, b := b }
  | .cmpNeI32 g d a b =>
    some { form := .A, mj := 8, fn := 1, guard := g, d := d, a := a, b := b }
  | .cmpLtI32 g d a b =>
    some { form := .A, mj := 8, fn := 2, guard := g, d := d, a := a, b := b }
  | .cmpLeI32 g d a b =>
    some { form := .A, mj := 8, fn := 3, guard := g, d := d, a := a, b := b }
  | .cmpGtI32 g d a b =>
    some { form := .A, mj := 8, fn := 4, guard := g, d := d, a := a, b := b }
  | .cmpGeI32 g d a b =>
    some { form := .A, mj := 8, fn := 5, guard := g, d := d, a := a, b := b }
  | .cmpLtN32 g d a b =>
    some { form := .A, mj := 8, fn := 6, guard := g, d := d, a := a, b := b }
  | .cmpLeN32 g d a b =>
    some { form := .A, mj := 8, fn := 7, guard := g, d := d, a := a, b := b }
  | .cmpGtN32 g d a b =>
    some { form := .A, mj := 8, fn := 8, guard := g, d := d, a := a, b := b }
  | .cmpGeN32 g d a b =>
    some { form := .A, mj := 8, fn := 9, guard := g, d := d, a := a, b := b }
  | .fcmpEq g d a b =>
    some { form := .A, mj := 9, fn := 0, guard := g, d := d, a := a, b := b }
  | .fcmpNe g d a b =>
    some { form := .A, mj := 9, fn := 1, guard := g, d := d, a := a, b := b }
  | .fcmpLt g d a b =>
    some { form := .A, mj := 9, fn := 2, guard := g, d := d, a := a, b := b }
  | .fcmpLe g d a b =>
    some { form := .A, mj := 9, fn := 3, guard := g, d := d, a := a, b := b }
  | .fcmpGt g d a b =>
    some { form := .A, mj := 9, fn := 4, guard := g, d := d, a := a, b := b }
  | .fcmpGe g d a b =>
    some { form := .A, mj := 9, fn := 5, guard := g, d := d, a := a, b := b }
  | .fcmpUn g d a b =>
    some { form := .A, mj := 9, fn := 6, guard := g, d := d, a := a, b := b }
  | .fcmpOr g d a b =>
    some { form := .A, mj := 9, fn := 7, guard := g, d := d, a := a, b := b }
  | .pand g d a b =>
    some { form := .A, mj := 10, fn := 0, guard := g, d := d, a := a, b := b }
  | .por g d a b =>
    some { form := .A, mj := 10, fn := 1, guard := g, d := d, a := a, b := b }
  | .pxor g d a b =>
    some { form := .A, mj := 10, fn := 2, guard := g, d := d, a := a, b := b }
  | .pandn g d a b =>
    some { form := .A, mj := 10, fn := 3, guard := g, d := d, a := a, b := b }
  | .pnot g d a =>
    some { form := .A, mj := 10, fn := 4, guard := g, d := d, a := a }
  | .pmov g d a =>
    some { form := .A, mj := 10, fn := 5, guard := g, d := d, a := a }
  | .pset g d val =>
    some { form := .I, mj := 10, fn := 6, guard := g, d := d, imm := val.toNat }
  | .voteAny g d a =>
    some { form := .A, mj := 10, fn := 7, guard := g, d := d, a := a }
  | .voteAll g d a =>
    some { form := .A, mj := 10, fn := 8, guard := g, d := d, a := a }
  | .ballot g d a group =>
    some { form := .I, mj := 10, fn := 9, guard := g, d := d, a := a, imm := group }
  | .pcnt g d a =>
    some { form := .A, mj := 10, fn := 10, guard := g, d := d, a := a }
  | .addI64 g d a b =>
    some { form := .A, mj := 11, fn := 0, guard := g, d := d, a := a, b := b }
  | .subI64 g d a b =>
    some { form := .A, mj := 11, fn := 1, guard := g, d := d, a := a, b := b }
  | .mulI64 g d a b =>
    some { form := .A, mj := 11, fn := 2, guard := g, d := d, a := a, b := b }
  | .shlB64 g d a b =>
    some { form := .A, mj := 11, fn := 3, guard := g, d := d, a := a, b := b }
  | .shrN64 g d a b =>
    some { form := .A, mj := 11, fn := 4, guard := g, d := d, a := a, b := b }
  | .shrI64 g d a b =>
    some { form := .A, mj := 11, fn := 5, guard := g, d := d, a := a, b := b }
  | .andB64 g d a b =>
    some { form := .A, mj := 11, fn := 6, guard := g, d := d, a := a, b := b }
  | .orB64 g d a b =>
    some { form := .A, mj := 11, fn := 7, guard := g, d := d, a := a, b := b }
  | .xorB64 g d a b =>
    some { form := .A, mj := 11, fn := 8, guard := g, d := d, a := a, b := b }
  | .cmpEqI64 g d a b =>
    some { form := .A, mj := 11, fn := 9, guard := g, d := d, a := a, b := b }
  | .cmpLtI64 g d a b =>
    some { form := .A, mj := 11, fn := 10, guard := g, d := d, a := a, b := b }
  | .cmpLtN64 g d a b =>
    some { form := .A, mj := 11, fn := 11, guard := g, d := d, a := a, b := b }
  | .sxtI64 g d a =>
    some { form := .A, mj := 11, fn := 12, guard := g, d := d, a := a }
  | .zxtN64 g d a =>
    some { form := .A, mj := 11, fn := 13, guard := g, d := d, a := a }
  | .truncB32 g d a =>
    some { form := .A, mj := 11, fn := 14, guard := g, d := d, a := a }
  | .sadd g d a b =>
    some { form := .A, mj := 12, fn := 0, guard := g, d := d, a := a, b := b }
  | .ssub g d a b =>
    some { form := .A, mj := 12, fn := 1, guard := g, d := d, a := a, b := b }
  | .smul g d a b =>
    some { form := .A, mj := 12, fn := 2, guard := g, d := d, a := a, b := b }
  | .sand g d a b =>
    some { form := .A, mj := 12, fn := 3, guard := g, d := d, a := a, b := b }
  | .sor g d a b =>
    some { form := .A, mj := 12, fn := 4, guard := g, d := d, a := a, b := b }
  | .sxor g d a b =>
    some { form := .A, mj := 12, fn := 5, guard := g, d := d, a := a, b := b }
  | .sshl g d a b =>
    some { form := .A, mj := 12, fn := 6, guard := g, d := d, a := a, b := b }
  | .sshr g d a b =>
    some { form := .A, mj := 12, fn := 7, guard := g, d := d, a := a, b := b }
  | .sminI32 g d a b =>
    some { form := .A, mj := 12, fn := 8, guard := g, d := d, a := a, b := b }
  | .smaxI32 g d a b =>
    some { form := .A, mj := 12, fn := 9, guard := g, d := d, a := a, b := b }
  | .scmpEq g d a b =>
    some { form := .A, mj := 12, fn := 10, guard := g, d := d, a := a, b := b }
  | .scmpLt g d a b =>
    some { form := .A, mj := 12, fn := 11, guard := g, d := d, a := a, b := b }
  | .xadd g d a b =>
    some { form := .A, mj := 12, fn := 12, guard := g, d := d, a := a, b := b }
  | .xsub g d a b =>
    some { form := .A, mj := 12, fn := 13, guard := g, d := d, a := a, b := b }
  | .xshl g d a b =>
    some { form := .A, mj := 12, fn := 14, guard := g, d := d, a := a, b := b }
  | .xcmpLt g d a b =>
    some { form := .A, mj := 12, fn := 15, guard := g, d := d, a := a, b := b }
  | .smovi g d imm =>
    some { form := .I, mj := 13, fn := 0, guard := g, d := d, imm := imm.toNat }
  | .xmovi g d imm =>
    some { form := .I, mj := 13, fn := 1, guard := g, d := d, imm := imm.toNat }
  | .xmovhi g d imm =>
    some { form := .I, mj := 13, fn := 2, guard := g, d := d, imm := imm.toNat }
  | .s2v g d a =>
    some { form := .A, mj := 13, fn := 3, guard := g, d := d, a := a }
  | .v2s g d a =>
    some { form := .A, mj := 13, fn := 4, guard := g, d := d, a := a }
  | .x2w g d a =>
    some { form := .A, mj := 13, fn := 5, guard := g, d := d, a := a }
  | .w2x g d a =>
    some { form := .A, mj := 13, fn := 6, guard := g, d := d, a := a }
  | .cvtF32I32 g d a rnd =>
    some { form := .A, mj := 14, fn := 0, guard := g, d := d, a := a, b := rnd.toCode }
  | .cvtI32F32 g d a rnd =>
    some { form := .A, mj := 14, fn := 1, guard := g, d := d, a := a, b := rnd.toCode }
  | .cvtF32N32 g d a rnd =>
    some { form := .A, mj := 14, fn := 2, guard := g, d := d, a := a, b := rnd.toCode }
  | .cvtN32F32 g d a rnd =>
    some { form := .A, mj := 14, fn := 3, guard := g, d := d, a := a, b := rnd.toCode }
  | .cvtF16F32 g d a rnd =>
    some { form := .A, mj := 14, fn := 4, guard := g, d := d, a := a, b := rnd.toCode }
  | .cvtBf16F32 g d a rnd =>
    some { form := .A, mj := 14, fn := 6, guard := g, d := d, a := a, b := rnd.toCode }
  | .cvtF8aF32 g d a rnd =>
    some { form := .A, mj := 14, fn := 8, guard := g, d := d, a := a, b := rnd.toCode }
  | .cvtF8bF32 g d a rnd =>
    some { form := .A, mj := 14, fn := 10, guard := g, d := d, a := a, b := rnd.toCode }
  | .pip4Pack g d a rnd =>
    some { form := .A, mj := 14, fn := 12, guard := g, d := d, a := a, b := rnd.toCode }
  | .cvtF32F16 g d a =>
    some { form := .A, mj := 14, fn := 5, guard := g, d := d, a := a }
  | .cvtF32Bf16 g d a =>
    some { form := .A, mj := 14, fn := 7, guard := g, d := d, a := a }
  | .cvtF32F8a g d a =>
    some { form := .A, mj := 14, fn := 9, guard := g, d := d, a := a }
  | .cvtF32F8b g d a =>
    some { form := .A, mj := 14, fn := 11, guard := g, d := d, a := a }
  | .pip4Unpack g d a =>
    some { form := .A, mj := 14, fn := 13, guard := g, d := d, a := a }
  | .scaleBlk g d a b =>
    some { form := .A, mj := 14, fn := 14, guard := g, d := d, a := a, b := b }
  | .shflIdx g d a team =>
    some { form := .I, mj := 15, fn := 0, guard := g, d := d, a := a, imm := team.toNat }
  | .shflUp g d a team k =>
    some { form := .I, mj := 15, fn := 1, guard := g, d := d, a := a, imm := team.toNat + 2 * k }
  | .shflDn g d a team k =>
    some { form := .I, mj := 15, fn := 2, guard := g, d := d, a := a, imm := team.toNat + 2 * k }
  | .shflXor g d a team k =>
    some { form := .I, mj := 15, fn := 3, guard := g, d := d, a := a, imm := team.toNat + 2 * k }
  | .redAddI32 g d a team =>
    some { form := .I, mj := 15, fn := 4, guard := g, d := d, a := a, imm := team.toNat }
  | .redMinI32 g d a team =>
    some { form := .I, mj := 15, fn := 5, guard := g, d := d, a := a, imm := team.toNat }
  | .redMinN32 g d a team =>
    some { form := .I, mj := 15, fn := 6, guard := g, d := d, a := a, imm := team.toNat }
  | .redMaxI32 g d a team =>
    some { form := .I, mj := 15, fn := 7, guard := g, d := d, a := a, imm := team.toNat }
  | .redFadd g d a team =>
    some { form := .I, mj := 15, fn := 8, guard := g, d := d, a := a, imm := team.toNat }
  | .scanAddI32 g d a team =>
    some { form := .I, mj := 15, fn := 9, guard := g, d := d, a := a, imm := team.toNat }
  | .bcastL g d a team k =>
    some { form := .I, mj := 15, fn := 10, guard := g, d := d, a := a, imm := team.toNat + 2 * k }
  | .ldB8 g t xb vo disp =>
    some { form := .M, mj := 16, fn := 0, guard := g, d := t, xb := xb, a := vo, imm := disp.toNat }
  | .ldB16 g t xb vo disp =>
    some { form := .M, mj := 16, fn := 1, guard := g, d := t, xb := xb, a := vo, imm := disp.toNat }
  | .ldB32 g t xb vo disp =>
    some { form := .M, mj := 16, fn := 2, guard := g, d := t, xb := xb, a := vo, imm := disp.toNat }
  | .ldB64 g t xb vo disp =>
    some { form := .M, mj := 16, fn := 3, guard := g, d := t, xb := xb, a := vo, imm := disp.toNat }
  | .ldB128 g t xb vo disp =>
    some { form := .M, mj := 16, fn := 4, guard := g, d := t, xb := xb, a := vo, imm := disp.toNat }
  | .ldsB32 g t xb disp =>
    some { form := .M, mj := 16, fn := 5, guard := g, d := t, xb := xb, imm := disp.toNat }
  | .ldsB64 g t xb disp =>
    some { form := .M, mj := 16, fn := 6, guard := g, d := t, xb := xb, imm := disp.toNat }
  | .probe g t xb vo disp =>
    some { form := .M, mj := 16, fn := 7, guard := g, d := t, xb := xb, a := vo, imm := disp.toNat }
  | .stB8 g t xb vo disp =>
    some { form := .M, mj := 17, fn := 0, guard := g, d := t, xb := xb, a := vo, imm := disp.toNat }
  | .stB16 g t xb vo disp =>
    some { form := .M, mj := 17, fn := 1, guard := g, d := t, xb := xb, a := vo, imm := disp.toNat }
  | .stB32 g t xb vo disp =>
    some { form := .M, mj := 17, fn := 2, guard := g, d := t, xb := xb, a := vo, imm := disp.toNat }
  | .stB64 g t xb vo disp =>
    some { form := .M, mj := 17, fn := 3, guard := g, d := t, xb := xb, a := vo, imm := disp.toNat }
  | .stB128 g t xb vo disp =>
    some { form := .M, mj := 17, fn := 4, guard := g, d := t, xb := xb, a := vo, imm := disp.toNat }
  | .stsB32 g t xb disp =>
    some { form := .M, mj := 17, fn := 5, guard := g, d := t, xb := xb, imm := disp.toNat }
  | .stsB64 g t xb disp =>
    some { form := .M, mj := 17, fn := 6, guard := g, d := t, xb := xb, imm := disp.toNat }
  | .atomAddI32 t xb vo order scope sc nr =>
    some { form := .AT, mj := 18, fn := 0, d := t, xb := xb, a := vo, ord := order.toCode, scope := scope.toCode, mods := sc.toNat + 2 * nr.toNat }
  | .atomAddF32 t xb vo order scope sc nr =>
    some { form := .AT, mj := 18, fn := 1, d := t, xb := xb, a := vo, ord := order.toCode, scope := scope.toCode, mods := sc.toNat + 2 * nr.toNat }
  | .atomMinI32 t xb vo order scope sc nr =>
    some { form := .AT, mj := 18, fn := 2, d := t, xb := xb, a := vo, ord := order.toCode, scope := scope.toCode, mods := sc.toNat + 2 * nr.toNat }
  | .atomMinN32 t xb vo order scope sc nr =>
    some { form := .AT, mj := 18, fn := 3, d := t, xb := xb, a := vo, ord := order.toCode, scope := scope.toCode, mods := sc.toNat + 2 * nr.toNat }
  | .atomMaxI32 t xb vo order scope sc nr =>
    some { form := .AT, mj := 18, fn := 4, d := t, xb := xb, a := vo, ord := order.toCode, scope := scope.toCode, mods := sc.toNat + 2 * nr.toNat }
  | .atomMaxN32 t xb vo order scope sc nr =>
    some { form := .AT, mj := 18, fn := 5, d := t, xb := xb, a := vo, ord := order.toCode, scope := scope.toCode, mods := sc.toNat + 2 * nr.toNat }
  | .atomAnd t xb vo order scope sc nr =>
    some { form := .AT, mj := 18, fn := 6, d := t, xb := xb, a := vo, ord := order.toCode, scope := scope.toCode, mods := sc.toNat + 2 * nr.toNat }
  | .atomOr t xb vo order scope sc nr =>
    some { form := .AT, mj := 18, fn := 7, d := t, xb := xb, a := vo, ord := order.toCode, scope := scope.toCode, mods := sc.toNat + 2 * nr.toNat }
  | .atomXor t xb vo order scope sc nr =>
    some { form := .AT, mj := 18, fn := 8, d := t, xb := xb, a := vo, ord := order.toCode, scope := scope.toCode, mods := sc.toNat + 2 * nr.toNat }
  | .atomXchg t xb vo order scope sc nr =>
    some { form := .AT, mj := 18, fn := 9, d := t, xb := xb, a := vo, ord := order.toCode, scope := scope.toCode, mods := sc.toNat + 2 * nr.toNat }
  | .atomCas t xb vo order scope sc nr =>
    some { form := .AT, mj := 18, fn := 10, d := t, xb := xb, a := vo, ord := order.toCode, scope := scope.toCode, mods := sc.toNat + 2 * nr.toNat }
  | .atomAddI64 t xb vo order scope sc nr =>
    some { form := .AT, mj := 18, fn := 11, d := t, xb := xb, a := vo, ord := order.toCode, scope := scope.toCode, mods := sc.toNat + 2 * nr.toNat }
  | .atomCasI64 t xb vo order scope sc nr =>
    some { form := .AT, mj := 18, fn := 12, d := t, xb := xb, a := vo, ord := order.toCode, scope := scope.toCode, mods := sc.toNat + 2 * nr.toNat }
  | .ldAcq t xb vo order scope sc nr =>
    some { form := .AT, mj := 18, fn := 13, d := t, xb := xb, a := vo, ord := order.toCode, scope := scope.toCode, mods := sc.toNat + 2 * nr.toNat }
  | .stRel t xb vo order scope sc nr =>
    some { form := .AT, mj := 18, fn := 14, d := t, xb := xb, a := vo, ord := order.toCode, scope := scope.toCode, mods := sc.toNat + 2 * nr.toNat }
  | .atomIncN32 t xb vo order scope sc nr =>
    some { form := .AT, mj := 18, fn := 15, d := t, xb := xb, a := vo, ord := order.toCode, scope := scope.toCode, mods := sc.toNat + 2 * nr.toNat }
  | .fence g scope order sc =>
    some { form := .I, mj := 19, fn := 0, guard := g, imm := scope.toCode + 4 * order.toCode + 16 * sc.toNat }
  | .barArrive g a b =>
    some { form := .A, mj := 19, fn := 1, guard := g, a := a, b := b }
  | .barWait g a =>
    some { form := .A, mj := 19, fn := 2, guard := g, a := a }
  | .barSync g a b =>
    some { form := .A, mj := 19, fn := 3, guard := g, a := a, b := b }
  | .mon g a =>
    some { form := .A, mj := 19, fn := 4, guard := g, a := a }
  | .mwait g =>
    some { form := .A, mj := 19, fn := 5, guard := g }
  | .waitc g cls n =>
    some { form := .I, mj := 19, fn := 6, guard := g, imm := cls.toCode + 4 * n }
  | .waitb g a =>
    some { form := .A, mj := 19, fn := 7, guard := g, a := a }
  | .yield g =>
    some { form := .A, mj := 19, fn := 8, guard := g }
  | .nflagMerge g a =>
    some { form := .A, mj := 19, fn := 9, guard := g, a := a }
  | .cpG2s g a =>
    some { form := .A, mj := 20, fn := 0, guard := g, a := a }
  | .cpS2g g a =>
    some { form := .A, mj := 20, fn := 1, guard := g, a := a }
  | .cpG2g g a =>
    some { form := .A, mj := 20, fn := 2, guard := g, a := a }
  | .cpTile g a =>
    some { form := .A, mj := 20, fn := 3, guard := g, a := a }
  | .cpRed g a =>
    some { form := .A, mj := 20, fn := 4, guard := g, a := a }
  | .cpGather g a b =>
    some { form := .A, mj := 20, fn := 5, guard := g, a := a, b := b }
  | .cpClose g d =>
    some { form := .A, mj := 20, fn := 6, guard := g, d := d }
  | .cpStamp g a scope =>
    some { form := .A, mj := 20, fn := 7, guard := g, a := a, b := scope.toCode }
  | .trkOpen g d a b =>
    some { form := .A, mj := 21, fn := 0, guard := g, d := d, a := a, b := b }
  | .trkWfill g a b =>
    some { form := .A, mj := 21, fn := 1, guard := g, a := a, b := b }
  | .trkWfree g a b =>
    some { form := .A, mj := 21, fn := 2, guard := g, a := a, b := b }
  | .trkAdvP g a b =>
    some { form := .A, mj := 21, fn := 3, guard := g, a := a, b := b }
  | .trkAdvC g a b =>
    some { form := .A, mj := 21, fn := 4, guard := g, a := a, b := b }
  | .trkClose g a =>
    some { form := .A, mj := 21, fn := 5, guard := g, a := a }
  | .trkState g d a =>
    some { form := .A, mj := 21, fn := 6, guard := g, d := d, a := a }
  | .obRsv g d a =>
    some { form := .A, mj := 22, fn := 0, guard := g, d := d, a := a }
  | .obRel g a =>
    some { form := .A, mj := 22, fn := 1, guard := g, a := a }
  | .obFill g a b =>
    some { form := .A, mj := 22, fn := 2, guard := g, a := a, b := b }
  | .obInfo g d a =>
    some { form := .A, mj := 22, fn := 3, guard := g, d := d, a := a }
  | .unfCfg g a =>
    some { form := .A, mj := 23, fn := 0, guard := g, a := a }
  | .mma g d a b =>
    some { form := .A, mj := 23, fn := 1, guard := g, d := d, a := a, b := b }
  | .mmaZ g d a b =>
    some { form := .A, mj := 23, fn := 2, guard := g, d := d, a := a, b := b }
  | .accAlloc g d a =>
    some { form := .A, mj := 23, fn := 3, guard := g, d := d, a := a }
  | .accFree g a =>
    some { form := .A, mj := 23, fn := 4, guard := g, a := a }
  | .accRd g d a b =>
    some { form := .A, mj := 24, fn := 0, guard := g, d := d, a := a, b := b }
  | .accWr g d a b =>
    some { form := .A, mj := 24, fn := 1, guard := g, d := d, a := a, b := b }
  | .accZero g a =>
    some { form := .A, mj := 24, fn := 2, guard := g, a := a }
  | .accSt g d a b =>
    some { form := .A, mj := 24, fn := 3, guard := g, d := d, a := a, b := b }
  | .accPatch g d a b =>
    some { form := .A, mj := 24, fn := 4, guard := g, d := d, a := a, b := b }
  | .accFlags g d a =>
    some { form := .A, mj := 24, fn := 5, guard := g, d := d, a := a }
  | .bra c off =>
    some { form := .J, mj := 25, fn := 0, neg := c.neg, p := c.num, imm := off.toNat }
  | .bru c off =>
    some { form := .J, mj := 25, fn := 1, neg := c.neg, p := c.num, imm := off.toNat }
  | .dvg c off =>
    some { form := .J, mj := 25, fn := 2, neg := c.neg, p := c.num, imm := off.toNat }
  | .cnv =>
    some { form := .J, mj := 25, fn := 3 }
  | .brk c =>
    some { form := .J, mj := 25, fn := 4, neg := c.neg, p := c.num }
  | .call c off =>
    some { form := .J, mj := 25, fn := 5, neg := c.neg, p := c.num, imm := off.toNat }
  | .extRet =>
    some { form := .J, mj := 25, fn := 6, p := 0 }
  | .extExit =>
    some { form := .J, mj := 25, fn := 6, p := 1 }
  | .extCalli a =>
    some { form := .J, mj := 25, fn := 6, a := a, p := 2 }
  | .extJmpi a =>
    some { form := .J, mj := 25, fn := 6, a := a, p := 3 }
  | .ovld g d a bank =>
    some { form := .A, mj := 26, fn := 0, guard := g, d := d, a := a, b := bank.toCode }
  | .ovwait g d a =>
    some { form := .A, mj := 26, fn := 1, guard := g, d := d, a := a }
  | .ifence g =>
    some { form := .A, mj := 26, fn := 2, guard := g }
  | .bswap g a =>
    some { form := .A, mj := 26, fn := 3, guard := g, a := a }
  | .calt g a b =>
    some { form := .A, mj := 26, fn := 4, guard := g, a := a, b := b }
  | .ovrel g a =>
    some { form := .A, mj := 26, fn := 5, guard := g, a := a }
  | .lch g d a =>
    some { form := .A, mj := 27, fn := 0, guard := g, d := d, a := a }
  | .cjoin g a =>
    some { form := .A, mj := 27, fn := 1, guard := g, a := a }
  | .lstat g d a =>
    some { form := .A, mj := 27, fn := 2, guard := g, d := d, a := a }
  | .tgOpen g h =>
    some { form := .M, mj := 28, fn := 0, guard := g, imm := h }
  | .tstB32 g t xb vo h =>
    some { form := .M, mj := 28, fn := 1, guard := g, d := t, xb := xb, a := vo, imm := h }
  | .tstB64 g t xb vo h =>
    some { form := .M, mj := 28, fn := 2, guard := g, d := t, xb := xb, a := vo, imm := h }
  | .tstB128 g t xb vo h =>
    some { form := .M, mj := 28, fn := 3, guard := g, d := t, xb := xb, a := vo, imm := h }
  | .tgCommit g h =>
    some { form := .M, mj := 28, fn := 4, guard := g, imm := h }
  | .tgAbort g h =>
    some { form := .M, mj := 28, fn := 5, guard := g, imm := h }
  | .tgWait g t h =>
    some { form := .M, mj := 28, fn := 6, guard := g, d := t, imm := h }
  | .trap g imm =>
    some { form := .I, mj := 29, fn := 0, guard := g, imm := imm.toNat }
  | .tret =>
    some { form := .A, mj := 29, fn := 1 }
  | .brkpt g imm =>
    some { form := .I, mj := 29, fn := 2, guard := g, imm := imm.toNat }
  | .mark g imm =>
    some { form := .I, mj := 29, fn := 3, guard := g, imm := imm.toNat }
  | .wptSet g a b =>
    some { form := .A, mj := 29, fn := 4, guard := g, a := a, b := b }
  | .wptClr g a =>
    some { form := .A, mj := 29, fn := 5, guard := g, a := a }
  | .perfRd g d a =>
    some { form := .A, mj := 29, fn := 6, guard := g, d := d, a := a }
  | .cfgRd g d a =>
    some { form := .A, mj := 29, fn := 7, guard := g, d := d, a := a }
  | .cfgWr g a b =>
    some { form := .A, mj := 29, fn := 8, guard := g, a := a, b := b }
  | .halt =>
    some { form := .A, mj := 29, fn := 9 }
  | .illegalEncoding _ _ => none
  | .deliveryLoadDone _ _ _ _ => none
  | .parkWake _ => none
  | .trkAdvanceApply _ _ => none
  | .mmaComplete _ _ => none
  | .accStComplete _ _ => none
  | .batchComplete _ _ => none
  | .gatherComplete _ _ => none
  | .stampWrite _ => none
  | .cpredSegmentApply _ _ _ => none
  | .copyAbandon _ _ _ _ => none
  | .engineWatchSuspend _ _ _ => none
  | .teamRetire _ => none
  | .quantumExpiry _ _ => none
  | .preemptRequest _ _ => none
  | .crewSaveDone _ => none
  | .crewRestore _ _ => none
  | .launchWindowWrite _ _ _ => none
  | .launchReady _ => none
  | .crewPlace _ _ _ => none
  | .tablePlace _ _ _ => none
  | .entryFillDone _ _ _ => none
  | .launchComplete _ => none
  | .overlayLoadStart _ _ _ => none
  | .overlayLoadDone _ _ _ _ => none
  | .forcedReclaim _ _ _ => none
  | .translationDone _ => none
  | .reoptSetComplete _ _ => none
  | .regionRollback _ _ => none
  | .prqEntryGrant => none
  | .prresp _ _ _ => none
  | .probeReplay _ => none
  | .prqhead _ _ _ => none
  | .prqbase _ _ _ => none
  | .inval _ _ => none
  | .flog0 _ _ => none
  | .trhead _ _ => none
  | .brdcfg _ _ => none
  | .sgcfg _ _ => none
  | .s2base _ _ => none
  | .s2bound _ _ => none
  | .quota _ _ => none
  | .vfEnable _ => none
  | .vfScrubDone _ => none
  | .vfReset _ => none
  | .vfResetDone _ => none
  | .vfFlr _ => none
  | .sliceExpiry _ => none
  | .sliceStart _ => none
  | .rate _ _ _ => none
  | .bucketRefill _ _ => none
  | .imgLoad _ => none
  | .imgLoadDone _ => none
  | .imgUnload _ _ => none
  | .imgUnloadDone _ => none
  | .keySlotWrite _ _ _ => none
  | .powerOn => none
  | .bootPhaseAdvance _ => none
  | .devrst _ => none
  | .pcieReset => none
  | .getVersion _ => none
  | .getCapabilities _ _ => none
  | .negotiateAlgorithms _ => none
  | .getDigests _ => none
  | .getCertificate _ _ => none
  | .challenge _ _ => none
  | .getMeasurements _ _ _ => none
  | .spdmUnsupportedRequest _ => none
  | .mctpControl _ _ => none
  | .pldmMonitoring _ _ => none
  | .pldmFirmwareUpdate => none
  | .vendorResetMessage => none
  | .ckptSave => none
  | .ckptRestore => none
  | .ckptDone _ => none
  | .errorDetect _ _ _ _ => none
  | .selfTestDone _ _ _ _ => none
  | .errcnt _ => none
  | .l2Writeback _ => none
  | .reencryptDone _ _ => none
  | .fabid _ => none
  | .planemap _ => none
  | .planemapApply => none
  | .linkEnable _ _ => none
  | .linkUp _ _ => none
  | .linkDown _ => none
  | .flitReceive _ _ _ => none
  | .nackReceive _ _ => none
  | .planeWaitTimeout _ => none
  | .fabricRequestReceive _ _ _ _ _ _ => none
  | .fabricResponseReceive _ _ => none
  | .fabricReleasePerform _ _ => none
  | .releaseCountTimeout _ _ => none
  | .streamReset _ _ _ => none
  | .stgq _ _ => none
  | .stagedStoreReceive _ _ _ _ => none
  | .prepare _ _ _ _ => none
  | .ready _ _ => none
  | .refuse _ _ _ => none
  | .commit _ => none
  | .abort _ => none
  | .acknowledge _ _ _ => none
  | .forget _ => none
  | .query _ _ => none
  | .queryAnswer _ _ _ => none
  | .tgresolve _ => none
  | .nodeLost _ => none
  | .peerFetchRequest _ _ _ _ _ _ => none
  | .peerFetchReceive _ _ _ _ _ _ _ => none
  | .configRegisterWrite _ _ => none
  | .peerFetchTimeout _ => none

/-! Reading a slot. -/

/-- What a lender lends to one slot: its kind when it targets the slot, the high bits of D, A and B, the high immediate
bits and their number, and the guard entry (R33, R34). -/
structure Lend where
  kind : Option Nat := none
  dh : Nat := 0
  ah : Nat := 0
  bh : Nat := 0
  ih : Nat := 0
  iw : Nat := 0
  entry : Option Nat := none
deriving DecidableEq, Repr

/-- A slot-0 word of major 31 is a lender (R33). -/
def isLender (w : Nat) : Bool := bits w 31 27 == 31

/-- What the slot-0 word lends to slot `i` (R33, R34). -/
def lendOf (w0 i : Nat) : Lend :=
  if isLender w0 then
    match bits w0 26 25 with
    | 0 => { kind := some 0, entry := some (bits w0 (29 - 5 * i) (25 - 5 * i)) }
    | 1 => if i = 1 then { kind := some 1, dh := bits w0 24 17, ah := bits w0 16 9, bh := bits w0 8 1 } else {}
    | 2 => if i = 1 then { kind := some 2, ih := bits w0 24 0, iw := 25 } else {}
    | _ =>
      if i = 1 then
        { kind := some 3, dh := bits w0 19 16, ah := bits w0 15 12, bh := bits w0 11 8, ih := bits w0 7 0, iw := 8,
          entry := some (bits w0 24 20) }
      else {}
  else {}

/-- An assembled immediate of `n` bits brought to 32 bits (R29). -/
def extendImm (signed : Bool) (n v : Nat) : Nat :=
  if signed && decide (2 ^ (n - 1) ≤ v) then v + 2 ^ 32 - 2 ^ n else v

/-- The guard of a slot (R30): absent when G is 0, p1 or q1 when no entry stands for it, else the entry; an entry of zero that a
lender gives stands for p0 or q0 (DESIGN CHOICE, log entry 96). -/
def guardOf (g : Nat) (entry : Option Nat) : Option Guard :=
  if g = 0 then none
  else match entry with
    | none => some ⟨false, 1⟩
    | some e => some ⟨e / 16 == 1, e % 16⟩

/-- The role of B is a signed immediate. -/
def Role.isSigned : Role → Bool
  | .imm signed => signed
  | _ => false

/-- The form of a major, whatever its FN (R25 to R28); A also stands for I, whose layout it shares. -/
def formOf (mj : Nat) : Form :=
  match mj with
  | 16 | 17 | 28 => .M
  | 18 => .AT
  | 25 => .J
  | _ => .A

/-- The FN of a word by its major's layout (R25 to R28). -/
def fnOf (w : Nat) : Nat :=
  match formOf (bits w 31 27) with
  | .A | .I => bits w 26 22
  | .M | .J => bits w 26 24
  | .AT => bits w 26 23

/-- The assembled fields of a word under a row of the map (R25 to R29, R34). A lender whose bits for a field are zero still
makes the immediate longer, as R34's pseudocode has it (DESIGN CHOICE, log entry 96). -/
def fieldsOfWord (info : OpInfo) (w : Nat) (l : Lend) : Fields :=
  let mj := bits w 31 27
  let fn := fnOf w
  match info.form with
  | .A =>
    { form := .A, mj := mj, fn := fn, d := bits w 21 15 + 128 * l.dh, a := bits w 14 8 + 128 * l.ah,
      b := bits w 7 1 + 128 * l.bh, guard := guardOf (bits w 0 0) l.entry }
  | .I =>
    { form := .I, mj := mj, fn := fn, d := bits w 21 15 + 128 * l.dh, a := bits w 14 8 + 128 * l.ah,
      imm := extendImm info.b.isSigned (7 + l.iw) (bits w 7 1 + 128 * l.ih), guard := guardOf (bits w 0 0) l.entry }
  | .M =>
    { form := .M, mj := mj, fn := fn, d := bits w 23 17 + 128 * l.dh, a := bits w 11 5 + 128 * l.ah, xb := bits w 16 12,
      imm := if info.b = .hnum then bits w 4 1 else extendImm true (4 + l.iw) (bits w 4 1 + 16 * l.ih),
      guard := guardOf (bits w 0 0) l.entry }
  | .AT =>
    { form := .AT, mj := mj, fn := fn, d := bits w 22 16 + 128 * l.dh, a := bits w 10 4 + 128 * l.ah, xb := bits w 15 11,
      ord := bits w 3 2, scope := bits w 1 0,
      mods := if l.kind = some 3 then l.ih else 0 }
  | .J =>
    if fn = 6 then
      { form := .J, mj := mj, fn := fn, p := bits w 23 20, neg := bits w 19 19 == 1, a := bits w 6 0 + 128 * l.ah }
    else { form := .J, mj := mj, fn := fn, p := bits w 23 20, neg := bits w 19 19 == 1, imm := bits w 18 0 }

/-! Defects (R36, R37). -/

/-- A reason if a condition holds. -/
def reasonIf (b : Bool) (r : Nat) : List Nat := if b then [r] else []

/-- The field of an unused role is zero (reason 5), a register lies within its range (reason 7). -/
def roleDefects (c : Counts) (r : Role) (lo n : Nat) : List Nat :=
  match r with
  | .none => reasonIf (lo != 0) 5
  | _ => reasonIf (!c.ok r n) 7

/-- The literals that a form A or I row forbids (R45, R49, R50, R52, R55; R116 and R117 for pset and ballot). A fence takes no bit
of its immediate above [6:5], which R49 does not name (log entry 128). -/
def literalDefects (f : Fields) : List Nat :=
  match f.mj, f.fn with
  | 6, 9 => reasonIf (decide (6 < f.b) || f.b == 2) 5
  | 14, 0 | 14, 1 | 14, 2 | 14, 3 | 14, 4 | 14, 6 | 14, 8 | 14, 10 | 14, 12 => reasonIf (decide (2 < f.b)) 5
  | 10, 6 => reasonIf (decide (1 < f.imm)) 5
  | 10, 9 => reasonIf (decide (31 < f.imm)) 5
  | 15, fn =>
    reasonIf (decide (32768 ≤ f.imm) || ((fn == 0 || (decide (4 ≤ fn) && decide (fn ≤ 9))) && f.imm / 2 != 0)) 5
  | 19, 0 =>
    reasonIf (decide (32 ≤ f.imm) || f.imm / 4 % 4 == 0 || (f.imm / 16 % 2 == 1 && f.imm / 4 % 4 != 3)) 5
  | 19, 6 => reasonIf (decide (32768 ≤ f.imm) || f.imm % 4 == 3) 5
  | 20, 7 => reasonIf (decide (3 < f.b)) 5
  | 26, 0 => reasonIf (decide (1 < f.b)) 5
  | _, _ => []

/-- The combinations of FN, ORD and modifier bits that R48 forbids. -/
def atomicDefects (f : Fields) : List Nat :=
  let sc := f.mods % 2 == 1
  let nr := f.mods / 2 % 2 == 1
  match f.fn with
  | 13 => reasonIf (f.ord != 1 || nr) 5
  | 14 => reasonIf (f.ord != 2 || nr) 5
  | _ => reasonIf (sc && f.ord != 3) 5

/-- The guard class and the register class of rdsp and wrsp follow from the code (R56). -/
def codeRole (f : Fields) : Option SpReg := SpReg.ofImm f.imm

/-- The guard class of a slot (R30, R56). -/
def guardClassOf (info : OpInfo) (f : Fields) : GuardClass :=
  match info.gc with
  | .byCode => if codeRole f = some .srseed then .lane else .uniform
  | gc => gc

/-- A role, with the class that a special register's code names put in (R56). -/
def roleOf (r : Role) (f : Fields) : Role :=
  match r with
  | .byCode => match codeRole f with
    | some sp => sp.role
    | none => .lit
  | r => r

/-- The code, the group index and the higher bits of an rdsp or wrsp immediate (R56). -/
def codeDefects (f : Fields) : List Nat :=
  match codeRole f with
  | none => [5]
  | some sp =>
    reasonIf (decide (4096 ≤ f.imm) || (f.imm / 128 % 32 != 0 && f.imm % 128 != 0x14) || (f.fn == 6 && !sp.writable)) 5

/-- The defects of the guard of a slot with a G bit (R30, R31). -/
def guardDefects (gc : GuardClass) (g : Nat) (entry : Option Nat) : List Nat :=
  if g = 0 then reasonIf (entry.getD 0 != 0) 6
  else match gc with
    | .none => [5]
    | .uniform => reasonIf (match entry with | none => false | some e => decide (8 ≤ e % 16)) 9
    | _ => []

/-- The defects of a slot that its own fields form, alone or with the lender bits attached (R36). -/
def ownDefects (c : Counts) (w : Nat) (l : Lend) : List Nat :=
  let mj := bits w 31 27
  if mj = 30 then [1]
  else if mj = 31 then [3]
  else match opInfo mj (fnOf w) with
    | none => [2]
    | some info =>
      let f := fieldsOfWord info w l
      match info.form with
      | .A =>
        roleDefects c info.d (bits w 21 15) f.d ++ roleDefects c info.a (bits w 14 8) f.a
          ++ roleDefects c info.b (bits w 7 1) f.b ++ literalDefects f
          ++ guardDefects (guardClassOf info f) (bits w 0 0) l.entry
      | .I =>
        roleDefects c (roleOf info.d f) (bits w 21 15) f.d ++ roleDefects c (roleOf info.a f) (bits w 14 8) f.a
          ++ (if info.gc = .byCode then codeDefects f else literalDefects f)
          ++ guardDefects (guardClassOf info f) (bits w 0 0) l.entry
      | .M =>
        roleDefects c info.d (bits w 23 17) f.d ++ roleDefects c info.a (bits w 11 5) f.a
          ++ (if info.b = .hnum ∧ info.a = .none then reasonIf (f.xb != 0) 5 else reasonIf (!c.ok .x f.xb) 7)
          ++ guardDefects (guardClassOf info f) (bits w 0 0) l.entry
      | .AT =>
        roleDefects c info.d (bits w 22 16) f.d ++ roleDefects c info.a (bits w 10 4) f.a ++ reasonIf (!c.ok .x f.xb) 7
          ++ atomicDefects { f with mods := 0 } ++ reasonIf (l.entry.getD 0 != 0) 6
      | .J =>
        reasonIf (l.entry.getD 0 != 0) 6 ++
        match f.fn with
        | 1 | 5 => reasonIf (decide (8 ≤ f.p)) 9
        | 3 => reasonIf (f.p != 0 || f.neg || f.imm != 0) 5
        | 4 => reasonIf (f.imm != 0) 5
        | 6 =>
          reasonIf (decide (4 ≤ f.p)) 2 ++ reasonIf (f.neg || bits w 18 7 != 0) 5
            ++ (if f.p = 2 ∨ f.p = 3 then reasonIf (!c.ok .x f.a) 7 else reasonIf (bits w 6 0 != 0) 5)
        | _ => []

/-- Lender bits in a place that R34 marks zero (reason 5), and a lender kind that R34 marks illegal (reason 8). A target that
is no instruction has no places. -/
def placeDefects (w : Nat) (l : Lend) : List Nat :=
  match opInfo (bits w 31 27) (fnOf w) with
  | none => []
  | some info =>
    let widens (r : Role) (hi : Nat) : List Nat :=
      match r with
      | .none | .lit => reasonIf (hi != 0) 5
      | _ => []
    match info.form with
    | .A => widens info.d l.dh ++ widens info.a l.ah ++ widens info.b l.bh ++ reasonIf (l.ih != 0) 5
    | .I => widens info.d l.dh ++ widens info.a l.ah ++ reasonIf (l.bh != 0) 5
    | .M =>
      widens info.d l.dh ++ widens info.a l.ah ++ reasonIf (l.bh != 0) 5
        ++ reasonIf (info.b == .hnum && l.ih != 0) 5
    | .AT =>
      reasonIf (l.bh != 0) 5 ++ reasonIf (l.kind == some 2) 8 ++ reasonIf (l.kind == some 3 && l.ih / 4 != 0) 5
    | .J =>
      if fnOf w = 6 then
        reasonIf (l.kind == some 2 || l.kind == some 3) 8
          ++ reasonIf (l.dh != 0 || l.bh != 0 || (decide (bits w 23 20 < 2) && l.ah != 0)) 5
      else reasonIf (l.kind == some 1 || l.kind == some 2 || l.kind == some 3) 8

/-- A combination of FN, ORD and the lender's modifier bits that R48 forbids, where FN and ORD alone are legal: whatever else
the slot holds, it is the lender's. -/
def modifierDefects (w : Nat) (l : Lend) : List Nat :=
  match opInfo (bits w 31 27) (fnOf w) with
  | none => []
  | some info =>
    let f := fieldsOfWord info w l
    if info.form = .AT ∧ atomicDefects { f with mods := 0 } = [] then atomicDefects f else []

/-- The defects of slot `i` that a lender forms with a slot that is legal without it, a modifier combination that R48 forbids,
and those of the places it must leave zero: they are the lender's (R37). -/
def lentDefects (c : Counts) (w0 w i : Nat) : List Nat :=
  placeDefects w (lendOf w0 i) ++ modifierDefects w (lendOf w0 i)
    ++ (if ownDefects c w {} = [] then ownDefects c w (lendOf w0 i) else [])

/-- The defects of the slot itself (R37). -/
def slotDefects (c : Counts) (w0 w i : Nat) : List Nat :=
  if ownDefects c w {} = [] then [] else ownDefects c w (lendOf w0 i)

/-- One quad: four words (R16). -/
structure Quad where
  w0 : Nat
  w1 : Nat
  w2 : Nat
  w3 : Nat
deriving DecidableEq, Repr

/-- The word of a slot. -/
def Quad.word (q : Quad) : Nat → Nat
  | 0 => q.w0 | 1 => q.w1 | 2 => q.w2 | _ => q.w3

/-- The defects of the lender of a quad (R33, R36, R37): its reserved bits, a target that is nop, and what it forms with
its targets. -/
def lenderDefects (c : Counts) (q : Quad) : List Nat :=
  let kind := bits q.w0 26 25
  reasonIf ((kind == 0 && bits q.w0 9 0 != 0) || (kind == 1 && bits q.w0 0 0 != 0)) 5
    ++ reasonIf (if kind = 0 then bits q.w0 24 10 == 0 else q.w1 == 0) 4
    ++ lentDefects c q.w0 q.w1 1 ++ lentDefects c q.w0 q.w2 2 ++ lentDefects c q.w0 q.w3 3

/-- The least of a list of reasons. -/
def leastReason : List Nat → Option Nat
  | [] => none
  | r :: l => some (match leastReason l with
    | none => r
    | some r' => min r r')

/-- The defect that TINFO reports at a slot: its place and its reason; the lowest reason, the lender's on a tie (R37). -/
def defectAt (c : Counts) (q : Quad) (i : Nat) : Option (Nat × Nat) :=
  let own := leastReason (slotDefects c q.w0 (q.word i) i)
  let lent := if isLender q.w0 then leastReason (lenderDefects c q) else none
  match own, lent with
  | none, none => none
  | some r, none => some (i, r)
  | none, some r => some (0, r)
  | some r, some r' => if r < r' then some (i, r) else some (0, r')

/-- The slot at which execution stands when it comes to slot `i` of a quad: a lender in slot 0 is passed over (R33). -/
def effectiveSlot (q : Quad) (i : Nat) : Nat := if i = 0 && isLender q.w0 then 1 else i

/-- What a slot holds: an instruction, or an illegal encoding with the place and reason of its defect (R37). -/
inductive Decoded where
  | instr (i : Instr)
  | illegal (slot reason : Nat)
deriving DecidableEq, Repr

/-- The instruction in slot `i` of a quad, in a kernel that declares the counts; or the place and reason of its defect. -/
noncomputable def decodeSlot (c : Counts) (q : Quad) (i : Nat) : Decoded :=
  match defectAt c q i with
  | some (slot, reason) => .illegal slot reason
  | none =>
    let w := q.word i
    match opInfo (bits w 31 27) (fnOf w) with
    | none => .illegal i 2
    | some info =>
      match instrOf (fieldsOfWord info w (lendOf q.w0 i)) with
      | some ins => .instr ins
      | none => .illegal i 2

/-! Writing a slot. -/

/-- The words of one instruction: the lender that carries its high bits, if it needs one, and the slot. -/
structure Encoded where
  lender : Option Nat := none
  slot : Nat
deriving DecidableEq, Repr

/-- The G bit of a guard. -/
def gBit (g : Option Guard) : Nat := if g.isSome then 1 else 0

/-- The guard entry of a mixed lender (R33). -/
def guardEntry : Option Guard → Nat
  | none => 0
  | some g => 16 * g.neg.toNat + g.num

/-- A wide lender (R33). -/
def wideLender (dh ah bh : Nat) : Nat := 31 * 2 ^ 27 + 1 * 2 ^ 25 + dh * 2 ^ 17 + ah * 2 ^ 9 + bh * 2

/-- An immediate lender (R33). -/
def immLender (ih : Nat) : Nat := 31 * 2 ^ 27 + 2 * 2 ^ 25 + ih

/-- A mixed lender (R33). -/
def mixedLender (e dh ah bh ih : Nat) : Nat :=
  31 * 2 ^ 27 + 3 * 2 ^ 25 + e * 2 ^ 20 + dh * 2 ^ 16 + ah * 2 ^ 12 + bh * 2 ^ 8 + ih

/-- A slot of form A, and of form I with `b` the low 7 immediate bits (R25). -/
def wordA (mj fn d a b g : Nat) : Nat := mj * 2 ^ 27 + fn * 2 ^ 22 + d * 2 ^ 15 + a * 2 ^ 8 + b * 2 + g

/-- A slot of form M (R26). -/
def wordM (mj fn t xb vo imm g : Nat) : Nat :=
  mj * 2 ^ 27 + fn * 2 ^ 24 + t * 2 ^ 17 + xb * 2 ^ 12 + vo * 2 ^ 5 + imm * 2 + g

/-- A slot of form AT (R27). -/
def wordAT (fn t xb vo ord scope : Nat) : Nat :=
  18 * 2 ^ 27 + fn * 2 ^ 23 + t * 2 ^ 16 + xb * 2 ^ 11 + vo * 2 ^ 4 + ord * 2 ^ 2 + scope

/-- A slot of form J; `low` is bits 18..0 (R28). -/
def wordJ (fn p neg low : Nat) : Nat := 25 * 2 ^ 27 + fn * 2 ^ 24 + p * 2 ^ 20 + neg * 2 ^ 19 + low

/-- The words of assembled fields: no lender where the slot's own bits serve, else the mixed lender where it serves, else the
wide or the immediate one (R33 to R35, R68). `signed` is the role of the immediate. -/
def encodeFields (signed : Bool) (f : Fields) : Encoded :=
  let e := guardEntry f.guard
  let g := gBit f.guard
  match f.form with
  | .A =>
    let w := wordA f.mj f.fn (f.d % 128) (f.a % 128) (f.b % 128) g
    if plainGuard f.guard && below 128 [f.d, f.a, f.b] then { slot := w }
    else if below 2048 [f.d, f.a, f.b] then
      { lender := some (mixedLender e (f.d / 128) (f.a / 128) (f.b / 128) 0), slot := w }
    else { lender := some (wideLender (f.d / 128) (f.a / 128) (f.b / 128)), slot := w }
  | .I =>
    let w := wordA f.mj f.fn (f.d % 128) (f.a % 128) (f.imm % 128) g
    if plainGuard f.guard && below 128 [f.d, f.a] && immFits signed 7 f.imm then { slot := w }
    else if below 2048 [f.d, f.a] && immFits signed 15 f.imm then
      { lender := some (mixedLender e (f.d / 128) (f.a / 128) 0 (f.imm / 128 % 256)), slot := w }
    else if immFits signed 7 f.imm then { lender := some (wideLender (f.d / 128) (f.a / 128) 0), slot := w }
    else { lender := some (immLender (f.imm / 128 % 2 ^ 25)), slot := w }
  | .M =>
    let w := wordM f.mj f.fn (f.d % 128) f.xb (f.a % 128) (f.imm % 16) g
    if f.mj = 28 then
      if plainGuard f.guard && below 128 [f.d, f.a] then { slot := w }
      else if below 2048 [f.d, f.a] then
        { lender := some (mixedLender e (f.d / 128) (f.a / 128) 0 0), slot := w }
      else { lender := some (wideLender (f.d / 128) (f.a / 128) 0), slot := w }
    else if plainGuard f.guard && below 128 [f.d, f.a] && immFits true 4 f.imm then { slot := w }
    else if below 2048 [f.d, f.a] && immFits true 12 f.imm then
      { lender := some (mixedLender e (f.d / 128) (f.a / 128) 0 (f.imm / 16 % 256)), slot := w }
    else if immFits true 4 f.imm then { lender := some (wideLender (f.d / 128) (f.a / 128) 0), slot := w }
    else { lender := some (immLender (f.imm / 16 % 2 ^ 25)), slot := w }
  | .AT =>
    let w := wordAT f.fn (f.d % 128) f.xb (f.a % 128) f.ord f.scope
    if below 128 [f.d, f.a] && f.mods == 0 then { slot := w }
    else if below 2048 [f.d, f.a] then
      { lender := some (mixedLender 0 (f.d / 128) (f.a / 128) 0 f.mods), slot := w }
    else { lender := some (wideLender (f.d / 128) (f.a / 128) 0), slot := w }
  | .J =>
    if f.fn = 6 then
      let w := wordJ 6 f.p 0 (f.a % 128)
      if below 128 [f.a] then { slot := w } else { lender := some (wideLender 0 (f.a / 128) 0), slot := w }
    else { slot := wordJ f.fn f.p f.neg.toNat f.imm }

/-- The words of an instruction; an event has none. -/
def encode (i : Instr) : Option Encoded :=
  match fieldsOf i with
  | none => none
  | some f =>
    match opInfo f.mj f.fn with
    | none => none
    | some info => some (encodeFields info.b.isSigned f)

/-- The quad that holds encoded words, the rest of it nop: slot 0, or slot 1 behind the lender. -/
def Encoded.quad (e : Encoded) : Quad :=
  match e.lender with
  | none => ⟨e.slot, 0, 0, 0⟩
  | some l => ⟨l, e.slot, 0, 0⟩

/-- The slot of `Encoded.quad` in which the instruction stands. -/
def Encoded.pos (e : Encoded) : Nat := if e.lender.isSome then 1 else 0

/-- The largest counts a kernel may declare (R23). -/
def Counts.max : Counts := ⟨32768, 32768, 32768, 32768⟩

/-- The host's question: the instruction in a quad whose first slot holds the row's word and whose other slots are nop. -/
noncomputable def decodeTableWord (nbits w : Nat) : Option Instr :=
  match decodeSlot Counts.max ⟨w % 2 ^ nbits % 2 ^ 32, 0, 0, 0⟩ 0 with
  | .instr i => some i
  | .illegal _ _ => none

end Sys2Proof
end

