-- ==== Sys2Proof/Machine/Issue.lean ====
section
/-! DEFINITION. Which context issues, and what it fetches (R16 to R20, R201, R210, R261, R367). -/

namespace Sys2Proof.Machine

/-- The kernel of a team's launch. -/
def State.kernelOf (s : State) (t : Team) : Option Kernel := (s.launchOf t).map Launch.kern

/-- A crew that is placed and whose teams may issue: running, or asked to stop and not yet stopped. -/
def Crew.live (c : Crew) : Bool :=
  match c.status with
  | .running => true
  | .stopping _ => true
  | _ => false

/-- The crew of a team runs: it is placed, and neither stopped nor asked to stop. -/
def State.crewRuns (s : State) (t : Team) : Bool :=
  match s.crews.find? t.crew with
  | some c => c.place.isSome && c.status == .running
  | none => false

/-- The contexts of a sub-core that hold teams, each with its team, by rising context number. -/
def State.contextsAt (s : State) (p : Nat × Nat) : List (Nat × Nat × Team) :=
  let all := s.teams.filterMap fun e =>
    match s.crews.find? e.2.crew with
    | none => none
    | some c => if c.place = some p ∧ c.live then (c.contexts[e.2.index]?).map fun k => (k, e.1, e.2) else none
  (List.range 4).flatMap fun k => all.filter fun x => x.1 == k

/-- A team that can issue its next slot, or go on with the instruction that it is in (R235); one that has come to its safe
point issues no more (R237). -/
def Team.runnable (t : Team) : Bool := (t.status == .runnable && !t.link.stopped) || t.status == .waiting

/-- The context that issues next: the selected one while it is runnable, else the next runnable one in increasing number after
the context last selected, cyclically (R261). -/
def State.chooseAt (s : State) (p : Nat × Nat) : Option (Nat × Nat × Team) :=
  let l := (s.contextsAt p).filter fun y => y.2.2.runnable
  let last := (s.sub p).context
  (List.find? (fun y : Nat × Nat × Team => some y.2.1 == (s.sub p).selected) l).orElse fun _ =>
    ((l.filter fun y => decide (last < y.1)) ++ (l.filter fun y => decide (y.1 ≤ last))).head?

/-- The team that issues next at a sub-core. -/
def State.selectAt (s : State) (p : Nat × Nat) : Option (Nat × Team) := (s.chooseAt p).map (·.2)

/-- The selector of a sub-core leaves a context that can issue no longer (R261). -/
def State.reselectAt (s : State) (p : Nat × Nat) : State :=
  match s.chooseAt p with
  | some (k, uid, _) => s.modSub p fun c => { c with selected := some uid, context := k }
  | none => s.modSub p fun c => { c with selected := none }

/-- Every selector follows what has happened (R261). -/
def State.reselect (s : State) : State := s.subs.foldl (fun s e => s.reselectAt (e.1 / 4, e.1 % 4)) s

/-- What a step answers, the selectors brought up to date. -/
def reselected : Out → Out
  | .next s => .next s.reselect
  | o => o

/-- The next runnable context after the selected one, if there is another (R168, R262). -/
def State.rotate (s : State) (p : Nat × Nat) : State :=
  match List.find? (fun x => some x.2.1 == (s.sub p).selected) (s.contextsAt p) with
  | none => s
  | some x =>
    let l := (s.contextsAt p).filter fun y => y.2.2.runnable
    match ((l.filter fun y => decide (x.1 < y.1)) ++ (l.filter fun y => decide (y.1 < x.1))).head? with
    | none => s
    | some y => s.modSub p fun c => { c with selected := some y.2.1, context := y.1 }

/-- In lossless mode a record of a sub-core waits for a place in a full ring. -/
def Fn.stops (f : Fn) (p : Nat × Nat) : Bool := f.lossless && !f.ringFree && f.trWait.any fun r => r.place == some p

/-- In lossless mode a record that waits for the ring stops the sub-core that made it (R367). -/
def State.traceStopped (s : State) (p : Nat × Nat) : Bool := s.fns.any fun e => e.2.stops p

/-- A sub-core stopped by the trace lets cycles pass, which VPERTURB counts for the functions whose records stop it (R367). -/
def State.stopCycles (s : State) (p : Nat × Nat) : State :=
  let (n, s1) := s.takeNat
  ((s1.fns.filter fun e => e.2.stops p).map (·.1)).foldl
    (fun s v => s.modFn v fun f => { f with vperturb := passCycles f.vperturb n }) s1

/-- What a team meets at its pc. -/
inductive Fetched where
  /-- an instruction, or an illegal encoding, at the pc given -/
  | slot (d : Decoded) (pc : Nat)
  /-- the quad lies beyond the overlay's code (R201) -/
  | beyond (quad : Nat)
  /-- the half of BANK has been reclaimed: the overlay it held (R210) -/
  | reclaimed (b : Bank) (overlay : Nat)
deriving DecidableEq, Repr

/-- The quad at an address of a team's code. -/
def State.fetchQuad (s : State) (t : Team) (a : Nat) : Quad :=
  let w := fun i => ((s.quadAt t a)[i]?).getD 0
  ⟨w 0, w 1, w 2, w 3⟩

/-- The counts that a team's kernel declares. -/
def State.countsOf (s : State) (t : Team) : Counts :=
  match s.kernelOf t with
  | some k => k.counts
  | none => Counts.max

/-- The overlay of an address that a forced reclaim took from a half of a team, while the half does not hold it again. -/
def State.lostOverlay (s : State) (t : Team) (b : Bank) (a : Nat) : Option Nat :=
  let n := a / overlaySpan
  if t.link.reclaimed.contains (b, n) && s.overlayIn t b != some n then some n else none

/-- The slot at an address of a team's code. -/
noncomputable def State.slotAt (s : State) (t : Team) (a : Nat) : Fetched :=
  let quad := a / 16 * 16
  let q := s.fetchQuad t quad
  let i := effectiveSlot q (a % 16 / 4)
  .slot (decodeSlot (s.countsOf t) q i) (quad + 4 * i)

/-- What a team fetches: a slot behind its quad's lender begins at slot 1 (R16, R20). A team in the middle of an instruction has
fetched it; it stands at no safe point, where alone a forced reclaim could stop it (R159, R210). -/
noncomputable def State.fetch (s : State) (t : Team) : Fetched :=
  if t.status = .waiting then s.slotAt t t.ctl.pc
  else
    match s.lostOverlay t t.ctl.bank t.ctl.pc with
    | some n => .reclaimed t.ctl.bank n
    | none =>
      let quad := t.ctl.pc / 16 * 16
      let inside :=
        match s.overlayIn t t.ctl.bank with
        | some n => s.inOverlay t n quad
        | none => false
      if inside then s.slotAt t t.ctl.pc else .beyond quad

/-- The address of the slot that a team performs next: a lender is no slot, and has no address of its own (R20, R33). -/
def State.pcOf (s : State) (t : Team) : Nat :=
  let quad := t.ctl.pc / 16 * 16
  quad + 4 * effectiveSlot (s.fetchQuad t quad) (t.ctl.pc % 16 / 4)

/-- TINFO of OVL_MISS and OVL_STALE (R211). -/
def ovlInfo (b : Bank) (overlay reason : Nat) : Word :=
  BitVec.ofNat 32 ((if b = .b then 4096 else 0) + overlay % 256 * 16 + reason % 16)

/-- The overlay that bits [22:15] of an address name (R211). -/
def overlayOf (a : Nat) : Nat := a / overlaySpan % 256

/-- POLICY of an overlay of a team's set is 1, trap (R75). -/
def State.policyTrap (s : State) (t : Team) (n : Nat) : Bool :=
  match s.setOf t with
  | none => false
  | some ts => ((ts.overlays.find? n).map OverlayInfo.policy).getD false

/-- Queue a load on demand of an overlay for a team, which waits for it (R210). -/
def State.demand (s : State) (uid : Nat) (t : Team) (half : Bank) (n : Nat) (claim : Bool) (target : Word64) : State :=
  match s.placeOf t, s.crews.find? t.crew with
  | some p, some cr =>
    (s.modTeam uid fun t => { t with status := .parked (.reload half n target) }).modSub p fun sc =>
      { sc with loads := sc.loads ++ [{ half := half, set := cr.set, overlay := n, fn := cr.fn, why := .demand uid claim }] }
  | _, _ => s

/-- A team resumes with BANK naming a reclaimed half: reload, or OVL_STALE, reason 1 (R210); the lanes that a tret has the
instruction skip stay done. -/
def State.resumeReclaimed (s : State) (uid : Nat) (t : Team) (b : Bank) (n : Nat) : State :=
  if s.policyTrap t n then
    (s.modTeam uid fun t => { t with ctl := { t.ctl with pc := s.pcOf t } }).raise uid
      { cause := .ovlStale, info := ovlInfo b n 1, done := t.ctl.skip }
  else s.demand uid t b n false 0

/-- A team whose last marker passed THRESH may log an interlock before it issues, while MARKS and DETAIL stand (R368). -/
def State.interlock (s : State) (t : Team) : State :=
  if t.link.detail && (s.fn (s.fnOf t)).marks && (s.fn (s.fnOf t)).detail then
    let (b, s1) := s.takeBool
    let (x, s2) := s1.takeNat
    if b then (s2.traceTeam t 7 (s.pcOf t) (BitVec.ofNat 64 (x % 2 ^ 32))) else s2
  else s

/-- A sub-core of the pool whose function is never granted its issue (R391, R392). -/
def State.issueBarred (s : State) (p : Nat × Nat) (t : Team) : Bool :=
  brdMode (s.brd (boardOf p.1)) == 3 && s.barred 0 0 (s.fnOf t)

/-- One issue at a sub-core: the instruction that its selected context performs, if any, and the state in which it is
performed, with the pc at its slot. -/
noncomputable def State.issue (s : State) (p : Nat × Nat) : State × Option Instr :=
  if s.traceStopped p then (s.stopCycles p, none)
  else
    match s.selectAt p with
    | none => (s, none)
    | some (uid, t) =>
      if s.issueBarred p t then (s, none)
      else
        let s0 := s.interlock t
        let s1 := { s0.modSub p fun c => { c with selected := some uid } with self := some uid }
        let at_ (pc : Nat) : State := s1.modTeam uid fun t => { t with status := .runnable, ctl := { t.ctl with pc := pc } }
        match s1.fetch t with
        | .slot (.instr i) pc => (at_ pc, some i)
        | .slot (.illegal slot reason) pc => (at_ pc, some (.illegalEncoding slot reason))
        | .beyond quad =>
          ((at_ quad).raise uid
            { cause := .ovlMiss, addr := BitVec.ofNat 64 quad, info := ovlInfo t.ctl.bank (overlayOf quad) 3 }, none)
        | .reclaimed b n => (s1.resumeReclaimed uid t b n, none)

/-- A kernel of one team of 8 lanes whose code is one quad, with every declared count at its maximum. -/
def soleKernel : Kernel :=
  { ovl := 0, entry := 0, counts := Counts.max, teams := 1, lanes := 8, producer := 0, tracks := 16, ranges := 32, scratch := 1024
    spill := 0 }

/-- A launch of one crew of that kernel, for the physical function at privilege H. -/
def soleLaunch : Launch :=
  { fn := 0, serial := 1
    pkt := { kernel := 0, ncrew := 1, argbase := 0, scratch := 1024, cpt := 0, producer := 255, prio := 0, fuse := false
             splits := 7, await0 := 0, await1 := 0, signal := 0 }
    kern := soleKernel, image := 0, imgid := 0, priv := .h, reserved := false, ready := true, next := 1 }

/-- The state in which a word stands in slot 0 of a quad of nops and is what the next step fetches: one crew of one team, on
sub-core 0 of core 0, at the first quad of the overlay that half A holds. The word's bytes stand in the set's code. -/
def State.loadWord (s : State) (w : Nat) : State :=
  let n := s.uids
  let code : List Host.Cell := pokes [] 0 (leBytes 4 w)
  let set : TransSet :=
    { imgid := 0, split := 0, xver := s.xver, domain := 0, current := true
      overlays := [(0, { size := 16, policy := false })], code := code }
  let crew : Crew :=
    { launch := n, fn := 0, index := 0, table := none, split := 0, place := some (0, 0), contexts := [0], status := .running, started := true
      set := n, nteam := 1, nlane := 8, producer := some 0, scratchBytes := 1024, spill := 0 }
  let team : Team :=
    { crew := n, index := 0, nlane := 8
      ctl := { pc := 0, bank := .a, active := maskOf 8 fun _ => true, priv := .h } }
  let sub : SubCore := { halfA := some (n, 0), selected := some (4 * n), context := 0 }
  { s with
    agenda := .issue 0 0 :: s.agenda
    uids := n + 1
    teams := s.teams.insert (4 * n) team
    crews := s.crews.insert n crew
    launches := s.launches.insert n soleLaunch
    sets := s.sets.insert n set
    subs := s.subs.insert 0 sub }

end Sys2Proof.Machine
end

