-- ==== Sys2Proof/Machine/Paging.lean ====
section
/-! DEFINITION. Page walks, page requests, and probe (R151, R152, R349 to R356, R393 to R396). -/

namespace Sys2Proof.Machine

/-! ### Walks (R352, R353, R393) -/

/-- How a walk ends. -/
inductive Walk where
  | valid (pa : Nat) (host w : Bool)
  | invalid
  /-- a guest-physical address of the walk fails stage 2 -/
  | stage2 (gpa : Nat)
  /-- an entry that it reads waits: its slice group is under test, or it needs a burst that is never granted (R392, R409) -/
  | waits
deriving DecidableEq, Repr

/-- Walk from the table at an address, with the indices of the levels left; an entry whose granule holds a mark is not valid
(log entry 97). -/
def State.walkFrom (s : State) (v : Nat) (fabric : Bool) (table : Nat) : List Nat → Walk × State
  | [] => (.invalid, s)
  | i :: rest =>
    let a := table + 8 * i
    match s.stage2 v a with
    | none => (.stage2 a, s)
    | some _ =>
      if s.placeWaits v (.gpa v a) then (.waits, s)
      else
      let (e, s1) := s.loadNat (.gpa v a) 8
      if s.markedIn (.gpa v a) 8 || !e.testBit 0 || e.testBit 1 || e / 16 % 256 ≠ 0 then (.invalid, s1)
      else
        match rest with
        | [] =>
          if e.testBit 3 then (if fabric then (.invalid, s1) else (.valid (pageBits e) true (e.testBit 2), s1))
          else if fabric then (.valid (pageBits e) false (e.testBit 2), s1)
          else if (s1.stage2 v (pageBits e)).isSome then (.valid (pageBits e) false (e.testBit 2), s1)
          else (.stage2 (pageBits e), s1)
        | _ :: _ => if e.testBit 2 || e.testBit 3 then (.invalid, s1) else s1.walkFrom v fabric (pageBits e) rest

/-- The stage-1 walk of an address (R352). -/
def State.walk (s : State) (v a : Nat) : Walk × State :=
  let fabric := inFabric a
  let root := if fabric then (s.fn v).s1froot else (s.fn v).s1root
  if !root.getLsbD 0 then (.invalid, s)
  else if !fabric && a / 2 ^ 48 ≠ 0 then (.invalid, s)
  else
    let top := if fabric then fabRaddr a / 2 ^ 39 else a / 2 ^ 39 % 512
    s.walkFrom v fabric (pageBits root.toNat) [top, a / 2 ^ 30 % 512, a / 2 ^ 21 % 512, a / 2 ^ 12 % 512]

/-! ### probe (R151, R152, R356) -/

/-- How a probed address lies. -/
inductive ProbeAt where
  /-- in the scratchpad or the LTT, with the result -/
  | known (r : Nat)
  | walk
  | oob
  | nowhere
deriving DecidableEq, Repr

/-- The classes of R151. -/
def State.probeAt (s : State) (t : Team) (a : Nat) : ProbeAt :=
  if inLocal a then
    if a - scrBase < ((s.crews.find? t.crew).map Crew.scratchBytes).getD 0 then .known 3 else .oob
  else if inGlobal a || inFabric a then
    match lttFind (s.extentsOf t) t.link.pages (s.fnOf t) a 1 with
    | some (_, w) => .known (if w then 3 else 1)
    | none => .walk
  else .nowhere

/-- Walk a page of a team's probe: a valid walk ends it, a failed one makes a request with the repeat count given. -/
def State.walkPage (s : State) (uid va rep : Nat) : State :=
  let t := s.teamD uid
  let v := s.fnOf t
  let serial := ((s.launchOf t).map Launch.serial).getD 0
  let (w, s1) := s.walk v va
  match w with
  | .valid pa host wr => s1.modProbe uid fun p => p.setPage va (.granted pa host wr)
  | .invalid => s1.makeRequest { fn := v, uid := uid, va := va, gpa := 0, kind := 1, rep := rep, serial := serial }
  | .stage2 g => s1.makeRequest
      { fn := v, uid := uid, va := va, gpa := BitVec.ofNat 64 g, kind := 2, rep := rep, serial := serial }
  | .waits => s1.modProbe uid fun p => p.setPage va .again

/-- A page has ended. -/
def PageState.ended : PageState → Bool
  | .granted .. => true
  | .refused _ => true
  | _ => false

/-- Enter a page in a team's LTT: none where it has no free place (R350). -/
def enterPage (room : Nat) (pages : List PageEntry) (e : PageEntry) : Option (List PageEntry) :=
  if pages.any fun p => p.va == e.va then some pages
  else if pages.length < room then some (pages ++ [e])
  else
    match List.find? (fun p => !p.fresh) pages with
    | none => none
    | some old => some ((pages.filter fun p => p.va != old.va) ++ [e])

/-- The trap of a probe's lane (R356). -/
def probeTrap (c : Cause) (lane : Nat) (a : Word64) (reason : Nat) (done : Mask) : Trap :=
  { cause := c, addr := a, info := memInfo lane false false 0 0 reason, done := done }

/-- What the final pass does with one lane: its result and the team's pages, or its trap. -/
def probeLane (room : Nat) (p : ProbeState) (pages : List PageEntry) (a : Word64) : Option Nat → Except (Cause × Nat) (Nat × List PageEntry)
  | some r => .ok (r, pages)
  | none =>
    match List.find? (fun e => e.1 == a.toNat / 4096 * 4096) p.pages with
    | some (va, .granted pa host w) =>
      match enterPage room pages { va := va, pa := pa, host := host, w := w, fresh := true } with
      | some l => .ok (if w then 3 else 1, l)
      | none => .error (.probe, 5)
    | some (_, .refused r) => .error (.probe, r)
    | _ => if inLocal a.toNat then .error (.scratchOob, 0) else .error (.probe, 1)

/-- The final pass over the lanes, in rising order (R356). -/
def finalPass (uid room : Nat) (p : ProbeState) : List (Nat × Word64 × Option Nat) → Mask → State → State
  | [], _, s => s.modTeam uid Team.advance
  | (l, a, r) :: rest, m, s =>
    match probeLane room p (s.teamD uid).link.pages a r with
    | .ok (v, pages) =>
      finalPass uid room p rest (Mask.add m l) (s.modTeam uid fun t =>
        { t with regs := t.regs.loadLane p.dest t.nlane 4 l v, link := { t.link with pages := pages } })
    | .error (c, reason) => s.raise uid (probeTrap c l a reason m)

/-- Forget which entries a pass has entered. -/
def Team.settlePages (t : Team) : Team :=
  { t with link := { t.link with pages := t.link.pages.map fun p => { p with fresh := false } } }

/-- A probe whose pages have all ended makes its final pass; where its half has been reclaimed meanwhile, its overlay is loaded
again first, or its instruction traps (R210). -/
def State.finishProbe (s : State) (uid : Nat) : State :=
  let t := s.teamD uid
  match t.link.probe with
  | none => s
  | some p =>
    if !p.pages.all fun e => e.2.ended then s
    else
      match s.lostOverlay t t.ctl.bank t.ctl.pc with
      | some n =>
        if s.policyTrap t n then
          let s1 := s.modTeam uid fun t => { t with link := { t.link with probe := none } }
          s1.resumeReclaimed uid (s1.teamD uid) t.ctl.bank n
        else s.resumeReclaimed uid t t.ctl.bank n
      | none =>
      let room := 2048 - (s.extentsOf t).length
      let s1 := s.modTeam uid fun t => { t with status := .runnable, link := { t.link with probe := none } }
      (finalPass uid room p p.lanes t.ctl.skip s1).modTeam uid Team.settlePages

/-- probe (R151, R152). -/
def execProbe (g : Option Guard) (d xb vo : Nat) (disp : Word) (s : State) : Out :=
  withTeam s fun uid t =>
    let ls := (maskLanes t.nlane (t.lanes g)).filter fun l => !Mask.has t.ctl.skip l
    let at_ := fun l => s.probeAt t (t.ea xb vo disp 1 l)
    let f0 := List.find? (fun l => at_ l == .oob || at_ l == .nowhere) ls
    let below := fun l => match f0 with
      | some f => decide (l < f)
      | none => true
    let pages := ((ls.filter fun l => below l && at_ l == .walk).map fun l => t.ea xb vo disp 1 l / 4096 * 4096).eraseDups
    let lanes := ls.map fun l => (l, BitVec.ofNat 64 (t.ea xb vo disp 1 l), match at_ l with
      | .known r => some r
      | _ => none)
    let st : ProbeState := { vpc := t.ctl.pc, dest := d, lanes := lanes, f0 := f0, pages := pages.map fun a => (a, .again) }
    let s1 := s.putTeam uid { t with status := .parked .probe, link := { t.link with probe := some st } }
    (pages.foldl (fun s a => s.walkPage uid a 0) s1).finishProbe uid

/-- The page of a team's probe to walk next: one whose request has been answered, or whose walk was removed. -/
def State.duePage (s : State) (p : ProbeState) : Option (Nat × PageState) :=
  List.find? (fun e => match e.2 with
    | .again => true
    | .requested q => ((s.dev.prq.find? q).bind PrqEntry.answer).isSome
    | _ => false) p.pages

/-- PROBE_REPLAY: a page's answer acts (R356), in a crew that runs: the walks of a stopped or saved one wait for its restore
(R359). -/
def execProbeReplay (uid : Nat) (s : State) : Out :=
  .next <|
    match s.teams.find? uid with
    | none => s
    | some t =>
      match t.link.probe, s.crewRuns t with
      | some p, true =>
        match s.duePage p with
        | some (va, .requested q) =>
          match s.dev.prq.find? q with
          | none => s
          | some e =>
            match e.req, e.answer with
            | some r, some true =>
              let s1 := s.endRequest r.fn q
              let (w, s2) := s1.walk r.fn va
              match w with
              | .valid pa host wr => (s2.modProbe uid fun p => p.setPage va (.granted pa host wr)).finishProbe uid
              | .waits => s
              | _ =>
                if r.rep = 3 then (s2.modProbe uid fun p => p.setPage va (.refused 4)).finishProbe uid
                else (s1.walkPage uid va (r.rep + 1)).finishProbe uid
            | some r, some false =>
              ((s.endRequest r.fn q).modProbe uid fun p =>
                p.setPage va (.refused (if r.kind = 2 then 3 else 2))).finishProbe uid
            | _, _ => s
        | some (va, _) => (s.walkPage uid va 0).finishProbe uid
        | none => s
      | _, _ => s

/-! ### Registers of paging (R349, R351, R355) -/

/-- PRRESP: answer the pending request with this ID, once (R355); the guest answers its own KIND 1 requests, the hypervisor
the KIND 2 ones. -/
def State.prresp (s : State) (v : Nat) (hyper : Bool) (val : Word64) : State :=
  let e := val.toNat % 1024
  let gen := val.toNat / 1024 % 64
  if val.toNat / 2 ^ 17 ≠ 0 then s
  else
    match s.dev.prq.find? e with
    | none => s
    | some p =>
      match p.req with
      | none => s
      | some r =>
        let mine := if hyper then r.kind == 2 else r.kind == 1 && r.fn == v
        if p.gen = gen && p.answer.isNone && mine && (s.fn r.fn).state != .resetting then
          { s with dev := { s.dev with prq := s.dev.prq.insert e { p with answer := some (!val.getLsbD 16) } } }
        else s

/-- INVAL: a page is removed from every team of a function (R351). -/
def State.inval (s : State) (v page : Nat) : State :=
  { s with teams := s.teams.map fun e =>
      if s.fnOf e.2 = v then
        (e.1, { e.2 with link := { e.2.link with
          pages := e.2.link.pages.filter fun p => p.va != page
          probe := e.2.link.probe.map fun p => { p with pages := p.pages.map fun x =>
            match x.2 with
            | .granted .. => if x.1 = page then (page, .again) else x
            | _ => x } } })
      else e }

/-- PRQ_ENTRY_GRANT: arbiter 6 grants a shared entry to the function it chooses (R389, R395). -/
def execPrqEntryGrant (s : State) : Out :=
  .next <|
    match (s.arbiter 6).choose 1024 s.sharedWaiters with
    | none => s
    | some (v, tier) =>
      match (s.fn v).prqWait with
      | [] => s
      | r :: l =>
        let s1 := { s with dev := { s.dev with arbiters := s.dev.arbiters.insert 6 ((s.arbiter 6).grant v tier) } }
        (s1.modFn v fun f => { f with prqWait := l }).takeEntry r true

end Sys2Proof.Machine
end

