-- ==== Sys2Proof/Machine/Parks.lean ====
section
/-! DEFINITION. What teams wait for: the condition of every park, what its end does, and the traps of a wait
(R162 to R167, R172, R181 to R186, R195, R204, R207, R213, R214, R236, R292, R336). -/

namespace Sys2Proof.Machine

/-! ### Counters and engine work -/

/-- The counter of a class (R165). -/
def Team.counter (t : Team) : WaitClass → Nat
  | .matrix => t.eng.mats.length
  | .gather => t.eng.gathers.length
  | .fabric => t.eng.fabric.length

/-- Matrix operations that still hold an array, oldest first: those not yet performed, apart from an acc.st that has read it
(R195, R273). -/
def Team.matsOn (t : Team) (slot : Nat) : List MatOp := t.eng.mats.filter fun m => m.array == slot && !m.done && m.read.isNone

/-- The generation that the next object of a slot takes. -/
def Pool.gen {α : Type} (p : Pool α) (slot : Nat) : Nat := ((p.find? slot).map SlotOf.gen).getD 1

/-- An operation that a WATCH has reported waits for the tret of its frame (R336). -/
def suspReported (x : Option Suspension) : Bool :=
  match x with
  | some u => u.reported
  | none => false

/-- An operation suspended and not yet reported. -/
def suspDue (x : Option Suspension) : Bool :=
  match x with
  | some u => !u.reported
  | none => false

/-- An instruction of major 24 waits for an array: an earlier operation on it has not been performed, and it is not one
whose WATCH is being handled (R195, R273, R337). -/
def Team.arrayBusy (t : Team) (slot : Nat) : Bool :=
  match t.matsOn slot with
  | [] => false
  | m :: _ => !suspReported m.susp

/-- A matrix operation names the array that a slot holds now. -/
def Team.names (t : Team) (slot : Nat) (m : MatOp) : Bool := m.array == slot && m.gen == Pool.gen t.eng.arrays slot

/-- acc.flags waits: an operation on its array, issued before any whose WATCH is being handled, is not complete and so has not yet
ORed its flags into FLAGS (R193, R337). -/
def Team.flagsBusy (t : Team) (slot : Nat) : Bool := (t.eng.mats.takeWhile fun m => !suspReported m.susp).any (t.names slot)

/-- The operations that must complete before those on an array have: they complete in the order of their issue (R165). -/
def Team.upTo (t : Team) (slot : Nat) : List MatOp := (t.eng.mats.reverse.dropWhile fun m => !t.names slot m).reverse

/-- A matrix operation that has issued and not yet begun (R267). -/
def MatOp.queued (m : MatOp) : Bool := !m.begun && !m.done && !m.sent && m.susp.isNone && m.progress == 0 && m.read.isNone

/-- Matrix operations that the queue of R267 holds. -/
def Team.queued (t : Team) : Nat := (t.eng.mats.filter MatOp.queued).length

/-- Matrix operations that may begin now: the oldest of each array. -/
def Team.beginnable (t : Team) : List Nat :=
  (t.eng.mats.filter fun m => m.queued && (t.matsOn m.array).head?.map MatOp.seq == some m.seq).map MatOp.seq

/-- The engine begins the operations that it chooses among those that may begin (R267). -/
def State.beginMats (s : State) (uid : Nat) : State :=
  (s.teamD uid).beginnable.foldl (fun s q =>
    let (b, s1) := s.takeBool
    if b then s1.modTeam uid fun t => { t with eng := { t.eng with mats := t.eng.mats.map fun m =>
      if m.seq = q then { m with begun := true } else m } }
    else s1) s

/-- The number of a closed batch as programs see it. -/
def batchNumber (seq : Nat) : Word := BitVec.ofNat 32 seq

/-- A closed batch is covered by a waitb operand (R167). -/
def batchCovered (b : Word) (seq : Nat) : Bool := decide (0 ≤ (b - batchNumber seq).toInt)

/-- Copies and fills of a team not yet complete (R181). -/
def Team.copies (t : Team) : Nat := ((t.eng.open_ ++ t.eng.closed.flatMap Batch.ops).filter fun o => !o.done).length

/-! ### Suspended operations and where they are reported (R336) -/

/-- The trap of a suspended operation. -/
def suspTrap (op : EngRef) (x : Suspension) : Trap :=
  { cause := .watch, addr := x.addr
    info := memInfo x.lane false x.write x.size x.watch 0 + 0x80000
    eng := some { op := op, prog0 := x.prog0, prog1 := x.prog1 } }

/-- The unreported suspensions among copies. -/
def copySusps (l : List CopyOp) : List (Nat × EngRef × Suspension) :=
  l.filterMap fun o => match o.susp with
    | some x => if x.reported then none else some (o.id, .copy o.id, x)
    | none => none

/-- The unreported suspensions among matrix operations. -/
def matSusps (l : List MatOp) : List (Nat × EngRef × Suspension) :=
  l.filterMap fun m => match m.susp with
    | some x => if x.reported then none else some (m.seq, .matrix m.seq, x)
    | none => none

/-- The unreported suspensions among stamps. -/
def stampSusps (l : List Stamp) : List (Nat × EngRef × Suspension) :=
  l.filterMap fun m => match m.susp with
    | some x => if x.reported then none else some (m.id, .stamp m.id, x)
    | none => none

/-- The oldest of several suspensions. -/
def oldest : List (Nat × EngRef × Suspension) → Option (EngRef × Suspension)
  | [] => none
  | x :: l => match oldest l with
    | none => some x.2
    | some y => if l.all fun z => decide (x.1 ≤ z.1) then some x.2 else some y

/-- The suspended operation for which a team would park, that the instruction has to report; a copy that 1,024 incomplete ones hold
at its issue is none of the delivery points (R336). A stall on a full queue or counter is where it is reported (log entry 135). -/
def Team.suspFor (t : Team) : Park → Option (EngRef × Suspension)
  | .waitc .matrix n => oldest (matSusps (t.eng.mats.take (t.eng.mats.length - n)))
  | .waitc .gather n => oldest (copySusps (t.eng.gathers.take (t.eng.gathers.length - n)))
  | .waitb b => oldest (copySusps ((t.eng.closed.filter fun x => batchCovered b x.seq).flatMap Batch.ops))
  | .accFree slot => oldest (matSusps (t.upTo slot))
  | .stall (.arrayBusy slot) => oldest (matSusps (t.matsOn slot))
  | .stall .matrixFull => oldest (matSusps t.eng.mats)
  | .stall (.flagsBusy slot) => oldest (matSusps (t.upTo slot))
  | .stall (.counterFull .matrix) => oldest (matSusps t.eng.mats)
  | .stall (.counterFull .gather) => oldest (copySusps t.eng.gathers)
  | .trkClose slot => oldest (copySusps ((t.eng.closed.filter fun x =>
      t.eng.advances.any fun a => a.producer && a.slot == slot && decide (x.seq ≤ a.after)).flatMap Batch.ops))
  | .exit => oldest (copySusps t.eng.flying ++ matSusps t.eng.mats ++ stampSusps t.eng.stamps)
  | _ => none

/-- Mark a suspension reported. -/
def markSusp (x : Option Suspension) : Option Suspension := x.map fun u => { u with reported := true }

/-- Change the matrix operation of a team that a number names. -/
def Engines.modMat (e : Engines) (seq : Nat) (f : MatOp → MatOp) : Engines :=
  { e with mats := e.mats.map fun m => if m.seq = seq then f m else m }

/-- Change the stamp of a team that a number names. -/
def Engines.modStamp (e : Engines) (id : Nat) (f : Stamp → Stamp) : Engines :=
  { e with stamps := e.stamps.map fun m => if m.id = id then f m else m }

/-- A suspended operation has been reported. -/
def Engines.markReported (e : Engines) : EngRef → Engines
  | .copy id => e.modCopy id fun o => { o with susp := markSusp o.susp }
  | .matrix seq => e.modMat seq fun o => { o with susp := markSusp o.susp }
  | .stamp id => e.modStamp id fun o => { o with susp := markSusp o.susp }

/-- Report a suspended operation at the instruction at which the team stands (R336). -/
def State.reportSusp (s : State) (uid : Nat) (op : EngRef) (x : Suspension) : State :=
  (s.modTeam uid fun t => { t with eng := t.eng.markReported op }).raise uid (suspTrap op x)

/-! ### Tracks (R183 to R186) -/

/-- A track of a team's crew. -/
def State.track (s : State) (crew slot : Nat) : Option TrackObj :=
  ((s.crews.find? crew).bind fun c => c.tracks.find? slot).bind SlotOf.obj

/-- A range of a team's crew. -/
def State.range (s : State) (crew slot : Nat) : Option RangeObj :=
  ((s.crews.find? crew).bind fun c => c.ranges.find? slot).bind SlotOf.obj

/-- The counts of a team's pending advances of one side of a track: Ppend or Cpend (R184). -/
def Team.pending (t : Team) (slot : Nat) (producer : Bool) : Word :=
  (t.eng.advances.filter fun a => a.slot == slot && a.producer == producer).foldl (fun n a => n + a.n) 0

/-- DEPTH − (P + Ppend − C). -/
def TrackObj.free (k : TrackObj) (pend : Word) : Int := (k.depth : Int) - ((k.p + pend - k.c).toNat : Int)
/-- P − C. -/
def TrackObj.fill (k : TrackObj) : Nat := (k.p - k.c).toNat

/-! ### Tokens (R206) -/

/-- A token is LOADING. -/
def Team.tokenLoading (t : Team) (slot : Nat) : Bool :=
  match (t.link.tokens.find? slot).bind SlotOf.obj with
  | some k => k.state == .loading
  | none => false

/-- Some token of a team is LOADING. -/
def Team.anyLoading (t : Team) : Bool := t.link.tokens.any fun e => match e.2.obj with
  | some k => k.state == .loading
  | none => false

/-- Free a slot of a pool: its generation moves on, 255 to 1 (R170). -/
def Pool.free {α : Type} (p : Pool α) (slot : Nat) : Pool α :=
  match p.find? slot with
  | none => p
  | some x => p.insert slot { gen := if x.gen = 255 then 1 else x.gen + 1, obj := none }

/-! ### Dropping references (R172) -/

/-- An mma of some team of the crew that names a range is not complete, or a fill into it. -/
def State.rangeBusy (s : State) (crew slot : Nat) : Bool :=
  (s.teamsOf crew).any fun e =>
    (e.2.eng.mats.any fun m => match m.kind with
      | .mma _ _ _ a b _ _ => a == slot || b == slot
      | .accSt .. => false)
    || e.2.eng.flying.any fun o => o.range == some slot && !o.done

/-- An advance of a track is pending in some team of the crew. -/
def State.trackBusy (s : State) (crew slot : Nat) : Bool :=
  (s.teamsOf crew).any fun e => e.2.eng.advances.any fun a => a.slot == slot

/-- A team holds the only reference among some holders. -/
def soleHolder (holders : List Nat) (uid : Nat) : Bool := holders.all fun h => h == uid

/-- trk.close may drop the team's reference now: its own advances have applied, and when it is the last holder's, no
operation names the slot. -/
def State.trackDroppable (s : State) (uid : Nat) (t : Team) (slot : Nat) : Bool :=
  !(t.eng.advances.any fun a => a.slot == slot) &&
    match s.track t.crew slot with
    | some k => !soleHolder k.holders uid || !s.trackBusy t.crew slot
    | none => true

/-- ob.rel may drop the team's reference now. -/
def State.rangeDroppable (s : State) (uid : Nat) (t : Team) (slot : Nat) : Bool :=
  match s.range t.crew slot with
  | some r => !soleHolder r.holders uid || !s.rangeBusy t.crew slot
  | none => true

/-- Drop a team's reference to a track; the last one frees the slot and writes STATE = 0 in the record (R186). -/
def State.dropTrack (s : State) (crew uid slot : Nat) : State :=
  match s.track crew slot with
  | none => s
  | some k =>
    if soleHolder k.holders uid then
      (s.modCrew crew fun c => { c with tracks := Pool.free c.tracks slot }).writeNat
        (.scratch crew (k.addr.toNat - scrBase + 12)) 4 0
    else s.modCrew crew fun c => { c with tracks := c.tracks.modify slot fun x =>
      { x with obj := some { k with holders := k.holders.filter (· != uid) } } }

/-- Drop a team's reference to a range; the last one frees the slot. -/
def State.dropRange (s : State) (crew uid slot : Nat) : State :=
  match s.range crew slot with
  | none => s
  | some r =>
    s.modCrew crew fun c =>
      let l :=
        if soleHolder r.holders uid then Pool.free c.ranges slot
        else c.ranges.modify slot fun x => { x with obj := some { r with holders := r.holders.filter (· != uid) } }
      { c with ranges := l }

/-- The slots of a pool whose objects meet a condition. -/
def Pool.slots {α : Type} (p : Pool α) (f : α → Bool) : List Nat :=
  (p.filter fun e => match e.2.obj with
    | some x => f x
    | none => false).map (·.1)

/-- The tracks and ranges that a team holds. -/
def State.heldTracks (s : State) (crew uid : Nat) : List Nat :=
  match s.crews.find? crew with
  | some c => Pool.slots c.tracks fun k => k.holders.contains uid
  | none => []
/-- The ranges that a team holds. -/
def State.heldRanges (s : State) (crew uid : Nat) : List Nat :=
  match s.crews.find? crew with
  | some c => Pool.slots c.ranges fun k => k.holders.contains uid
  | none => []

/-! ### Objects and barriers in memory -/

/-- The 16 bytes of a completion object that cjoin and lstat read together: ARRIVED, EXPECTED, FLAGS, STATUS (R213, R254). -/
structure ObjRead where
  arrived : Word
  expected : Word
  flags : Word
  status : Word
deriving DecidableEq, Repr

/-- An object from its 16 bytes. -/
def objOf (n : Nat) : ObjRead :=
  { arrived := BitVec.ofNat 32 n, expected := BitVec.ofNat 32 (n / 2 ^ 32), flags := BitVec.ofNat 32 (n / 2 ^ 64)
    status := BitVec.ofNat 32 (n / 2 ^ 96) }

/-- An object is complete (R213). -/
def ObjRead.complete (o : ObjRead) : Bool := o.status != 0 || decide (0 ≤ (o.arrived - o.expected).toInt)

/-- The access of a barrier word (R162). -/
def barAccess (a : Word64) (watched : Bool) : Access :=
  { addr := a.toNat, size := 4, log2 := 2, rd := true, wr := true, uni := true, watched := watched }

/-- The object read of cjoin and lstat: 16 bytes, uniform. -/
def objAccess (a : Word64) : Access := { addr := a.toNat, size := 16, log2 := 4, rd := true, wr := false, uni := true }

/-- x[A] must be aligned to 32 (R213). -/
def objTrap (a : Word64) : Option Trap := if a.toNat % 32 ≠ 0 then some ((objAccess a).trap .align 0 0) else none

/-- What a team that waits on a location meets when it looks. -/
inductive Poll where
  | pass (s : State)
  | wait (s : State)
  | trap (tr : Trap)

/-- A team looks at the location that it waits on (R162, R213): checked as any access is (R146), read here, or asked of another
node, whose answer the next look takes. -/
def State.poll (s : State) (uid : Nat) (x : Access) (test : Nat → Bool) : Poll :=
  let t := s.teamD uid
  match t.answer 0 with
  | some (.data b) =>
    let s1 := s.modTeam uid fun t => t.takeAnswer 0
    if test (leNat b) then .pass s1 else .wait s1
  | some .done => .wait (s.modTeam uid fun t => t.takeAnswer 0)
  | some .poison => .trap (x.trap .poison 0 0)
  | some (.fail r) => .trap (x.trap .fabric 0 r)
  | none =>
    if s.asked uid 0 then .wait s
    else
      match s.checkAccess t x with
      | .error tr => .trap tr
      | .ok (.fabric n r) => .wait (s.request (s.fnOf t) uid n r (.load x.size) (.access 0) false)
      | .ok p =>
        if s.placeWaits (s.fnOf t) p then .wait s
        else
          let (v, s1) := s.loadNat p x.size
          if test v then .pass s1 else .wait s1

/-- A barrier word shows another phase than the team's record. -/
def Team.phaseOver (t : Team) (w : Nat) : Bool := (t.ctl.barrier.map BarrierRec.phase) != some (barrierPhase (BitVec.ofNat 32 w))

/-! ### Retirement (R181, R204, R240) -/

/-- A group whose outcome a retiring team waits for. -/
def State.groupPreparing (s : State) (uid : Nat) : Bool :=
  s.fab.groups.any fun e => e.2.uid == uid && !e.2.freed && e.2.phase == .preparing

/-- The conditions of R181 and R204 for a team that has exited, with its open batch closed. -/
def State.exitReady (s : State) (uid : Nat) (t : Team) : Bool :=
  t.eng.open_.isEmpty && t.eng.closed.isEmpty && t.eng.gathers.isEmpty && t.eng.mats.isEmpty && t.eng.stamps.isEmpty
    && t.eng.advances.isEmpty && !t.anyLoading && !s.groupPreparing uid
    && (s.heldTracks t.crew uid).all (s.trackDroppable uid t) && (s.heldRanges t.crew uid).all (s.rangeDroppable uid t)

/-- The traps of TRACK_DEADLOCK (R293). -/
def trackTrap (k : TrackObj) (reason : Nat) : Trap := { cause := .trackDeadlock, addr := k.addr, info := engInfo reason 6 0 }

/-- The track that a team waits on. -/
def State.waitedTrack (s : State) (t : Team) : Option TrackObj :=
  match t.status with
  | .parked (.trkWfree slot _) => s.track t.crew slot
  | .parked (.trkWfill slot _) => s.track t.crew slot
  | _ => none

/-- The trap of a team of a crew deadlocked on its tracks (R185). -/
def State.deadlockTrap (s : State) (t : Team) : Trap :=
  match s.waitedTrack t with
  | some k => trackTrap k 4
  | none => { cause := .trackDeadlock, info := engInfo 4 6 0 }

/-- A team's track wait, if it is parked in one: the slot, whether it waits to fill, and whether its condition holds or a
pending advance of the crew could make it hold. -/
def State.trackWait (s : State) (t : Team) : Option Bool :=
  match t.status with
  | .parked (.trkWfree slot n) =>
    some (match s.track t.crew slot with
      | some k => decide ((n : Int) ≤ k.free (t.pending slot true)) ||
          (s.teamsOf t.crew).any fun e => e.2.eng.advances.any fun a => a.slot == slot && !a.producer
      | none => false)
  | .parked (.trkWfill slot n) =>
    some (match s.track t.crew slot with
      | some k => decide (n ≤ k.fill) ||
          (s.teamsOf t.crew).any fun e => e.2.eng.advances.any fun a => a.slot == slot && a.producer
      | none => false)
  | _ => none

/-- The crew is deadlocked on its tracks (R292). -/
def State.deadlocked (s : State) (crew : Nat) : Bool :=
  let l := (s.teamsOf crew).filter fun e => e.2.status != .retired
  !l.isEmpty && l.all fun e => s.trackWait e.2 == some false

/-- The launch of a crew has been halted: its teams execute no further (R226). -/
def State.crewHalted (s : State) (crew : Nat) : Bool :=
  (((s.crews.find? crew).bind fun c => s.launches.find? c.launch).map Launch.halted).getD false

/-- Trap every parked team of a crew that is deadlocked on its tracks, but for a launch that has been halted. -/
def State.checkDeadlock (s : State) (crew : Nat) : State :=
  if s.deadlocked crew && !s.crewHalted crew then
    ((s.teamsOf crew).filter fun e => e.2.status != .retired).foldl (fun s' e => s'.raise e.1 (s.deadlockTrap e.2)) s
  else s

/-- A team retires: its handles are freed, its open groups abort; when it is the last of its crew, the crew retires (R204,
R240). -/
def State.retireTeam (s : State) (uid : Nat) : State :=
  match s.teams.find? uid with
  | none => s
  | some t =>
    let s1 := (s.heldTracks t.crew uid).foldl (fun s k => s.dropTrack t.crew uid k) s
    let s2 := (s1.heldRanges t.crew uid).foldl (fun s k => s.dropRange t.crew uid k) s1
    let s3 := s2.dropGroups uid 6
    let s4 := s3.modTeam uid fun t => { t with
      status := .retired
      link := { t.link with tokens := [], groups := [], pages := [], watches := [], monitor := none }
      eng := { t.eng with arrays := [] } }
    let s5 := s4.modCrew t.crew fun c => if c.producer = some t.index then { c with producer := none } else c
    let last := (s5.teamsOf t.crew).all fun e => e.2.status == .retired
    if last then s5.tearCrew t.crew 6 else s5.checkDeadlock t.crew

/-! ### Parks (R236) -/

/-- The end of a park: the team goes on after its instruction. -/
def Team.wake (t : Team) : Team := { t.advance with status := .runnable }

/-- The condition of a park holds; a barrier word and a completion object are looked at by `poll`. -/
def State.parkReady (s : State) (uid : Nat) (t : Team) : Park → Bool
  | .stall (.arrayBusy slot) => !t.arrayBusy slot
  | .stall (.counterFull c) => decide (t.counter c < 8191)
  | .stall .copiesFull => decide (t.copies < 1024)
  | .stall .matrixFull => decide (t.queued < 16)
  | .stall (.flagsBusy slot) => !t.flagsBusy slot
  | .barWait _ => false
  | .mwait =>
    match t.link.monitor with
    | none => true
    | some m => m.hit
  | .waitc c n => decide (t.counter c ≤ n)
  | .waitb b => !(t.eng.closed.any fun x => batchCovered b x.seq)
  | .trkWfree slot n =>
    match s.track t.crew slot with
    | some k => n == 0 || decide ((n : Int) ≤ k.free (t.pending slot true))
    | none => true
  | .trkWfill slot n =>
    match s.track t.crew slot with
    | some k => decide (n ≤ k.fill)
    | none => true
  | .trkClose slot => s.trackDroppable uid t slot
  | .accFree slot => !t.eng.mats.any (t.names slot)
  | .obRel slot => s.rangeDroppable uid t slot
  | .ovrel slot => !t.tokenLoading slot
  | .ovwait _ slot => !t.tokenLoading slot
  | .ifence => !t.anyLoading
  | .cjoin _ => false
  | .tgWait _ slot =>
    match ((t.link.groups.find? slot).bind SlotOf.obj).bind fun g => s.fab.groups.find? g.number with
    | some g => g.phase == .done
    | none => true
  | .probe => false
  | .exit => s.exitReady uid t
  | .reload .. => false

/-- TINFO and s[D] of a finished group: OUTCOME, REASON and the first destination that failed (R218). -/
def groupResult (g : Group) : Word :=
  BitVec.ofNat 32 (g.outcome % 4 + g.reason % 256 * 2 ^ 8 + (match g.node with
    | some n => n % 1024 * 2 ^ 16 + 2 ^ 26
    | none => 0))

/-- What the end of a park does, its condition holding. -/
def State.parkDone (s : State) (uid : Nat) (t : Team) : Park → State
  | .stall _ => s.modTeam uid fun t => { t with status := .runnable }
  | .barWait _ => s.modTeam uid Team.wake
  | .mwait => s.modTeam uid fun t => { t.wake with link := { t.link with monitor := none } }
  | .trkClose slot => (s.dropTrack t.crew uid slot).modTeam uid Team.wake
  | .accFree slot => s.modTeam uid fun t => { t.wake with eng := { t.eng with arrays := Pool.free t.eng.arrays slot } }
  | .obRel slot => (s.dropRange t.crew uid slot).modTeam uid Team.wake
  | .ovrel slot => s.modTeam uid fun t => { t.wake with link := { t.link with tokens := Pool.free t.link.tokens slot } }
  | .ovwait q slot => s.modTeam uid fun t =>
      let resident := match (t.link.tokens.find? slot).bind SlotOf.obj with
        | some k => k.state == .resident
        | none => false
      { t.wake with regs := t.regs.setQ q resident }
  | .ifence => s.modTeam uid fun t => { t.wake with link := { t.link with tokens := t.link.tokens.map fun e =>
      (e.1, { e.2 with obj := e.2.obj.map fun k => if k.state = .resident then { k with fenced := true } else k }) } }
  | .cjoin _ => s.modTeam uid Team.wake
  | .tgWait d slot =>
    match (t.link.groups.find? slot).bind SlotOf.obj with
    | none => s.modTeam uid Team.wake
    | some o =>
      let w := match s.fab.groups.find? o.number with
        | some g => groupResult g
        | none => 0
      (s.takeGroup o.number).modTeam uid fun t =>
        { t.wake with regs := t.regs.setS d w, link := { t.link with groups := Pool.free t.link.groups slot } }
  | .exit => s.retireTeam uid
  | .probe => s
  | .reload .. => s
  | .waitc .fabric _ => s.modTeam uid fun t => { t with status := .runnable }
  | .waitc .. => s.modTeam uid Team.wake
  | .waitb _ => s.modTeam uid Team.wake
  | .trkWfree .. => s.modTeam uid Team.wake
  | .trkWfill .. => s.modTeam uid Team.wake

/-- A team looks whether its wait is over (R236). -/
def State.tryPark (s : State) (uid : Nat) (t : Team) : Park → Poll
  | .barWait a => s.poll uid (barAccess a false) t.phaseOver
  | .cjoin a => s.poll uid (objAccess a) fun n => (objOf n).complete
  | .stall .matrixFull =>
    let s1 := s.beginMats uid
    if s1.parkReady uid (s1.teamD uid) (.stall .matrixFull) then .pass s1 else .wait s1
  | p => if s.parkReady uid t p then .pass s else .wait s

/-- Wait in an instruction: go on at once when its condition holds, report the suspended operation that it would wait for,
or park (R236, R336). -/
def State.park (s : State) (uid : Nat) (p : Park) : State :=
  match s.teams.find? uid with
  | none => s
  | some t =>
    match s.tryPark uid t p with
    | .pass s1 => s1.parkDone uid (s1.teamD uid) p
    | .trap tr => s.raise uid tr
    | .wait s1 =>
      match (s1.teamD uid).suspFor p with
      | some (op, x) => s1.reportSusp uid op x
      | none => (s1.modTeam uid fun t => { t with status := .parked p }).checkDeadlock t.crew

/-- The end of a park: where the half of BANK has been reclaimed meanwhile, its overlay is loaded again first, or the
instruction traps (R210); an mwait then still ends. An ext exit, which runs nothing more, retires without either (log entry 132). -/
def State.endPark (s : State) (uid : Nat) (p : Park) : State :=
  let t := s.teamD uid
  match (if p = .exit then none else s.lostOverlay t t.ctl.bank t.ctl.pc) with
  | some n =>
    let s1 := s.modTeam uid fun t => { t with
      status := .runnable, link := { t.link with monitor := t.link.monitor.map fun m => { m with hit := true } } }
    s1.resumeReclaimed uid (s1.teamD uid) t.ctl.bank n
  | none => s.parkDone uid t p

/-- The wait of a cjoin of an evicted crew goes on, its crew kept saved: an object of another node is asked for again once its
answer shows it incomplete (R238). -/
def State.pollEvicted (s : State) (uid : Nat) (t : Team) (a : Word64) : State :=
  match t.answer 0 with
  | some (.data b) => if (objOf (leNat b)).complete then s else s.modTeam uid fun t => t.takeAnswer 0
  | some _ => s
  | none =>
    match s.poll uid (objAccess a) fun _ => false with
    | .wait s1 => s1
    | _ => s

end Sys2Proof.Machine
end

