-- ==== Sys2Proof/Machine/Handles.lean ====
section
/-! DEFINITION. Handles: their checks, their creation, and the records that instructions of majors 20 to 24 read (R170 to R175). -/

namespace Sys2Proof.Machine

/-- What a handle names while its slot is live with its generation. -/
def Pool.live {α : Type} (p : Pool α) (h : Handle) : Option α :=
  match p.find? (h.toNat % 256) with
  | some x => if x.gen = h.toNat / 256 then x.obj else none
  | none => none

/-- The slot of a handle. -/
def slotOf (h : Handle) : Nat := h.toNat % 256

/-- The lowest free slot among `n`. -/
def Pool.lowest {α : Type} (p : Pool α) (n : Nat) : Option Nat :=
  List.find? (fun i => ((p.find? i).bind SlotOf.obj).isNone) (List.range n)

/-- Live objects of a pool. -/
def Pool.count {α : Type} (p : Pool α) : Nat := (p.filter fun e => e.2.obj.isSome).length

/-- Put an object in a slot. -/
def Pool.put {α : Type} (p : Pool α) (slot : Nat) (x : α) : Pool α := p.insert slot { gen := Pool.gen p slot, obj := some x }

/-- The handle of a slot. -/
def Pool.handle {α : Type} (p : Pool α) (slot : Nat) : Handle := BitVec.ofNat 16 (Pool.gen p slot * 256 + slot)

/-- The trap of a creating instruction that finds no free slot (R171). -/
def noSlotTrap : Trap := { cause := .handle, info := engInfo 2 5 0 }

/-- The check of an a handle (R171): the slot and its array, or the trap. -/
def Team.arrayAt (t : Team) (h : Handle) (role : Nat) : Except Trap (Nat × ArrayObj) :=
  match Pool.live t.eng.arrays h with
  | some a => .ok (slotOf h, a)
  | none => .error (handleTrap 1 role h)

/-- The check of a k handle. -/
def State.trackAt (s : State) (uid : Nat) (t : Team) (h : Handle) (role : Nat) : Except Trap (Nat × TrackObj) :=
  match (s.crews.find? t.crew).bind fun c => Pool.live c.tracks h with
  | some k => if k.holders.contains uid then .ok (slotOf h, k) else .error (handleTrap 3 role h)
  | none => .error (handleTrap 1 role h)

/-- The check of an o handle. -/
def State.rangeAt (s : State) (uid : Nat) (t : Team) (h : Handle) (role : Nat) : Except Trap (Nat × RangeObj) :=
  match (s.crews.find? t.crew).bind fun c => Pool.live c.ranges h with
  | some k => if k.holders.contains uid then .ok (slotOf h, k) else .error (handleTrap 3 role h)
  | none => .error (handleTrap 1 role h)

/-- The team may issue the instructions of R173. -/
def State.isProducer (s : State) (t : Team) : Bool := ((s.crews.find? t.crew).bind Crew.producer) == some t.index

/-- The trap of R173. -/
def noprodTrap : Trap := { cause := .noprod }

/-- A trap of majors 20 to 24 (R175); a WATCH keeps the layout of R147. -/
def Trap.engine (tr : Trap) (role lane : Nat) : Trap := if tr.cause = .watch then tr else { tr with info := engInfo 0 role lane }

/-- The uniform read of a record or descriptor, aligned to its size (R174 step 2); its bytes go to `use` as one
number. A WATCH here reports UNI (log entry 129). -/
def withRecord (s : State) (uid : Nat) (a : Word64) (log2 : Nat) (use : State → Nat → State) : State :=
  let x : Access := { addr := a.toNat, size := 2 ^ log2, log2 := log2, rd := true, wr := false, uni := true }
  match s.fetchLane uid x (.load (2 ^ log2)) false (fun s p => s.loadNat p (2 ^ log2)) use with
  | .done s' => s'
  | .trap tr => s.raise uid (tr.engine 1 0)
  | .wait s' => s'.modTeam uid Team.waits

/-- The field of `n` bytes at an offset of a record. -/
def field (r off n : Nat) : Nat := r / 2 ^ (8 * off) % 2 ^ (8 * n)

/-- The trap of a record whose fields break their limits. -/
def recordTrap (reason : Nat) : Trap := { cause := .obOob, info := engInfo reason 1 0 }

/-- The watchpoints that watch the engine operations issued now (R223). -/
def Team.engineWatches (t : Team) : Tbl Watch := t.link.watches.filter fun e => e.2.engine

end Sys2Proof.Machine
end

