-- ==== Sys2Proof/Machine/Sync.lean ====
section
/-! DEFINITION. The meanings of major 19: fences, barriers, waits (R160 to R169). -/

namespace Sys2Proof.Machine

/-- A uniform instruction that acts on the state: nothing but the next slot when its guard is false (R31, R32). -/
def uniOp (s : State) (g : Option Guard) (f : Nat → Team → State) : Out :=
  withTeam s fun uid t => if guardHolds t.regs g then f uid t else s.putTeam uid t.advance

/-- A uniform access of `n` bytes that the instruction makes itself: its value goes to `use`, then the next slot. -/
def uniAccess (s : State) (uid : Nat) (x : Access) (op : RemoteOp) (here : State → Place → Nat × State)
    (use : State → Nat → State) : State :=
  runLanes uid (0, false) (fun s _ => s.fetchLane uid x op false here use) (clearAnswers uid) [0] s 0

/-- fence (R160, R307, R311, R437, R438): at fabric scope a recorded failure is reported, and a release marks the fabric writes
that a later write must not overtake; an SC fence waits for all of them. Accesses here are performed in program order. -/
def execFence (g : Option Guard) (scope : Scope) (order : Order) (sc : Bool) (s : State) : Out :=
  uniOp s g fun uid t =>
    syncGate s uid t (scope == .fabric) sc <|
      if scope = .fabric ∧ orderReleases order then
        s.putTeam uid { t.advance with link := { t.link with fence := some t.eng.fabIssued } }
      else s.putTeam uid t.advance

/-- One arrival here: the old word, and the state after it. -/
def State.arriveHere (s : State) (expect : Word) (p : Place) : Nat × State :=
  let (v, s1) := s.loadNat p 4
  (v, s1.writeNat p 4 (barrierArrive (BitVec.ofNat 32 v) expect).toNat)

/-- The barrier record of an arrival. -/
def Team.recordArrival (t : Team) (a : Word64) (old : Nat) : Team :=
  { t with ctl := { t.ctl with barrier := some { addr := a, phase := barrierPhase (BitVec.ofNat 32 old) } } }

/-- bar.arrive (R162). -/
def execBarArrive (g : Option Guard) (a e : Nat) (s : State) : Out :=
  uniOp s g fun uid t =>
    uniAccess s uid (barAccess (t.regs.x a) true) (.barrier (t.regs.s e))
      (fun s p => s.arriveHere (t.regs.s e) p) fun s old => s.modTeam uid fun t => t.recordArrival (t.regs.x a) old

/-- The wait half of a barrier (R162): it returns at once, checked, where the record names another address. -/
def State.barWaitHalf (s : State) (uid : Nat) (a : Word64) : State :=
  let t := s.teamD uid
  if (t.ctl.barrier.map BarrierRec.addr) = some a then s.park uid (.barWait a)
  else
    match s.checkAccess t (barAccess a false) with
    | .error tr => s.raise uid tr
    | .ok _ => s.modTeam uid Team.advance

/-- bar.wait (R162). -/
def execBarWait (g : Option Guard) (a : Nat) (s : State) : Out :=
  uniOp s g fun uid t => s.barWaitHalf uid (t.regs.x a)

/-- bar.sync: arrive, then wait (R162). -/
def execBarSync (g : Option Guard) (a e : Nat) (s : State) : Out :=
  uniOp s g fun uid t =>
    let addr := t.regs.x a
    if t.ctl.arrived then s.barWaitHalf uid addr
    else
      match s.fetchLane uid (barAccess addr true) (.barrier (t.regs.s e)) false (fun s p => s.arriveHere (t.regs.s e) p)
        (fun s old => s.modTeam uid fun t =>
          let u := t.recordArrival addr old
          { u with ctl := { u.ctl with arrived := true } }) with
      | .done s' => s'.barWaitHalf uid addr
      | .trap tr => s.raise uid tr
      | .wait s' => s'.modTeam uid Team.waits

/-- The line that mon arms on an address, none where it cannot be reached (R164). -/
def State.monLine (s : State) (t : Team) (a : Nat) : Option (Nat × Nat) :=
  if inLocal a then
    if a - scrBase < ((s.crews.find? t.crew).map Crew.scratchBytes).getD 0 then s.lineOf (.scratch t.crew (a - scrBase)) else none
  else if inGlobal a || inFabric a then
    match lttFind (s.extentsOf t) t.link.pages (s.fnOf t) a 1 with
    | some (p, _) => s.lineOf (s.home (s.fnOf t) p)
    | none => none
  else none

/-- mon (R164). -/
def execMon (g : Option Guard) (a : Nat) (s : State) : Out :=
  uniOp s g fun uid t =>
    s.putTeam uid { t.advance with link := { t.link with
      monitor := (s.monLine t (t.regs.x a).toNat).map fun l => { line := l, hit := false } } }

/-- mwait (R164). -/
def execMwait (g : Option Guard) (s : State) : Out := uniOp s g fun uid _ => s.park uid .mwait

/-- A recorded fabric write failure that a waitc fabric covers (R166, R437). -/
def Team.faultCovered (t : Team) (n : Nat) : Option WriteFault :=
  match t.link.fabricFault with
  | some f => if f.idx + n ≤ t.eng.fabIssued ∨ f.idx = 0 then some f else none
  | none => none

/-- waitc (R166). -/
def execWaitc (g : Option Guard) (c : WaitClass) (n : Nat) (s : State) : Out :=
  uniOp s g fun uid t =>
    if c = .fabric ∧ t.counter c ≤ n then
      match t.faultCovered n with
      | some f => s.raise uid (writeFaultTrap f)
      | none => s.putTeam uid t.advance
    else s.park uid (.waitc c n)

/-- waitb (R167). -/
def execWaitb (g : Option Guard) (a : Nat) (s : State) : Out :=
  uniOp s g fun uid t => s.park uid (.waitb (t.regs.s a))

/-- yield (R168). -/
def execYield (g : Option Guard) (s : State) : Out :=
  uniOp s g fun uid t =>
    let s1 := s.putTeam uid t.advance
    match s.placeOf t with
    | some p => s1.rotate p
    | none => s1

/-- nflag.merge (R169). -/
def execNflagMerge (g : Option Guard) (a : Nat) (s : State) : Out :=
  uniOp s g fun uid t =>
    let base := (t.regs.x a).toNat
    let x : Access := { addr := (t.regs.x a + 8).toNat, size := 4, log2 := 2, rd := true, wr := true, uni := true }
    if base % 32 ≠ 0 then s.raise uid { cause := .align, addr := t.regs.x a, info := memInfo 0 true true 2 0 0 }
    else
      let f := t.regs.nflags &&& flagMask
      uniAccess s uid x (.merge f) (fun s p =>
        let (v, s1) := s.loadNat p 4
        (v, s1.writeNat p 4 (BitVec.ofNat 32 v ||| f).toNat)) fun s _ => s

end Sys2Proof.Machine
end

