-- ==== Sys2Proof/Machine/Copy.lean ====
section
/-! DEFINITION. The meanings of major 20: copies, gathers, batches, stamps (R173 to R182). -/

namespace Sys2Proof.Machine

/-- A copy descriptor (R176). -/
def copyDescOf (r : Nat) : CopyDesc :=
  { src := BitVec.ofNat 64 (field r 0 8), dst := BitVec.ofNat 64 (field r 8 8)
    count0 := field r 16 4, count1 := field r 20 4, count2 := field r 24 4
    esz := field r 28 4 % 4, op := field r 28 4 / 256 % 8
    sstr1 := BitVec.ofNat 64 (field r 32 8), sstr2 := BitVec.ofNat 64 (field r 40 8)
    dstr1 := BitVec.ofNat 64 (field r 48 8), dstr2 := BitVec.ofNat 64 (field r 56 8) }

/-- The fields of a descriptor keep to R176, R179 and R180. -/
def copyFieldsOk (kind : CopyKind) (r : Nat) : Bool :=
  let d := copyDescOf r
  let ctl := field r 28 4
  decide (d.count0 ≤ 2 ^ 24) && decide (d.count1 ≤ 2 ^ 24) && decide (d.count2 ≤ 2 ^ 24)
    && ctl == d.esz + 256 * d.op
    && match kind with
      | .red => (decide (d.op ≤ 5) && d.esz == 2) || (d.op == 6 && d.esz == 3)
      | .gather => d.op == 0 && d.count1 == 1 && d.count2 == 1 && d.sstr2 == 0 && d.dstr2 == 0
      | _ => d.op == 0

/-- The spaces a side of a copy may lie in (R177). -/
inductive SpaceNeed where
  | mem | scratch | any
deriving DecidableEq, Repr

/-- The spaces of source and destination. -/
def copySpaces : CopyKind → SpaceNeed × SpaceNeed
  | .g2s => (.mem, .scratch)
  | .s2g => (.scratch, .mem)
  | .g2g => (.mem, .mem)
  | .red => (.any, .mem)
  | _ => (.any, .any)

/-- The extent of a side: the place of its lowest byte, or the cause of its failure (R177). -/
def State.extentAt (s : State) (t : Team) (need : SpaceNeed) (low : Int) (span : Nat) (wr : Bool) : Except Cause Place :=
  let here := decide (0 ≤ low) && decide (low + span ≤ 2 ^ 64)
  match need with
  | .scratch => if here && inLocal low.toNat then s.resolve t low.toNat span wr else .error .scratchOob
  | .mem => if here && !inLocal low.toNat then s.resolve t low.toNat span wr else .error .lttMiss
  | .any =>
    if here then s.resolve t low.toNat span wr
    else if decide ((scrBase : Int) ≤ low) then .error .scratchOob else .error .lttMiss

/-- One side of a copy: its alignment, then its extent (R174 step 5, R177). -/
def State.checkSide (s : State) (t : Team) (need : SpaceNeed) (elem : Nat) (base : Word64) (strides : List Word64)
    (lowOff highOff : Int) (wr : Bool) (role lane : Nat) : Except Trap Side :=
  if (base :: strides).any fun x => x.toNat % elem != 0 then
    .error { cause := .align, addr := base, info := engInfo 0 role lane }
  else
    let low := (base.toNat : Int) + lowOff
    let span := (highOff - lowOff).toNat
    match s.extentAt t need low span wr with
    | .error c => .error { cause := c, addr := BitVec.ofInt 64 low, info := engInfo 0 role lane }
    | .ok p => .ok { low := low.toNat, place := s.home (s.fnOf t) p, span := span }

/-- Both sides of a plain copy or cp.red. -/
def State.copySides (s : State) (t : Team) (kind : CopyKind) (d : CopyDesc) : Except Trap (Side × Side) :=
  if d.empty then .ok ({}, {})
  else
    let ss := d.srcStrides
    let ds := d.dstStrides (kind == .tile)
    match s.checkSide t (copySpaces kind).1 d.elem d.src [d.sstr1, d.sstr2] (lowOffset ss d) (highOffset ss d) false 2 0 with
    | .error tr => .error tr
    | .ok a =>
      match s.checkSide t (copySpaces kind).2 d.elem d.dst [d.dstr1, d.dstr2] (lowOffset ds d) (highOffset ds d) true 3 0 with
      | .error tr => .error tr
      | .ok b => .ok (a, b)

/-- An operation with its snapshot, at its issue (R282, R312). -/
def State.atIssue (s : State) (crew : Nat) (o : CopyOp) : CopyOp × State :=
  let (sn, s1) := s.snapSources crew o.desc.elem (o.elems.map (·.1)) (s.snapshot crew)
  ({ o with snap := sn }, s1)

/-- A team's open batch gains an operation. -/
def Team.joinBatch (t : Team) (o : CopyOp) : Team := { t with eng := { t.eng with open_ := t.eng.open_ ++ [o] } }

/-- A copy instruction (R176 to R179, R181). -/
def copyOp (s : State) (g : Option Guard) (kind : CopyKind) (a : Nat) : Out :=
  uniOp s g fun uid t =>
    if !s.isProducer t then s.raise uid noprodTrap
    else if 1024 ≤ t.copies then s.park uid (.stall .copiesFull)
    else
      withRecord s uid (t.regs.x a) 6 fun s r =>
        let d := copyDescOf r
        if !copyFieldsOk kind r then s.raise uid (recordTrap 1)
        else
          match s.copySides t kind d with
          | .error tr => s.raise uid tr
          | .ok (src, dst) =>
            let (id, s1) := s.newUid
            let (o, s2) := s1.atIssue t.crew
              { id := id, kind := kind, desc := d, vpc := t.ctl.pc, src := src, dst := dst, watches := t.engineWatches }
            s2.modTeam uid fun t => (t.joinBatch o).advance

/-- cp.g2s (R177). -/
def execCpG2s (g : Option Guard) (a : Nat) (s : State) : Out := copyOp s g .g2s a
/-- cp.s2g (R177). -/
def execCpS2g (g : Option Guard) (a : Nat) (s : State) : Out := copyOp s g .s2g a
/-- cp.g2g (R177). -/
def execCpG2g (g : Option Guard) (a : Nat) (s : State) : Out := copyOp s g .g2g a
/-- cp.tile (R177). -/
def execCpTile (g : Option Guard) (a : Nat) (s : State) : Out := copyOp s g .tile a
/-- cp.red (R179). -/
def execCpRed (g : Option Guard) (a : Nat) (s : State) : Out := copyOp s g .red a

/-- The rows of a gather, lane by lane; the lowest lane whose row fails decides the trap (R180). -/
def State.gatherRows (s : State) (t : Team) (d : CopyDesc) (idx : Nat → Word) : List Nat → Except Trap (List GatherRow)
  | [] => .ok []
  | l :: ls =>
    let src := d.src + (idx l).setWidth 64 * d.sstr1
    let dst := d.dst + BitVec.ofNat 64 l * d.dstr1
    let span := d.count0 * d.elem
    if d.src.toNat % d.elem ≠ 0 ∨ d.sstr1.toNat % d.elem ≠ 0 then .error { cause := .align, addr := d.src, info := engInfo 0 2 l }
    else
      match s.extentAt t .any src.toNat span false with
      | .error c => .error { cause := c, addr := src, info := engInfo 0 2 l }
      | .ok p =>
        if d.dst.toNat % d.elem ≠ 0 ∨ d.dstr1.toNat % d.elem ≠ 0 then
          .error { cause := .align, addr := d.dst, info := engInfo 0 3 l }
        else
          match s.extentAt t .any dst.toNat span true with
          | .error c => .error { cause := c, addr := dst, info := engInfo 0 3 l }
          | .ok q =>
            match s.gatherRows t d idx ls with
            | .error tr => .error tr
            | .ok rest =>
              let v := s.fnOf t
              .ok ({ lane := l, srcAddr := src.toNat, dstAddr := dst.toNat, src := s.home v p, dst := s.home v q } :: rest)

/-- cp.gather: a lane instruction (R180), and a copy instruction, which 1,024 incomplete copies hold at issue (R181). -/
def execCpGather (g : Option Guard) (a b : Nat) (s : State) : Out :=
  withTeam s fun uid t =>
    let ls := maskLanes t.nlane (t.lanes g)
    if ls.isEmpty then s.putTeam uid t.advance
    else if !s.isProducer t then s.raise uid noprodTrap
    else if 8191 ≤ t.counter .gather then s.park uid (.stall (.counterFull .gather))
    else if 1024 ≤ t.copies then s.park uid (.stall .copiesFull)
    else
      withRecord s uid (t.regs.x a) 6 fun s r =>
        let d := copyDescOf r
        if !copyFieldsOk .gather r then s.raise uid (recordTrap 1)
        else
          match (if d.empty then .ok [] else s.gatherRows t d (t.regs.v b) ls) with
          | .error tr => s.raise uid tr
          | .ok rows =>
            let (id, s1) := s.newUid
            let (o, s2) := s1.atIssue t.crew
              { id := id, kind := .gather, desc := d, vpc := t.ctl.pc, rows := rows, watches := t.engineWatches }
            s2.modTeam uid fun t => { t.advance with eng := { t.eng with gathers := t.eng.gathers ++ [o] } }

/-- Close a team's open batch (R181). -/
def Team.closeBatch (t : Team) : Team :=
  { t with eng := { t.eng with
    open_ := []
    closed := t.eng.closed ++ [{ seq := t.eng.batches + 1, ops := t.eng.open_ }]
    batches := t.eng.batches + 1 } }

/-- cp.close (R181). -/
def execCpClose (g : Option Guard) (d : Nat) (s : State) : Out :=
  uniOp s g fun uid t =>
    if !s.isProducer t then s.raise uid noprodTrap
    else s.putTeam uid { t.closeBatch.advance with regs := t.regs.setS d (batchNumber (t.eng.batches + 1)) }

/-- cp.stamp (R182); at fabric scope it is a release, which reports a recorded failure (R437, R438), at the scratchpad
it acts at crew scope. -/
def execCpStamp (g : Option Guard) (a : Nat) (scope : Scope) (s : State) : Out :=
  uniOp s g fun uid t =>
    let addr := t.regs.x a
    if !s.isProducer t then s.raise uid noprodTrap
    else if addr.toNat % 8 ≠ 0 then s.raise uid { cause := .align, addr := addr, info := engInfo 0 4 0 }
    else
      match s.resolve t addr.toNat 8 true with
      | .error c => s.raise uid { cause := c, addr := addr, info := engInfo 0 4 0 }
      | .ok p =>
        syncGate s uid t (scope == .fabric && !p.inScratch) false <|
        let (id, s1) := s.newUid
        let st : Stamp := { id := id, addr := addr, place := s.home (s.fnOf t) p, vpc := t.ctl.pc, scope := scope
                            watches := t.engineWatches, upto := t.eng.batches, poison := t.eng.openPoison, err := t.eng.openErr
                            fab := t.eng.fabIssued }
        s1.putTeam uid { t.advance with
          eng := { t.eng with stamps := t.eng.stamps ++ [st], openPoison := false, openErr := false } }

end Sys2Proof.Machine
end

