-- ==== Sys2Proof/Machine/Track.lean ====
section
/-! DEFINITION. The meanings of major 21: tracks (R170 to R174, R183 to R186, R293), and how an advance applies. -/

namespace Sys2Proof.Machine

/-- Write P, C, DEPTH and STATE of a track's record (R183). -/
def State.writeTrackRecord (s : State) (crew : Nat) (k : TrackObj) : State :=
  s.writeNat (.scratch crew (k.addr.toNat - scrBase)) 16 k.record

/-- Replace a track's object. -/
def State.putTrack (s : State) (crew slot : Nat) (k : TrackObj) : State :=
  s.modCrew crew fun c => { c with tracks := c.tracks.modify slot fun x => { x with obj := some k } }

/-- Apply an advance to a track: P or C moves on, and the device writes the record, whose bytes then hold its values again (R183,
R184; log entry 125). -/
def State.applyAdvance (s : State) (crew slot : Nat) (producer : Bool) (n : Word) : State :=
  match s.track crew slot with
  | none => s
  | some k =>
    let k' := if producer then { k with p := k.p + n } else { k with c := k.c + n }
    (s.putTrack crew slot k').writeTrackRecord crew k'

/-- What an advance waits for is complete: the batches closed, or the matrix operations issued, before it (R184). -/
def Team.advanceDue (t : Team) (a : Advance) : Bool :=
  if a.producer then t.eng.closed.all fun x => decide (a.after < x.seq)
  else t.eng.mats.all fun m => decide (a.after < m.seq)

/-- trk.open (R171, R174, R183). -/
def execTrkOpen (g : Option Guard) (d a b : Nat) (s : State) : Out :=
  uniOp s g fun uid t =>
    let addr := t.regs.x a
    let x : Access := { addr := addr.toNat, size := 16, log2 := 4, rd := true, wr := false, uni := true }
    if addr.toNat % 16 ≠ 0 then s.raise uid ((x.trap .align 0 0).engine 1 0)
    else if !inLocal addr.toNat then s.raise uid ((x.trap .scratchOob 0 0).engine 1 0)
    else
      match s.checkAccess t x with
      | .error tr => s.raise uid (tr.engine 1 0)
      | .ok _ =>
        match s.crews.find? t.crew with
        | none => s
        | some c =>
          let give (s : State) (p : Pool TrackObj) (slot : Nat) : State :=
            s.modTeam uid fun t => { t.advance with regs := { t.regs with hk := t.regs.hk.set 0 d (Pool.handle p slot) } }
          match (Pool.slots c.tracks fun k => k.addr == addr).head? with
          | some slot =>
            let join (k : TrackObj) : TrackObj := if k.holders.contains uid then k else { k with holders := k.holders ++ [uid] }
            let l := c.tracks.modify slot fun y => { y with obj := y.obj.map join }
            give (s.modCrew t.crew fun c => { c with tracks := l }) c.tracks slot
          | none =>
            let depth := (t.regs.s b).toNat
            if depth = 0 ∨ 32768 < depth then s.raise uid { cause := .obOob, info := engInfo 1 0 0 }
            else
              let limit := min 16 (((s.kernelOf t).map Kernel.tracks).getD 0)
              match Pool.lowest c.tracks 16 with
              | none => s.raise uid noSlotTrap
              | some slot =>
                if limit ≤ Pool.count c.tracks then s.raise uid noSlotTrap
                else
                  let k : TrackObj := { addr := addr, depth := depth, holders := [uid] }
                  give ((s.modCrew t.crew fun c => { c with tracks := Pool.put c.tracks slot k }).writeTrackRecord t.crew k)
                    c.tracks slot

/-- An instruction that names a track by the handle in `a`, checked (R171). -/
def withTrack (s : State) (g : Option Guard) (a : Nat) (producer : Bool) (f : Nat → Team → Nat → TrackObj → State) : Out :=
  uniOp s g fun uid t =>
    match s.trackAt uid t (t.regs.hk.get 0 a) 6 with
    | .error tr => s.raise uid tr
    | .ok (slot, k) => if producer && !s.isProducer t then s.raise uid noprodTrap else f uid t slot k

/-- trk.wfill (R184, R185). -/
def execTrkWfill (g : Option Guard) (a b : Nat) (s : State) : Out :=
  withTrack s g a false fun uid t slot k =>
    let n := (t.regs.s b).toNat
    if k.depth < n then s.raise uid (trackTrap k 1) else s.park uid (.trkWfill slot n)

/-- trk.wfree (R184, R185). -/
def execTrkWfree (g : Option Guard) (a b : Nat) (s : State) : Out :=
  withTrack s g a true fun uid t slot k =>
    let n := (t.regs.s b).toNat
    if k.depth < n then s.raise uid (trackTrap k 1) else s.park uid (.trkWfree slot n)

/-- Hold an advance pending, or apply it at once when nothing stands before it (R184). -/
def State.advanceTrack (s : State) (uid : Nat) (t : Team) (a : Advance) : State :=
  if t.advanceDue a && !(t.eng.advances.any fun x => x.slot == a.slot) then
    ((s.applyAdvance t.crew a.slot a.producer a.n).modTeam uid Team.advance).checkDeadlock t.crew
  else s.putTeam uid { t.advance with eng := { t.eng with advances := t.eng.advances ++ [a] } }

/-- trk.adv.p (R184, R185). -/
def execTrkAdvP (g : Option Guard) (a b : Nat) (s : State) : Out :=
  withTrack s g a true fun uid t slot k =>
    let n := t.regs.s b
    if k.free (t.pending slot true) < n.toNat then s.raise uid (trackTrap k 2)
    else s.advanceTrack uid t { slot := slot, producer := true, n := n, after := t.eng.batches }

/-- trk.adv.c (R184, R185). -/
def execTrkAdvC (g : Option Guard) (a b : Nat) (s : State) : Out :=
  withTrack s g a false fun uid t slot k =>
    let n := t.regs.s b
    if (k.fill : Int) - (t.pending slot false).toNat < n.toNat then s.raise uid (trackTrap k 3)
    else s.advanceTrack uid t { slot := slot, producer := false, n := n, after := t.eng.matLast }

/-- trk.close (R172, R186). -/
def execTrkClose (g : Option Guard) (a : Nat) (s : State) : Out :=
  withTrack s g a false fun uid _ slot _ => s.park uid (.trkClose slot)

/-- trk.state (R186). -/
def execTrkState (g : Option Guard) (d a : Nat) (s : State) : Out :=
  withTrack s g a false fun uid t slot k =>
    let w := BitVec.ofNat 32 (k.fill % 65536 + (k.free (t.pending slot true)).toNat % 65536 * 65536)
    s.putTeam uid { t.advance with regs := t.regs.setS d w }

end Sys2Proof.Machine
end

