-- ==== Sys2Proof/Machine/OperandBuf.lean ====
section
/-! DEFINITION. The meanings of major 22: operand ranges (R187 to R189). -/

namespace Sys2Proof.Machine

/-- The object of a range record. -/
def rangeOf (addr : Word64) (uid r : Nat) : RangeObj :=
  { addr := addr, base := field r 0 4, length := field r 4 4, format := field r 8 1, ctl := field r 9 1, soff := field r 12 4
    holders := [uid] }

/-- The fields of a range record keep to R187. -/
def rangeFieldsOk (r : Nat) : Bool :=
  let base := field r 0 4
  let len := field r 4 4
  let fmt := field r 8 1
  let ctl := field r 9 1
  let soff := field r 12 4
  let block := ctl % 4
  let osh := ctl / 4 % 8
  base % 64 == 0 && len % 64 == 0 && decide (64 ≤ len) && decide (len ≤ 262144) && decide (fmt < 6) && decide (ctl < 64)
    && field r 10 2 == 0 && (block == 0 || decide (fmt < 3)) && (fmt != 2 || block != 0) && (osh == 0 || fmt == 2)
    && decide (soff < len) && (block != 0 || soff == 0)

/-- ob.rsv (R171, R187). -/
def execObRsv (g : Option Guard) (d a : Nat) (s : State) : Out :=
  uniOp s g fun uid t =>
    let addr := t.regs.x a
    if addr.toNat % 16 = 0 ∧ inFabric addr.toNat then s.raise uid { cause := .lttMiss, addr := addr, info := engInfo 0 1 0 }
    else
      withRecord s uid addr 4 fun s r =>
        match s.crews.find? t.crew with
        | none => s
        | some c =>
          let give (s : State) (slot : Nat) : State :=
            s.modTeam uid fun t => { t.advance with regs := { t.regs with ho := t.regs.ho.set 0 d (Pool.handle c.ranges slot) } }
          match (Pool.slots c.ranges fun k => k.addr == addr).head? with
          | some slot =>
            let join (k : RangeObj) : RangeObj := if k.holders.contains uid then k else { k with holders := k.holders ++ [uid] }
            let l := c.ranges.modify slot fun y => { y with obj := y.obj.map join }
            give (s.modCrew t.crew fun c => { c with ranges := l }) slot
          | none =>
            let o := rangeOf addr uid r
            if !rangeFieldsOk r then s.raise uid (recordTrap 1)
            else if c.nteam * 65536 < o.base + o.length then s.raise uid (recordTrap 2)
            else
              let limit := min 32 (((s.kernelOf t).map Kernel.ranges).getD 0)
              match Pool.lowest c.ranges 32 with
              | none => s.raise uid noSlotTrap
              | some slot =>
                if limit ≤ Pool.count c.ranges then s.raise uid noSlotTrap
                else give (s.modCrew t.crew fun c => { c with ranges := Pool.put c.ranges slot o }) slot

/-- An instruction that names a range by the handle in `a`, checked (R171). -/
def withRange (s : State) (g : Option Guard) (a : Nat) (f : Nat → Team → Nat → RangeObj → State) : Out :=
  uniOp s g fun uid t =>
    match s.rangeAt uid t (t.regs.ho.get 0 a) 6 with
    | .error tr => s.raise uid tr
    | .ok (slot, r) => f uid t slot r

/-- ob.rel (R172, R188). -/
def execObRel (g : Option Guard) (a : Nat) (s : State) : Out :=
  withRange s g a fun uid _ slot _ => s.park uid (.obRel slot)

/-- ob.fill: bytes go to the range as they stand (R188, R269). It counts among the 1,024 copies and fills, and stalls as the next
copy instruction does when they are reached: the model's reading of R181 (log entry 101). -/
def execObFill (g : Option Guard) (a b : Nat) (s : State) : Out :=
  withRange s g a fun uid t slot r =>
    let src := t.regs.x b
    if !s.isProducer t then s.raise uid noprodTrap
    else if 1024 ≤ t.copies then s.park uid (.stall .copiesFull)
    else if src.toNat % 64 ≠ 0 then s.raise uid { cause := .align, addr := src, info := engInfo 0 2 0 }
    else
      match s.extentAt t .any src.toNat r.length false with
      | .error c => s.raise uid { cause := c, addr := src, info := engInfo 0 2 0 }
      | .ok p =>
        let (id, s1) := s.newUid
        let d : CopyDesc := { src := src, dst := 0, count0 := r.length, count1 := 1, count2 := 1, esz := 0, op := 0
                              sstr1 := 0, sstr2 := 0, dstr1 := 0, dstr2 := 0 }
        let (o, s2) := s1.atIssue t.crew
          { id := id, kind := .fill, desc := d, vpc := t.ctl.pc, range := some slot
            src := { low := src.toNat, place := s.home (s.fnOf t) p, span := r.length }
            dst := { low := 0, place := .window t.crew r.base, span := r.length }
            watches := t.engineWatches }
        s2.putTeam uid (t.joinBatch o).advance

/-- ob.info (R188). -/
def execObInfo (g : Option Guard) (d a : Nat) (s : State) : Out :=
  withRange s g a fun uid t _ r =>
    let w := BitVec.ofNat 64 (r.base % 2 ^ 20 + r.length % 2 ^ 20 * 2 ^ 20 + r.format * 2 ^ 40 + r.ctl * 2 ^ 48)
    s.putTeam uid { t.advance with regs := t.regs.setX d w }

end Sys2Proof.Machine
end

