-- ==== Sys2Proof/Machine/Stops.lean ====
section
/-! DEFINITION. Which engine operation may go on, what stands in flight when a team stops, the end of parks, and stopping for
good (R181, R182, R204, R226, R235 to R238, R263, R273, R280, R281, R336, R338). -/

namespace Sys2Proof.Machine

/-! ### What may go on -/

/-- Two operations write a byte in common. -/
def CopyOp.meets (o q : CopyOp) : Bool :=
  o.elems.any fun e => (List.range o.desc.elem).any fun k => q.writes (e.2.add k)

/-- The engine may perform an operation of a batch: it chooses the order, but one that writes bytes of an earlier one follows it
(R280, R281). -/
def Engines.copyDue (e : Engines) (o : CopyOp) : Bool :=
  (e.batchOps.takeWhile fun q => q.id != o.id).all fun q => q.done || !o.meets q

/-- A stamp may be written: every batch that it covers is complete, and every access of the team before it (R182). -/
def Engines.stampDue (e : Engines) (m : Stamp) : Bool :=
  m.susp.isNone && !m.sent && (e.closed.all fun b => decide (m.upto < b.seq))
    && e.fabric.all fun o => decide (m.fab < o.idx) || o.pending == 0

/-- Every earlier operation of the team on the operation's array has been performed, or has read it (R273); an acc.st that has
read it depends on none. -/
def Team.matDue (t : Team) (m : MatOp) : Bool :=
  m.read.isSome ||
    match t.matsOn m.array with
    | x :: _ => x.seq == m.seq
    | [] => false

/-! ### What stands in flight (R237, R338) -/

/-- What a team has issued is complete, but for operations suspended on a watchpoint and those that these hold; stamps are written
in their order, so that the oldest holds the rest. -/
def Team.quiet (t : Team) : Bool :=
  (t.eng.batchOps.all fun o => o.done || o.susp.isSome || !t.eng.copyDue o)
    && (match t.eng.closed with
      | [] => true
      | b :: _ => !b.ops.all fun o => o.done)
    && (t.eng.gathers.all fun o => o.done || o.susp.isSome)
    && (t.eng.mats.all fun m => m.done || m.susp.isSome || !t.matDue m)
    && match t.eng.stamps with
      | [] => true
      | m :: _ => m.susp.isSome || (!m.sent && !t.eng.stampDue m)

/-- A team has stopped: it has retired, is parked, or stands at its safe point. -/
def Team.stands (t : Team) : Bool :=
  match t.status with
  | .runnable => t.link.stopped
  | .waiting => false
  | _ => true

/-! ### Stopping for good (R226) -/

/-- Stop a team for good; it retires at once if its work is complete. -/
def State.haltTeam (s : State) (uid : Nat) (t : Team) : State :=
  let s3 := s.standDown uid t
  match s3.teams.find? uid with
  | some u => if s3.exitReady uid u then s3.retireTeam uid else s3
  | none => s3

/-- Stop a crew for good: one that is saved, or whose teams wait for its overlays, goes at once; of another, the teams that stand
at safe points retire, and the rest at their next ones. -/
def State.haltCrew (s : State) (c : Nat) (cr : Crew) (issuer : Option Nat) : State :=
  if cr.live then
    let s1 := s.modCrew c fun x => { x with status := .running }
    (s1.teamsOf c).foldl (fun s e =>
      if e.2.status = .retired then s
      else if e.2.stands || some e.1 == issuer then s.haltTeam e.1 e.2
      else s) s1
  else s.tearCrew c 6

/-- halt of a launch: STATUS 3 unless a kill came first, and every crew stopped (R226). -/
def State.haltLaunch (s : State) (id : Nat) (issuer : Option Nat) : State :=
  let s1 := s.modLaunch id fun l => { l with halted := true, status := if l.status = 0 then 3 else l.status }
  (s1.crewsOf id).foldl (fun s e => s.haltCrew e.1 e.2 issuer) s1

/-- A team that could issue comes to a safe point, or not yet (R226, R237, R263): in a crew that is to stop it stops there, in a
launch that has been halted it stops for good. -/
def State.safePoint (s : State) (uid : Nat) (t : Team) : State :=
  if t.status = .runnable && (s.crewStops t || s.launchHalted t) then
    let (b, s1) := s.takeBool
    if !b then s1
    else if s1.launchHalted t then s1.haltTeam uid t
    else s1.putTeam uid (s1.atSafePoint t)
  else s

/-- The team that a sub-core would issue from comes to its safe point, or not yet. -/
def State.safePointAt (s : State) (p : Nat × Nat) : State :=
  match s.selectAt p with
  | some (uid, t) => s.safePoint uid t
  | none => s

/-! ### The end of parks (R235, R236) -/

/-- A parked team goes on when its condition holds, or stops for good where its launch has been halted. -/
def State.tryWake (s : State) (uid : Nat) (t : Team) (p : Park) : State :=
  if s.launchHalted t && p != .exit then s.haltTeam uid t
  else if p = .mwait then s.endPark uid .mwait
  else
    match s.tryPark uid t p with
    | .pass s1 => s1.endPark uid p
    | .trap tr => s.raise uid tr
    | .wait s1 => s1

/-- The crew has been evicted. -/
def State.evictedCrew (s : State) (c : Nat) : Bool := ((s.crews.find? c).map Crew.status) == some (.saved .evict)

/-- A write of another package has landed on the line of another node that a team of an evicted crew monitors (R164, R238). -/
def State.hearEvicted (s : State) (uid : Nat) (t : Team) : State :=
  match t.link.monitor with
  | some m => if m.line.1 = 2 then s.modTeam uid fun t => { t with link := { t.link with monitor := some { m with hit := true } } } else s
  | none => s

/-- PARK_WAKE: a parked team of a crew that runs looks whether its wait is over (R235, R236); a monitored line may leave the L1 at
any time (R164). A team of an evicted crew only looks at its object, or learns that another package has written to its line of
another node (R238). -/
def execParkWake (uid : Nat) (s : State) : Out :=
  .next <|
    match s.teams.find? uid with
    | none => s
    | some t =>
      match t.status with
      | .parked p =>
        if s.crewRuns t then s.tryWake uid t p
        else
          match p with
          | .cjoin a => if s.evictedCrew t.crew then s.pollEvicted uid t a else s
          | .mwait => if s.evictedCrew t.crew then s.hearEvicted uid t else s
          | _ => s
      | _ => s

end Sys2Proof.Machine
end

