-- ==== Sys2Proof/Machine/Matrix.lean ====
section
/-! DEFINITION. The meanings of majors 23 and 24: geometry, matrix operations, accumulator arrays (R190 to R198, R267, R273). -/

namespace Sys2Proof.Machine

/-- The geometry of a record (R190). -/
def geometryOf (r : Nat) : Geometry :=
  { k := field r 0 2, nt := field r 2 2, unfold := field r 4 1 == 1, astr := field r 8 4, bstr := field r 12 4
    h := field r 16 2, w := field r 18 2, c := field r 20 2, kh := field r 22 1, kw := field r 23 1
    stride := field r 24 1, pad := field r 25 1, ow := field r 26 2 }

/-- The fields of a geometry record keep to R190. -/
def geometryOk (r : Nat) : Bool :=
  let g := geometryOf r
  decide (1 ≤ g.k) && decide (1 ≤ g.nt) && decide (g.nt ≤ 128) && decide (field r 4 1 ≤ 1) && field r 5 3 == 0 && field r 28 4 == 0
    && (if g.unfold then
          g.astr == 0 && decide (1 ≤ g.stride) && decide (g.stride ≤ 8) && decide (g.pad ≤ 7) && g.k == g.kh * g.kw * g.c
            && decide (g.kh ≤ g.h + 2 * g.pad) && decide (1 ≤ g.ow)
        else field r 16 12 == 0)

/-- unf.cfg (R190). -/
def execUnfCfg (g : Option Guard) (a : Nat) (s : State) : Out :=
  uniOp s g fun uid t =>
    withRecord s uid (t.regs.x a) 5 fun s r =>
      if !geometryOk r then s.raise uid (recordTrap 1)
      else s.modTeam uid fun t => { t.advance with eng := { t.eng with geom := some (geometryOf r) } }

/-- A trap of the matrix instructions that names no address. -/
def matTrap (c : Cause) (reason role lane : Nat) : Trap := { cause := c, info := engInfo reason role lane }

/-- Quarters of a team. -/
def Team.quarters (t : Team) : Nat := (t.nlane + 7) / 8

/-- Elements of an array of a team (R194). -/
def Team.arrayLen (t : Team) (a : ArrayObj) : Nat := 256 * a.n * t.quarters

/-- Tiles that a team's arrays take. -/
def Team.tilesUsed (t : Team) : Nat :=
  t.eng.arrays.foldl (fun n e => n + match e.2.obj with
    | some a => a.n * t.quarters
    | none => 0) 0

/-- acc.alloc (R174, R194). -/
def execAccAlloc (g : Option Guard) (d a : Nat) (s : State) : Out :=
  uniOp s g fun uid t =>
    let n := (t.regs.s a).toNat
    match Pool.lowest t.eng.arrays 64 with
    | none => s.raise uid noSlotTrap
    | some slot =>
      if n = 0 ∨ 128 < n ∨ 128 < t.tilesUsed + n * t.quarters then s.raise uid (matTrap .accOob 1 0 0)
      else s.putTeam uid { t.advance with
        eng := { t.eng with arrays := Pool.put t.eng.arrays slot { n := n } }
        regs := { t.regs with ha := t.regs.ha.set 0 d (Pool.handle t.eng.arrays slot) } }

/-- acc.free (R172, R194). -/
def execAccFree (g : Option Guard) (a : Nat) (s : State) : Out :=
  uniOp s g fun uid t =>
    match t.arrayAt (t.regs.ha.get 0 a) 6 with
    | .error tr => s.raise uid tr
    | .ok (slot, _) => s.park uid (.accFree slot)

/-- Bytes of `k` elements of a format. -/
def formatBytes (fmt k : Nat) : Nat := (k * formatBits fmt + 7) / 8

/-- The bytes of rows of a range, and the scales they need, lie within it (R192 step 5). -/
def RangeObj.holdsRows (r : RangeObj) (rows stride k : Nat) : Bool :=
  decide ((rows - 1) * stride + formatBytes r.format k ≤ r.length) &&
    (r.block == 0 || decide (r.soff + rows * blocksOf k r.block ≤ r.length))

/-- The checks of R192, in order: none when they pass. -/
def mmaCheck (g : Option Geometry) (ra rb : RangeObj) (n qmax : Nat) : Option Trap :=
  match g with
  | none => some (matTrap .obOob 6 0 0)
  | some g =>
    if (pairChunk ra.format rb.format).isNone then some (matTrap .obOob 3 0 0)
    else if n < g.nt then some (matTrap .accOob 2 5 0)
    else if g.unfold && (ra.format == 2 || ra.block != 0) then some (matTrap .obOob 5 6 0)
    else if !(if g.unfold then decide (formatBytes ra.format (g.h * g.w * g.c) ≤ ra.length)
              else ra.holdsRows (8 * qmax + 8) g.astr g.k) then some (matTrap .obOob 4 6 0)
    else if !(rb.holdsRows (32 * g.nt) g.bstr g.k) then some (matTrap .obOob 4 7 0)
    else none

/-- The queue of R267 or the counter of R165 is full: what the instruction stalls for. -/
def Team.matrixStall (t : Team) : Option Stall :=
  if 8191 ≤ t.counter .matrix then some (.counterFull .matrix)
  else if 16 ≤ t.queued then some .matrixFull
  else none

/-- Issue a matrix operation on an array (R193); an acc.st on an array whose reported operation waits for a tret has read it at
once (R337). -/
def State.issueMat (s : State) (uid : Nat) (slot : Nat) (kind : MatKind) (read : Option ArrayObj) : State :=
  let (id, s1) := s.newUid
  s1.modTeam uid fun t =>
    let m : MatOp := { seq := id, array := slot, gen := Pool.gen t.eng.arrays slot, kind := kind, vpc := t.ctl.pc,
                       snap := s.snapshot t.crew, watches := t.engineWatches
                       read := read }
    { t.advance with eng := { t.eng with mats := t.eng.mats ++ [m], matLast := id } }

/-- The highest quarter with a lane in a mask. -/
def topQuarter (nl : Nat) (m : Mask) : Nat := (activeQuarters nl m).foldl max 0

/-- mma and mma.z: handles in the order D, A, B, then the checks of R192. -/
def mmaOp (s : State) (g : Option Guard) (zero : Bool) (d a b : Nat) : Out :=
  withTeam s fun uid t =>
    let m := t.lanes g
    if (maskLanes t.nlane m).isEmpty then s.putTeam uid t.advance
    else
      match t.arrayAt (t.regs.ha.get 0 d) 5 with
      | .error tr => s.raise uid tr
      | .ok (slot, arr) =>
        match s.rangeAt uid t (t.regs.ho.get 0 a) 6 with
        | .error tr => s.raise uid tr
        | .ok (sa, ra) =>
          match s.rangeAt uid t (t.regs.ho.get 0 b) 7 with
          | .error tr => s.raise uid tr
          | .ok (sb, rb) =>
            match t.matrixStall with
            | some w => s.park uid (.stall w)
            | none =>
              match mmaCheck t.eng.geom ra rb arr.n (topQuarter t.nlane m), t.eng.geom with
              | some tr, _ => s.raise uid tr
              | none, some geom => s.issueMat uid slot (.mma zero ra rb sa sb geom m) none
              | none, none => s

/-- mma (R192). -/
def execMma (g : Option Guard) (d a b : Nat) (s : State) : Out := mmaOp s g false d a b
/-- mma.z (R192). -/
def execMmaZ (g : Option Guard) (d a b : Nat) (s : State) : Out := mmaOp s g true d a b

/-! ### Accumulator instructions (R195, R196) -/

/-- Replace an array's object. -/
def Team.putArray (t : Team) (slot : Nat) (a : ArrayObj) : Team :=
  { t with eng := { t.eng with arrays := t.eng.arrays.modify slot fun x => { x with obj := some a } } }

/-- An instruction of major 24 on the array that `a` names: its handle, its wait for the engine (R195, R273), then `f`. -/
def State.onArray (s : State) (uid : Nat) (t : Team) (a role : Nat) (f : Nat → ArrayObj → State) : State :=
  match t.arrayAt (t.regs.ha.get 0 a) role with
  | .error tr => s.raise uid tr
  | .ok (slot, arr) => if t.arrayBusy slot then s.park uid (.stall (.arrayBusy slot)) else f slot arr

/-- The watchpoint covers element `i` of an array in a direction (R223, R362). -/
def Watch.hitsElem (w : Watch) (slot gen i : Nat) (rd wr : Bool) : Bool :=
  w.array == some (slot, gen) && decide (w.base ≤ i) && decide (i < w.base + w.length) && ((w.read && rd) || (w.write && wr))

/-- The watchpoint that an access of an element meets, the lowest-numbered one. -/
def Team.elemWatch (t : Team) (slot lane i : Nat) (rd wr : Bool) : Option Nat :=
  if t.exempts lane i then none
  else (List.find? (fun e => e.2.hitsElem slot (Pool.gen t.eng.arrays slot) i rd wr) t.link.watches).map (·.1)

/-- The WATCH of an element; UNI is 0 (log entry 129). -/
def elemTrap (lane i watch : Nat) (wr : Bool) : Trap :=
  { cause := .watch, addr := BitVec.ofNat 64 i, info := memInfo lane false wr 2 watch 0 }

/-- The lanes whose elements are still to be held to the watchpoints: all, or those after the access that a tret exempts
(R221, R363). -/
def Team.unwatched (t : Team) (idx : Nat → Nat) (ls : List Nat) : List Nat :=
  match List.find? (fun l => t.exempts l (idx l)) ls with
  | some k => ls.filter fun l => decide (k < l)
  | none => ls

/-- The first lane whose element index lies beyond the array, or else the first whose element is watched (R174, R196). -/
def Team.elemCheck (t : Team) (slot len : Nat) (idx : Nat → Nat) (wr : Bool) (ls : List Nat) : Option Trap :=
  match List.find? (fun l => decide (len ≤ idx l)) ls with
  | some l => some (matTrap .accOob 3 0 l)
  | none =>
    match List.find? (fun l => (t.elemWatch slot l (idx l) (!wr) wr).isSome) (t.unwatched idx ls) with
    | some l => (t.elemWatch slot l (idx l) (!wr) wr).map fun n => elemTrap l (idx l) n wr
    | none => none

/-- acc.rd: a lane instruction (R196). -/
def execAccRd (g : Option Guard) (d a b : Nat) (s : State) : Out :=
  withTeam s fun uid t =>
    let m := t.lanes g
    let ls := maskLanes t.nlane m
    if ls.isEmpty then s.putTeam uid t.advance
    else
      s.onArray uid t a 6 fun slot arr =>
        match t.elemCheck slot (t.arrayLen arr) (fun l => (t.regs.v b l).toNat) false ls with
        | some tr => s.raise uid tr
        | none => s.putTeam uid { t.advance with
            regs := t.regs.setV d t.nlane m fun l => arr.elems.get 0 (t.regs.v b l).toNat }

/-- Write the elements that lanes name; where lanes name one element, one of their values stays, and which is free. -/
def accWrites (idx : Nat → Nat) (val : Nat → Word) (s : State) (elems : Tbl Word) (seen : List Nat) : List Nat → State × Tbl Word
  | [] => (s, elems)
  | l :: ls =>
    let (keep, s1) := if seen.contains (idx l) then s.takeBool else (true, s)
    accWrites idx val s1 (if keep then elems.set 0 (idx l) (val l) else elems) (idx l :: seen) ls

/-- acc.wr: a lane instruction (R196). -/
def execAccWr (g : Option Guard) (d a b : Nat) (s : State) : Out :=
  withTeam s fun uid t =>
    let ls := maskLanes t.nlane (t.lanes g)
    if ls.isEmpty then s.putTeam uid t.advance
    else
      s.onArray uid t a 6 fun slot arr =>
        match t.elemCheck slot (t.arrayLen arr) (fun l => (t.regs.v b l).toNat) true ls with
        | some tr => s.raise uid tr
        | none =>
          let (s1, e) := accWrites (fun l => (t.regs.v b l).toNat) (t.regs.v d) s arr.elems [] ls
          s1.putTeam uid (t.putArray slot { arr with elems := e }).advance

/-- The watchpoint covers an element of an array for writing: the lowest such element from `i` on. -/
def Watch.firstFrom (w : Watch) (slot gen len i : Nat) : Option Nat :=
  let e := max i w.base
  if w.write && w.array == some (slot, gen) && decide (e < w.base + w.length) && decide (e < len) then some e else none

/-- The lowest element of an array that acc.zero meets watched (R362). Past the access that a tret exempts, the watchpoint that it
reported is over while it stays armed as it was, and the others watch the elements after it (R221, R363). -/
def Team.zeroWatch (t : Team) (slot len : Nat) : Option Nat :=
  let gen := Pool.gen t.eng.arrays slot
  let past : Nat × Option (Nat × Watch) := match t.ctl.exempt with
    | some e => if e.vpc == t.ctl.pc && e.lane == 0 then (e.addr.toNat + 1, e.watch) else (0, none)
    | none => (0, none)
  (t.link.watches.filterMap fun e => if some e = past.2 then none else e.2.firstFrom slot gen len past.1).foldl
    (fun a x => some (match a with
      | none => x
      | some y => min x y)) none

/-- acc.zero (R196, R362). -/
def execAccZero (g : Option Guard) (a : Nat) (s : State) : Out :=
  uniOp s g fun uid t =>
    s.onArray uid t a 6 fun slot arr =>
      match t.zeroWatch slot (t.arrayLen arr) with
      | some i => s.raise uid (elemTrap 0 i ((t.elemWatch slot 0 i false true).getD 0) true)
      | none => s.putTeam uid (t.putArray slot { arr with elems := [] }).advance

/-- acc.patch (R196). -/
def execAccPatch (g : Option Guard) (d a b : Nat) (s : State) : Out :=
  uniOp s g fun uid t =>
    s.onArray uid t a 6 fun slot arr =>
      let i := (t.regs.s b).toNat
      if t.arrayLen arr ≤ i then s.raise uid (matTrap .accOob 3 0 0)
      else
        match t.elemWatch slot 0 i false true with
        | some n => s.raise uid (elemTrap 0 i n true)
        | none => s.putTeam uid (t.putArray slot { arr with elems := arr.elems.set 0 i (t.regs.s d) }).advance

/-- acc.flags (R196). -/
def execAccFlags (g : Option Guard) (d a : Nat) (s : State) : Out :=
  uniOp s g fun uid t =>
    s.onArray uid t a 6 fun slot arr =>
      if t.flagsBusy slot then s.park uid (.stall (.flagsBusy slot))
      else s.putTeam uid { (t.putArray slot { arr with flags := 0 }).advance with regs := t.regs.setS d arr.flags }

/-- The draws of a lane for a row of `n` columns, and the generator state after them (R198). -/
def rowDraws : Nat → Word → List Word × Word
  | 0, st => ([], st)
  | n + 1, st =>
    let x := srNext st
    let r := rowDraws n (srStore x)
    (x :: r.1, r.2)

/-- The draws of all rows below NLANE, and the registers after them. -/
def allDraws (cols : Nat) : List Nat → Regs → List Word × Regs
  | [], r => ([], r)
  | l :: ls, r =>
    let x := rowDraws cols (r.sr l)
    let y := allDraws cols ls (r.setSr l x.2)
    (x.1 ++ y.1, y.2)

/-- What an acc.st issued now has read already: the array as a reported operation on it left it (R337). -/
def Team.readNow (t : Team) (slot : Nat) (arr : ArrayObj) : Option ArrayObj := if (t.matsOn slot).isEmpty then none else some arr

/-- acc.st (R197, R198). -/
def execAccSt (g : Option Guard) (d a b : Nat) (s : State) : Out :=
  uniOp s g fun uid t =>
    s.onArray uid t a 6 fun slot arr =>
      let ctl := t.regs.s b
      let dst := t.regs.x d
      let span := accStSpan arr.n t.quarters ctl
      match t.matrixStall with
      | some w => s.park uid (.stall w)
      | none =>
        if !stCtlOk ctl (32 * arr.n) then s.raise uid (matTrap .accOob 4 0 0)
        else if dst.toNat % 16 ≠ 0 then s.raise uid { cause := .align, addr := dst, info := engInfo 0 3 0 }
        else
          match s.extentAt t .any dst.toNat span true with
          | .error c => s.raise uid { cause := c, addr := dst, info := engInfo 0 3 0 }
          | .ok p =>
            let r := if stRnd ctl = 2 then allDraws (32 * arr.n) (lanesBelow t.nlane) t.regs else ([], t.regs)
            (s.issueMat uid slot (.accSt { low := dst.toNat, place := s.home (s.fnOf t) p, span := span } ctl r.1)
              (t.readNow slot arr)).modTeam uid fun t => { t with regs := r.2 }

end Sys2Proof.Machine
end

