-- ==== Sys2Proof/Machine/Control.lean ====
section
/-! DEFINITION. The meanings of major 25: branches, calls, divergence frames, exit (R19, R199 to R204), and of an illegal
encoding (R36 to R38). -/

namespace Sys2Proof.Machine

/-! ### Targets and returns -/

/-- A relative target: quads from the quad that holds the branch (R28). -/
def branchTarget (pc : Nat) (off : BitVec 19) : Nat := (BitVec.ofNat 64 (pc / 16 * 16) + off.signExtend 64 * 16).toNat

/-- The condition holds in every lane of the active mask (R200). -/
def Team.allLanes (t : Team) (c : Guard) : Bool := t.ctl.active &&& ~~~(guardLanes t.regs (some c)) == 0

/-- A return entry for the instruction at the pc (R19, R201). -/
def Team.returnEntry (t : Team) : ReturnEntry := { addr := t.ctl.pc + 4, bank := t.ctl.bank, depth := t.ctl.frames.length }

/-- Push a return entry and go to an address with a bank, or CSTK when 64 entries are held (R201, R203). -/
def State.callTo (s : State) (uid : Nat) (t : Team) (bank : Bank) (a : Nat) : State :=
  if 64 ≤ t.ctl.returns.length then s.raise uid { cause := .cstk, info := 1 }
  else s.putTeam uid ({ t with ctl := { t.ctl with returns := t.returnEntry :: t.ctl.returns, bank := bank } }.goto a)

/-- The ALIGN trap of a control transfer (R58). -/
def transferTrap (kind : Nat) (a : Word64) : Trap := { cause := .align, addr := a, info := BitVec.ofNat 32 kind }

/-- OVL_MISS or OVL_STALE (R211). -/
def ovlTrap (c : Cause) (b : Bank) (overlay reason : Nat) (target : Word64) : Trap :=
  { cause := c, addr := target, info := ovlInfo b overlay reason }

/-- A register target of ext jmpi or ext calli within the overlay that BANK holds (R201). -/
def State.jumpCheck (s : State) (t : Team) (kind : Nat) (a : Word64) : Option Trap :=
  if a.toNat % 16 ≠ 0 then some (transferTrap kind a)
  else
    match s.overlayIn t t.ctl.bank with
    | some n => if s.inOverlay t n a.toNat then none else some (ovlTrap .ovlMiss t.ctl.bank (overlayOf a.toNat) 3 a)
    | none => some (ovlTrap .ovlMiss t.ctl.bank (overlayOf a.toNat) 3 a)

/-- bra (R200). -/
def execBra (c : Guard) (off : BitVec 19) (s : State) : Out :=
  withTeam s fun uid t => s.putTeam uid (if t.allLanes c then t.goto (branchTarget t.ctl.pc off) else t.advance)

/-- bru (R200). -/
def execBru (c : Guard) (off : BitVec 19) (s : State) : Out :=
  withTeam s fun uid t =>
    s.putTeam uid (if guardHolds t.regs (some c) then t.goto (branchTarget t.ctl.pc off) else t.advance)

/-- call (R200, R201). -/
def execCall (c : Guard) (off : BitVec 19) (s : State) : Out :=
  withTeam s fun uid t =>
    if guardHolds t.regs (some c) then s.callTo uid t t.ctl.bank (branchTarget t.ctl.pc off) else s.putTeam uid t.advance

/-- ext jmpi (R200, R201). -/
def execExtJmpi (a : Nat) (s : State) : Out :=
  withTeam s fun uid t =>
    match s.jumpCheck t 1 (t.regs.x a) with
    | some tr => s.raise uid tr
    | none => s.putTeam uid (t.goto (t.regs.x a).toNat)

/-- ext calli (R200, R201). -/
def execExtCalli (a : Nat) (s : State) : Out :=
  withTeam s fun uid t =>
    match s.jumpCheck t 2 (t.regs.x a) with
    | some tr => s.raise uid tr
    | none => s.callTo uid t t.ctl.bank (t.regs.x a).toNat

/-- ext ret (R200, R201, R203, R210). -/
def execExtRet (s : State) : Out :=
  withTeam s fun uid t =>
    match t.ctl.returns with
    | [] => s.raise uid { cause := .cstk, info := 2 }
    | e :: l =>
      if e.depth ≠ t.ctl.frames.length then s.raise uid { cause := .mstk, addr := BitVec.ofNat 64 e.addr, info := 4 }
      else
        match s.lostOverlay t e.bank e.addr with
        | some n =>
          if s.policyTrap t n then s.raise uid (ovlTrap .ovlStale e.bank n 2 (BitVec.ofNat 64 e.addr))
          else s.demand uid t e.bank n false (BitVec.ofNat 64 e.addr)
        | none => s.putTeam uid ({ t with ctl := { t.ctl with returns := l, bank := e.bank } }.goto e.addr)

/-! ### Divergence frames (R202) -/

/-- What settling an empty mask comes to. -/
inductive Settled where
  | at (active : Mask) (frames : List Frame) (pc : Nat)
  | retire
  /-- the quad at L does not open with cnv -/
  | stuck (l : Nat)
deriving DecidableEq, Repr

/-- settle() of R202, from the innermost frame outwards. -/
def settle (opensCnv : Nat → Bool) (exited : Mask) : List Frame → Settled
  | [] => .retire
  | f :: l =>
    if f.deferred ≠ 0 then .at f.deferred ({ f with deferred := 0 } :: l) f.target
    else if !opensCnv f.target then .stuck f.target
    else if f.entry &&& ~~~exited = 0 then settle opensCnv exited l
    else .at (f.entry &&& ~~~exited) l (f.target + 4)

/-- Slot 0 of the quad at an address is cnv (R202). -/
def State.opensCnv (s : State) (t : Team) (a : Nat) : Bool := (s.fetchQuad t a).w0 == 0xCB000000

/-- Go on with a new active mask, frames and exited set: at `pc` if a lane is left, else as settle() says; a trap leaves the
team as it was (R199). With every lane exited the team retires, or waits to, or reports a suspended operation (R181, R204,
R336). -/
def State.continueWith (s : State) (uid : Nat) (t : Team) (active exited : Mask) (frames : List Frame) (pc : Nat) : State :=
  let put (a : Mask) (l : List Frame) (pc : Nat) : State :=
    s.putTeam uid ({ t with ctl := { t.ctl with active := a, exited := exited, frames := l } }.goto pc)
  if active ≠ 0 then put active frames pc
  else
    match settle (s.opensCnv t) exited frames with
    | .at a l pc => put a l pc
    | .retire => s.park uid .exit
    | .stuck l => s.raise uid { cause := .mstk, addr := BitVec.ofNat 64 l, info := 3 }

/-- dvg (R202). -/
def execDvg (c : Guard) (off : BitVec 19) (s : State) : Out :=
  withTeam s fun uid t =>
    if 32 ≤ t.ctl.frames.length then s.raise uid { cause := .mstk, info := 1 }
    else
      let m := t.lanes (some c)
      let f : Frame := { target := branchTarget t.ctl.pc off, deferred := t.ctl.active &&& ~~~m, entry := t.ctl.active }
      s.continueWith uid t m t.ctl.exited (f :: t.ctl.frames) (t.ctl.pc + 4)

/-- brk (R202). -/
def execBrk (c : Guard) (s : State) : Out :=
  withTeam s fun uid t =>
    if t.ctl.frames.isEmpty then s.raise uid { cause := .mstk, info := 2 }
    else s.continueWith uid t (t.ctl.active &&& ~~~(t.lanes (some c))) t.ctl.exited t.ctl.frames (t.ctl.pc + 4)

/-- cnv (R202). -/
def execCnv (s : State) : Out :=
  withTeam s fun uid t =>
    match t.ctl.frames with
    | [] => s.raise uid { cause := .mstk, info := 2 }
    | f :: l =>
      if f.deferred ≠ 0 then
        s.putTeam uid ({ t with ctl := { t.ctl with active := f.deferred, frames := { f with deferred := 0 } :: l } }.goto f.target)
      else s.continueWith uid t (f.entry &&& ~~~t.ctl.exited) t.ctl.exited l (t.ctl.pc + 4)

/-- An ext exit at depth 0 after which no lane is left: the team would park for its work (R202, R204). -/
def State.exitCompletes (s : State) (t : Team) : Bool :=
  settle (s.opensCnv t) (t.ctl.exited ||| t.ctl.active) t.ctl.frames == .retire

/-- ext exit (R199, R202, R204, R347, R437): where the exit completes the team, the WATCH of a suspended operation comes before every
check of its own, but for one in a handler, which parks for nothing (R336; log entry 127). -/
def execExtExit (s : State) : Out :=
  withTeam s fun uid t =>
    if t.depth ≠ 0 then s.raise uid { cause := .handlerDepth, info := 2 }
    else
      match (if s.exitCompletes t then t.suspFor .exit else none), t.link.fabricFault with
      | some (op, x), _ => s.reportSusp uid op x
      | none, some f => s.raise uid (writeFaultTrap f)
      | none, none => s.continueWith uid t 0 (t.ctl.exited ||| t.ctl.active) t.ctl.frames t.ctl.pc

/-- An illegal encoding: ILLOP, with the slot and the reason (R37). -/
def execIllegalEncoding (slot reason : Nat) (s : State) : Out :=
  withTeam s fun uid _ =>
    s.raise uid { cause := .illop, info := BitVec.ofNat 32 (slot % 8 * 256 + reason % 256) }

end Sys2Proof.Machine
end

