-- ==== Sys2Proof/Machine/Overlay.lean ====
section
/-! DEFINITION. The meanings of major 26: residency tokens and the other half (R205 to R211, R315). -/

namespace Sys2Proof.Machine

/-- The image's overlays as a team's set holds them. -/
def State.hasOverlay (s : State) (t : Team) (n : Nat) : Bool := ((s.setOf t).bind fun x => x.overlays.find? n).isSome

/-- A load of an overlay of a team's set is queued or under way for a half of its sub-core. -/
def State.loadFor (s : State) (t : Team) (b : Bank) (n : Nat) : Option LoadReq :=
  match s.placeOf t, s.crews.find? t.crew with
  | some p, some c => List.find? (fun r => r.half == b && r.overlay == n && r.set == c.set) (s.sub p).loads
  | _, _ => none

/-- Queue a load for a token of a team: one that LDINJ counts, as it passes or its byte enters the half (R205, R315). -/
def State.queueToken (s : State) (t : Team) (b : Bank) (n : Nat) : State :=
  match s.placeOf t, s.crews.find? t.crew with
  | some p, some c =>
    let (key, s1) := s.newUid
    s1.modSub p fun sc =>
      { sc with loads := sc.loads ++ [{ half := b, set := c.set, overlay := n, fn := c.fn, why := .tokens, inj := .undecided key }] }
  | _, _ => s

/-- ovld (R205 to R207): its OVL_MISS comes before the HANDLE of a full pool (log entry 131). -/
def execOvld (g : Option Guard) (d a : Nat) (bank : Bank) (s : State) : Out :=
  uniOp s g fun uid t =>
    let n := (t.regs.s a).toNat
    if !s.hasOverlay t n then s.raise uid (ovlTrap .ovlMiss bank n 1 0)
    else if bank = t.ctl.bank then s.raise uid (ovlTrap .ovlMiss bank n 2 0)
    else
      match Pool.lowest t.link.tokens 16 with
      | none => s.raise uid noSlotTrap
      | some slot =>
        let give (s : State) (state : TokenState) (started : Bool) : State :=
          s.modTeam uid fun t =>
            let k : TokenObj := { overlay := n, half := bank, state := state, started := started }
            { t.advance with
              regs := { t.regs with hy := t.regs.hy.set 0 d (Pool.handle t.link.tokens slot) }
              link := { t.link with tokens := Pool.put t.link.tokens slot k } }
        if s.overlayIn t bank = some n then give s .resident true
        else
          match s.loadFor t bank n with
          | some r => give s .loading r.started
          | none => give (s.queueToken t bank n) .loading false

/-- The check of a y handle (R171). -/
def Team.tokenAt (t : Team) (a : Nat) : Except Trap (Nat × TokenObj) :=
  let h := t.regs.hy.get 0 a
  match Pool.live t.link.tokens h with
  | some k => .ok (slotOf h, k)
  | none => .error (handleTrap 1 6 h)

/-- ovwait (R206, R207). -/
def execOvwait (g : Option Guard) (d a : Nat) (s : State) : Out :=
  uniOp s g fun uid t =>
    match t.tokenAt a with
    | .error tr => s.raise uid tr
    | .ok (slot, _) => s.park uid (.ovwait d slot)

/-- ifence (R207). -/
def execIfence (g : Option Guard) (s : State) : Out := uniOp s g fun uid _ => s.park uid .ifence

/-- ovrel (R207). -/
def execOvrel (g : Option Guard) (a : Nat) (s : State) : Out :=
  uniOp s g fun uid t =>
    match t.tokenAt a with
    | .error tr => s.raise uid tr
    | .ok (slot, _) => s.park uid (.ovrel slot)

/-- The tokens of a team that name a half, by rising slot. -/
def Team.tokensOf (t : Team) (b : Bank) : List TokenObj :=
  t.link.tokens.filterMap fun e => e.2.obj.bind fun k => if k.half = b then some k else none

/-- The target of bswap or calt in overlay `n` of a half, then the transfer (R207 steps 3 and 4). -/
def State.crossTo (s : State) (uid : Nat) (t : Team) (kind : Nat) (b : Bank) (n : Nat) (x : Word64) (go : State) : State :=
  if x.toNat % 16 ≠ 0 then s.raise uid (transferTrap kind x)
  else if s.inOverlay t n x.toNat then go
  else s.raise uid (ovlTrap .ovlMiss b (overlayOf x.toNat) 3 x)

/-- STALE tokens: reload, or OVL_MISS, reason 6 (R210). Only the tokens that name the overlay reloaded become RESIDENT (log
entry 107). -/
def State.restale (s : State) (uid : Nat) (t : Team) (b : Bank) (n : Nat) (x : Word64) : State :=
  if s.policyTrap t n then s.raise uid (ovlTrap .ovlMiss b n 6 x)
  else if s.overlayIn t b = some n then
    s.modTeam uid fun t => { t with link := { t.link with tokens := t.link.tokens.map fun e => (e.1, { e.2 with obj := e.2.obj.map fun k =>
      if k.half = b ∧ k.overlay = n ∧ k.state = .stale then { k with state := .resident, started := true, fenced := true } else k }) } }
  else s.demand uid t b n true x

/-- bswap (R207, R210). Where the other half's tokens are neither RESIDENT nor all STALE, STALE ones count as LOADING and FAILED
ones do (log entry 106). -/
def execBswap (g : Option Guard) (a : Nat) (s : State) : Out :=
  uniOp s g fun uid t =>
    let b := otherBank t.ctl.bank
    let x := t.regs.x a
    let toks := t.tokensOf b
    let named := match toks with
      | k :: _ => k.overlay
      | [] => overlayOf x.toNat
    match List.find? (fun k => k.state == .resident && k.fenced) toks with
    | some k =>
      s.crossTo uid t 3 b k.overlay x (s.putTeam uid ({ t with ctl := { t.ctl with bank := b } }.goto x.toNat))
    | none =>
      if toks.any (fun k => k.state == .resident) then s.raise uid (ovlTrap .ovlMiss b named 5 x)
      else if !toks.isEmpty && toks.all (fun k => k.state == .stale) then s.restale uid t b named x
      else s.raise uid (ovlTrap .ovlMiss b named 4 x)

/-- calt (R207, R210). -/
def execCalt (g : Option Guard) (a b : Nat) (s : State) : Out :=
  uniOp s g fun uid t =>
    let x := t.regs.x b
    match t.tokenAt a with
    | .error tr => s.raise uid tr
    | .ok (_, k) =>
      match k.state with
      | .stale => s.restale uid t k.half k.overlay x
      | .resident =>
        if k.fenced then s.crossTo uid t 4 k.half k.overlay x (s.callTo uid t k.half x.toNat)
        else s.raise uid (ovlTrap .ovlMiss k.half k.overlay 5 x)
      | _ => s.raise uid (ovlTrap .ovlMiss k.half k.overlay 4 x)

end Sys2Proof.Machine
end

