-- ==== Sys2Proof/Machine/Launches.lean ====
section
/-! DEFINITION. Launches from packet to completion, and the meanings of major 27 (R211 to R213, R229, R230, R245 to R255,
R326, R349, R371, R397). -/

namespace Sys2Proof.Machine

/-! ### Split modes (R230, R384) -/

/-- Contexts of a sub-core of a split mode. -/
def modeContexts : Nat → Nat
  | 0 => 4
  | 1 => 2
  | _ => 1
/-- Scratchpad bytes of a sub-core of a split mode. -/
def modeScratch (m : Nat) : Nat := 2 ^ 20 / 2 ^ m
/-- Sub-cores of a core in a split mode. -/
def modeSubs (m : Nat) : Nat := 2 ^ m
/-- The columns that a sub-core covers. -/
def modeColumns (m sub : Nat) : List Nat := (List.range (4 / 2 ^ m)).map fun i => sub * (4 / 2 ^ m) + i

/-- A column is out of service: retired (R411). -/
def State.columnRetired (s : State) (core c : Nat) : Bool := s.dev.retiredCols.get false (4 * core + c)
/-- Every column of a sub-core is in service. -/
def State.subInService (s : State) (m : Nat) (p : Nat × Nat) : Bool := (modeColumns m p.2).all fun c => !s.columnRetired p.1 c

/-- The sub-cores of a board, by rising core and sub-core. -/
def boardSubs (m b : Nat) : List (Nat × Nat) :=
  (List.range 8).flatMap fun i => (List.range (modeSubs m)).map fun j => (8 * b + i, j)

/-- The boards that a function can use: those it holds, and for a rated one every pool board (R246, R384). -/
def State.usableBoards (s : State) (v : Nat) : List Nat :=
  (List.range 24).filter fun b => brdHeldBy (s.brd b) v || (brdMode (s.brd b) == 3 && s.rated v)

/-! ### Packets (R245, R246) -/

/-- A launch packet's fields. -/
def packetOf (r : Nat) : Packet :=
  { kernel := field r 0 4, ncrew := field r 4 4, argbase := BitVec.ofNat 64 (field r 8 8), scratch := field r 16 4
    cpt := field r 20 4 % 16, producer := field r 20 4 / 256 % 256
    prio := field r 24 4 % 4, fuse := field r 24 4 / 4 % 2 == 1, splits := field r 24 4 / 8 % 8
    await0 := BitVec.ofNat 64 (field r 32 8), await1 := BitVec.ofNat 64 (field r 40 8), signal := BitVec.ofNat 64 (field r 48 8) }

/-- The image of a function that a number names, while submissions may name it (R417). -/
def State.imageOf (s : State) (v num : Nat) : Option Image :=
  List.find? (fun i => i.fn == v && i.num == num && !i.unloading) s.images

/-- Scratchpad bytes of a crew in its window (R73). -/
def crewScratch (k : Kernel) (bytes : Nat) : Nat := max k.scratch bytes

/-- One crew fits a sub-core of a split mode (R230). -/
def Kernel.fits (k : Kernel) (bytes m : Nat) : Bool :=
  decide (k.teams ≤ modeContexts m) && decide (crewScratch k bytes + k.spill ≤ modeScratch m)

/-- A packet permits a split mode. -/
def Packet.permits (p : Packet) (m : Nat) : Bool := p.splits.testBit m

/-- Boards that a function can use in a permitted mode in which one crew fits. -/
def State.boardsFor (s : State) (v : Nat) (k : Kernel) (p : Packet) : List Nat :=
  (s.usableBoards v).filter fun b => p.permits (brdSplit (s.brd b)) && k.fits p.scratch (brdSplit (s.brd b))

/-- An object address of a packet keeps to R245. -/
def objAddrOk (a : Word64) : Bool := a == 0 || (inGlobal a.toNat && a.toNat % 32 == 0)

/-- The SHAPE field fails (R245, R246): its limits, or a table that no board can take; where no usable board takes
even one crew, FIELD 6 fails instead (log entry 133). -/
def State.shapeFails (s : State) (v : Nat) (k : Kernel) (p : Packet) (r : Nat) : Bool :=
  let w := field r 20 4
  w != p.cpt + 256 * p.producer || decide (8 < p.cpt) || (p.producer != 255 && decide (k.teams ≤ p.producer))
    || (p.cpt != 0 && !(s.boardsFor v k p).isEmpty &&
      !((s.boardsFor v k p).any fun b =>
        decide (p.cpt ≤ ((boardSubs (brdSplit (s.brd b)) b).filter (s.subInService (brdSplit (s.brd b)))).length)))

/-- The first field of a packet that fails its check, its offset divided by 4; none when all pass (R246). -/
def State.packetFails (s : State) (v r : Nat) : Option Nat :=
  let p := packetOf r
  let kern := if s.dev.phase = 4 ∧ (s.fn v).state = .running then
      (s.imageOf v (p.kernel / 2 ^ 16)).bind fun i => i.kernels[p.kernel % 2 ^ 16]?
    else none
  match kern with
  | none => some 0
  | some k =>
    if p.ncrew = 0 ∨ 2 ^ 20 < p.ncrew then some 1
    else if p.argbase.toNat % 8 ≠ 0 then some 2
    else if 2 ^ 20 < p.scratch then some 4
    else if s.shapeFails v k p r then some 5
    else if field r 24 4 ≠ p.prio + (if p.fuse then 4 else 0) + 8 * p.splits ∨ p.splits = 0 ∨ (p.fuse ∧ p.cpt = 0)
        ∨ (s.boardsFor v k p).isEmpty then some 6
    else if field r 28 4 ≠ 0 then some 7
    else if !objAddrOk p.await0 then some 8
    else if !objAddrOk p.await1 then some 10
    else if !objAddrOk p.signal then some 12
    else if field r 56 8 ≠ 0 then some 14
    else none

/-! ### The pool (R249, R250) -/

/-- Pool entries that a function holds. -/
def State.poolHeld (s : State) (v : Nat) : Nat := (s.launches.filter fun e => e.2.fn == v).length
/-- LPQ of QUOTA. -/
def Fn.launchQuota (f : Fn) : Nat := f.quota.toNat % 2 ^ 14
/-- Shared entries taken. -/
def State.sharedUsed (s : State) : Nat := (s.launches.filter fun e => !e.2.reserved).length

/-- Accept a checked packet: a serial, and a pool entry. -/
def State.acceptLaunch (s : State) (v r : Nat) (reserved : Bool) : State :=
  let p := packetOf r
  match s.imageOf v (p.kernel / 2 ^ 16) with
  | none => s
  | some i =>
    match i.kernels[p.kernel % 2 ^ 16]? with
    | none => s
    | some k =>
      let (id, s1) := s.newUid
      let l : Launch :=
        { fn := v, serial := (s.fn v).serial, pkt := p, kern := k, image := i.num, imgid := i.imgid
          priv := if v = 0 ∧ i.keySlot = 0 then .h else .u, reserved := reserved }
      { s1 with launches := s1.launches.insert id l }.modFn v fun f => { f with serial := f.serial + 1 }

/-- Submit a packet for a function: CODE, FIELD, and the state after it (R246, R249). -/
def State.submit (s : State) (v r : Nat) : Nat × Nat × State :=
  match s.packetFails v r with
  | some f => (3, f, s)
  | none =>
    let h := s.poolHeld v
    if (s.fn v).launchQuota ≤ h then (1, 0, s)
    else if h < 64 then (0, 0, s.acceptLaunch v r true)
    else if s.sharedUsed < 6144 then (0, 0, s.acceptLaunch v r false)
    else (2, 0, s)

/-- Count a refusal of a launch window (R248). -/
def State.refuseWindow (s : State) (v code fld : Nat) : State :=
  s.modFn v fun f => { f with refused := f.refused + 1, lastref := BitVec.ofNat 64 (code + 256 * fld) }

/-- A write to a launch window (R247, R248). -/
def State.windowWrite (s : State) (fn offset : Nat) (bytes : List Byte) : State :=
  if bytes.length ≠ 64 ∨ offset % 64 ≠ 0 ∨ 0xF40 < offset then s.refuseWindow fn 4 0
  else
    let x := s.submit fn (leNat bytes)
    if x.1 = 0 then x.2.2.modFn fn fun f => { f with accepted := f.accepted + 1 } else s.refuseWindow fn x.1 x.2.1

/-- LAUNCH_WINDOW_WRITE: a write to a launch window (R247, R248). -/
def execLaunchWindowWrite (fn offset : Nat) (bytes : List Byte) (s : State) : Out :=
  .next (s.hostActs fun s => s.windowWrite fn offset bytes)

/-- What a launch window reads (R248). -/
def State.windowRead (s : State) (v off : Nat) : Word64 :=
  if off = 0xF80 then (s.fn v).accepted
  else if off = 0xF88 then (s.fn v).refused
  else if off = 0xF90 then (s.fn v).lastref
  else if off = 0xF98 then BitVec.ofNat 64 (s.poolHeld v + (s.fn v).launchQuota * 2 ^ 16)
  else 0

/-- lch (R212). -/
def execLch (g : Option Guard) (d a : Nat) (s : State) : Out :=
  uniOp s g fun uid t =>
    let x : Access := { addr := (t.regs.x a).toNat, size := 64, log2 := 6, rd := true, wr := false, uni := true }
    uniAccess s uid x (.load 64) (fun s p => s.loadNat p 64) fun s r =>
      let y := s.submit (s.fnOf t) r
      y.2.2.modTeam uid fun t => { t with regs := t.regs.setS d (BitVec.ofNat 32 (y.1 + 256 * y.2.1)) }

/-! ### Completion objects (R213, R254) -/

/-- cjoin (R213, R236). -/
def execCjoin (g : Option Guard) (a : Nat) (s : State) : Out :=
  uniOp s g fun uid t =>
    match objTrap (t.regs.x a) with
    | some tr => s.raise uid tr
    | none => s.park uid (.cjoin (t.regs.x a))

/-- What lstat writes (R213). -/
def lstatWord (o : ObjRead) : Word :=
  BitVec.ofNat 32 ((if o.complete then 1 else 0) + (if o.status ≠ 0 then 2 else 0) + o.flags.toNat % 512 * 4)

/-- lstat (R213). -/
def execLstat (g : Option Guard) (d a : Nat) (s : State) : Out :=
  uniOp s g fun uid t =>
    let addr := t.regs.x a
    match objTrap addr with
    | some tr => s.raise uid tr
    | none =>
      uniAccess s uid (objAccess addr) (.load 16) (fun s p => s.loadNat p 16) fun s n =>
        s.modTeam uid fun t => { t with regs := t.regs.setS d (lstatWord (objOf n)) }

/-! ### Extent lists (R349) -/

/-- One entry of an extent list. -/
def extentOf (lo hi : Nat) : Extent :=
  { va := lo, log2 := hi % 64, pa := hi / 2 ^ 16 % 2 ^ 40 * 2 ^ 16, target := hi / 2 ^ 8 % 4, w := hi.testBit 6 }

/-- An entry keeps to R349. -/
def extentOk (bound lo hi : Nat) : Bool :=
  let e := extentOf lo hi
  hi / 2 ^ 56 == 0 && hi / 2 ^ 10 % 64 == 0 && !hi.testBit 7 && decide (16 ≤ e.log2) && decide (e.log2 ≤ 36)
    && lo % 2 ^ e.log2 == 0
    && match e.target with
      | 0 => inGlobal lo && decide (e.pa + 2 ^ e.log2 ≤ bound)
      | 1 => inGlobal lo
      | 2 => inFabric lo && e.pa == 0
      | _ => false

/-- Two extents overlap. -/
def Extent.meets (e f : Extent) : Bool := decide (e.va < f.va + 2 ^ f.log2) && decide (f.va < e.va + 2 ^ e.log2)

/-- No two extents of a list overlap. -/
def extentsApart : List Extent → Bool
  | [] => true
  | e :: l => (l.all fun f => !e.meets f) && extentsApart l

/-- Read the entries of a list through stage 2, as any agent reads memory; none when one cannot be read, its granule being marked
or unmapped, or is malformed (R282, R349, R407). -/
def readExtents (s : State) (v a : Nat) : Nat → Option (List Extent) × State
  | 0 => (some [], s)
  | n + 1 =>
    if (s.stage2 v a).isNone || (s.stage2 v (a + 15)).isNone || s.markedIn (.gpa v a) 16 then (none, s)
    else
      let (lo, s1) := s.loadNat (.gpa v a) 8
      let (hi, s2) := s1.loadNat (.gpa v (a + 8)) 8
      if extentOk (s.fn v).s2bound.toNat lo hi then
        let (l, s3) := readExtents s2 v (a + 16) n
        (l.map fun l => extentOf lo hi :: l, s3)
      else (none, s2)

/-- The extent list of a function as it stands; none when it is invalid. -/
def State.extentList (s : State) (v : Nat) : Option (List Extent) × State :=
  let (l, s1) := readExtents s v (s.fn v).lttptr.toNat (s.fn v).lttcnt.toNat
  (l.filter extentsApart, s1)

/-- The extent list of a function waits: a slice group that holds part of it is under test (R409). -/
def State.listWaits (s : State) (v : Nat) : Bool :=
  (List.range (s.fn v).lttcnt.toNat).any fun i => s.placeWaits v (.gpa v ((s.fn v).lttptr.toNat + 16 * i))

/-! ### The dispatcher's reach (R251, R255) -/

/-- Where the device reaches an object of a function: through an extent, else by a walk, without page requests. -/
def State.objPlace (s : State) (v : Nat) (ext : List Extent) (a : Nat) (wr : Bool) : Option Place × State :=
  let keep (p : Place) : Option Place :=
    match s.home v p with
    | .fabric _ _ => none
    | .gpa f b => if (s.stage2 f b).isSome then some (.gpa f b) else none
    | q => some q
  if a % 32 ≠ 0 then (none, s)
  else
    match ext.find? fun e => e.covers a 32 with
    | some e => (if wr && !e.w then none else keep (e.place v a), s)
    | none =>
      match s.walk v a with
      | (.valid pa host w, s1) =>
        (if wr && !w then none else keep (PageEntry.place { va := a / 4096 * 4096, pa := pa, host := host, w := w } v a), s1)
      | (_, s1) => (none, s1)

/-- The device's access to an object waits: its walk reads a slice group under test, or the object itself waits (R392, R409). -/
def State.objWaits (s : State) (v : Nat) (ext : List Extent) (a : Nat) (wr : Bool) : Bool :=
  (a % 32 == 0 && (ext.find? fun e => e.covers a 32).isNone && (s.walk v a).1 == .waits) ||
    match (s.objPlace v ext a wr).1 with
    | some p => s.placeWaits v p
    | none => false

/-- The read-modify-write of R255 and R399 on the first 16 bytes of an object. -/
def State.objUpdate (s : State) (p : Place) (flags : Word) (status : Nat) (arrive : Bool) : State :=
  let (n, s1) := s.loadNat p 16
  let o := objOf n
  let arrived := if arrive then o.arrived + 1 else o.arrived
  let st := if o.status = 0 then BitVec.ofNat 32 status else o.status
  s1.writeNat p 16 (arrived.toNat + o.expected.toNat * 2 ^ 32 + (o.flags ||| flags).toNat * 2 ^ 64 + st.toNat * 2 ^ 96)

/-- Write an owed completion: STAMP, the update, and the update at LINK (R255, R399). -/
def State.deliver (s : State) (c : Completion) : State :=
  match s.objPlace c.fn c.extents c.addr.toNat true with
  | (none, s1) => s1
  | (some p, s1) =>
    let s2 := (s1.writeNat (p.add 16) 8 c.serial.toNat).objUpdate p c.flags c.status c.arrive
    let (link, s3) := s2.loadNat (p.add 24) 8
    if link = 0 then s3
    else
      match s3.objPlace c.fn c.extents link true with
      | (some q, s4) => s4.objUpdate q c.flags c.status c.arrive
      | (none, s4) => s4

/-- A completion cannot be written yet: its object waits, or the object at LINK. -/
def State.deliveryWaits (s : State) (c : Completion) : Bool :=
  c.addr != 0 && (s.objWaits c.fn c.extents c.addr.toNat true ||
    match (s.objPlace c.fn c.extents c.addr.toNat true).1 with
    | some p =>
      let link := (s.loadNat (p.add 24) 8).1
      link != 0 && s.objWaits c.fn c.extents link true
    | none => false)

/-- Bring a completion about, or withhold it while its function is descheduled, or others are still withheld (R397, R398). -/
def State.complete (s : State) (c : Completion) : State :=
  if c.addr = 0 then s
  else if s.descheduled c.fn || !(s.fn c.fn).withheld.isEmpty then s.modFn c.fn fun f => { f with withheld := f.withheld ++ [c] }
  else s.deliver c

/-- The extents through which a launch's objects are reached: those bound to it, or else the function's list as it stands (R252;
log entry 126). -/
def State.launchExtents (s : State) (l : Launch) : List Extent × State :=
  if l.ready then (l.extents, s)
  else
    let (x, s1) := s.extentList l.fn
    (x.getD [], s1)

/-- What a launch that ends writes to its object. -/
def Launch.completion (l : Launch) (flags : Word) (status : Nat) (ext : List Extent) : Completion :=
  { fn := l.fn, addr := l.pkt.signal, serial := l.serial, flags := flags, status := status, arrive := true, extents := ext }

/-- A launch ends: its object is written and its entry freed (R252, R255). -/
def State.endLaunch (s : State) (id : Nat) (l : Launch) (flags : Word) (status : Nat) : State :=
  let (ext, s1) := s.launchExtents l
  let s2 := s1.complete (l.completion flags status ext)
  { s2 with launches := s2.launches.erase id }

/-- The object that a launch completes cannot be written yet (R392, R409). -/
def State.signalWaits (s : State) (l : Launch) : Bool := s.deliveryWaits (l.completion 0 0 (s.launchExtents l).1)

/-- A launch ends once its object can be written. -/
def State.tryEnd (s : State) (id : Nat) (l : Launch) (flags : Word) (status : Nat) : State :=
  if s.signalWaits l then s else s.endLaunch id l flags status

/-! ### Readiness (R251, R252, R326, R349) -/

/-- An awaited object, through some extents: complete with a STATUS, or not complete, or it cannot be read yet. -/
def State.awaited (s : State) (v : Nat) (ext : List Extent) (a : Word64) : Option Nat × State :=
  if a = 0 then (some 0, s)
  else if s.objWaits v ext a.toNat false then (none, s)
  else
    match s.objPlace v ext a.toNat false with
    | (none, s1) => (some 1, s1)
    | (some p, s1) =>
      if s1.markedIn p 16 then (some 1, s1)
      else
        let (n, s2) := s1.loadNat p 16
        (if (objOf n).complete then some (objOf n).status.toNat else none, s2)

/-- DOMAIN of a function (R324). -/
def Fn.domain (f : Fn) : Nat := f.tctl.toNat / 256 % 256

/-- The current set of a key. -/
def State.currentSet (s : State) (imgid split domain : Nat) : Option Nat :=
  (List.find? (fun e => e.2.imgid == imgid && e.2.split == split && e.2.xver == s.xver && e.2.domain == domain && e.2.current)
    s.sets).map (·.1)

/-- A package may ask its peers for a set that it lacks, while PEER permits it and a link can carry the request (R335, R446):
whether it does, and on which link, is free. -/
def State.askPeers (s : State) (v imgid split : Nat) : Option Nat × State :=
  let w : Wire := .peerAsk v imgid split s.xver (s.fn v).domain
  if (s.fn v).tctl.getLsbD 1 && s.fabValid then
    let (b, s1) := s.takeBool
    match s1.pick (s1.wireLinks w) with
    | (some k, s2) => if b then (some k, s2.sendMessage k (.wire k w)) else (none, s2)
    | (none, s2) => (none, s2)
  else (none, s)

/-- Bind a launch to the current set of its key in one split mode: a new translation is begun where none exists (R326). -/
def State.bindSet (s : State) (id : Nat) (l : Launch) (i : Image) (m : Nat) : State :=
  let (n, s1) := s.newUid
  match s1.currentSet l.imgid m (s1.fn l.fn).domain with
  | some k => { s1 with sets := s1.sets.modify k fun x => { x with bound := n } }.modLaunch id
      fun l => { l with sets := l.sets.insert m k }
  | none =>
    let (asked, s2) := s1.askPeers l.fn l.imgid m
    let x : TransSet := { imgid := l.imgid, split := m, xver := s.xver, domain := (s1.fn l.fn).domain, current := true
                          overlays := i.overlays, code := i.code, ready := false, fetching := asked, bound := n }
    { s2 with sets := s2.sets.insert n x }.modLaunch id fun l => { l with sets := l.sets.insert m n }

/-- A launch found ready is bound to its extents and to a set for each mode it permits; an invalid list ends it. -/
def State.bindLaunch (s : State) (id : Nat) (l : Launch) : Option (List Extent) → State
  | none => s.tryEnd id { l with ready := true, extents := [] } 0 1
  | some ext =>
    match List.find? (fun i : Image => i.fn == l.fn && i.num == l.image) s.images with
    | none => s
    | some i =>
      let s1 := s.modLaunch id fun l => { l with ready := true, extents := ext }
      ((List.range 3).filter l.pkt.permits).foldl (fun s m => s.bindSet id l i m) s1

/-- LAUNCH_READY: the dispatcher reads the extent list and the awaited objects of a pending launch (R251, R252), once no slice group
that holds them is under test (R409). -/
def execLaunchReady (launch : Nat) (s : State) : Out :=
  .next <|
    match s.launches.find? launch with
    | none => s
    | some l =>
      if l.ready ∨ l.halted ∨ s.listWaits l.fn then s
      else
        let (ext, s0) := s.extentList l.fn
        let (x, s1) := s0.awaited l.fn (ext.getD []) l.pkt.await0
        let (y, s2) := s1.awaited l.fn (ext.getD []) l.pkt.await1
        match x, y with
        | some (n + 1), _ => s2.tryEnd launch l 0 (n + 1)
        | _, some (n + 1) => s2.tryEnd launch l 0 (n + 1)
        | some 0, some 0 => s2.bindLaunch launch l ext
        | _, _ => s2

/-! ### The translation cache (R322, R325 to R327) -/

/-- Compressed overlays as the cache stores them, each with its check value (R325). -/
def packTable (l : List (Nat × List Byte)) : Tbl Packed := l.foldl (fun t e => t.insert e.1 ⟨e.2, crc32c e.2⟩) []

/-- Bytes that a set takes in the carve-out: its overlays with their check values, in two copies (R322). -/
def packedSize (t : Tbl Packed) : Nat := 2 * t.foldl (fun n e => n + e.2.bytes.length + 4) 0

/-- Bytes of the carve-out that sets take. -/
def State.cacheUsed (s : State) : Nat := s.sets.foldl (fun n e => n + packedSize e.2.packed) 0

/-- Something uses a set: a half, a queued load, a crew, a launch, or a transfer to a peer of a set with its key, of which it may be
the one that is sent (R327). -/
def State.setUsed (s : State) (k : Nat) (x : TransSet) : Bool :=
  (s.subs.any fun e => (e.2.halfA.map (·.1)) == some k || (e.2.halfB.map (·.1)) == some k || e.2.loads.any fun r => r.set == k)
    || (s.crews.any fun e => e.2.set == k) || (s.launches.any fun e => e.2.sets.any fun m => m.2 == k)
    || s.fab.wires.any fun w =>
      match w.body with
      | .peerServe _ _ p _ => p.imgid == x.imgid && p.split == x.split && p.xver == x.xver && p.domain == x.domain
      | _ => false

/-- The set to remove for want of room: of those that nothing uses, the one bound longest ago (R327). -/
def State.oldestSet (s : State) : Option Nat :=
  ((s.sets.filter fun e => !s.setUsed e.1 e.2).foldl (fun (a : Option (Nat × Nat)) e =>
    match a with
    | none => some (e.1, e.2.bound)
    | some y => if e.2.bound < y.2 then some (e.1, e.2.bound) else some y) none).map (·.1)

/-- Remove sets until `need` more bytes fit, or none can go. -/
def makeRoom (need : Nat) : Nat → State → State
  | 0, s => s
  | n + 1, s =>
    if s.cacheUsed + need ≤ s.tcsize then s
    else
      match s.oldestSet with
      | none => s
      | some k => makeRoom need n { s with sets := s.sets.erase k }

/-- Store a set's translations once the carve-out has room for them; else what needs them waits (R327). -/
def State.storeSet (s : State) (packed : Tbl Packed) (put : State → State) : State :=
  let s1 := makeRoom (packedSize packed) s.sets.length s
  if s1.cacheUsed + packedSize packed ≤ s1.tcsize then put s1 else s1

/-- A translation core works for a function: it is not under test, and its arbiter does not bar the function (R392, R409). -/
def State.translates (s : State) (core v : Nat) : Bool := s.translator core && !s.barred 5 core v

/-- Every overlay of a set has been translated. -/
def coversOverlays (x : TransSet) (packed : List (Nat × List Byte)) : Bool :=
  x.overlays.all fun o => packed.any fun e => e.1 == o.1

/-- TRANSLATION_DONE: a set begun here is complete, made by a translation core for a function whose launch is bound to it
(R326). -/
def execTranslationDone (work : Translated) (s : State) : Out :=
  .next <|
    match s.sets.find? work.set with
    | none => s
    | some x =>
      if x.ready || x.fetching.isSome || !coversOverlays x work.packed
          || !s.launches.any fun e => (e.2.sets.any fun m => m.2 == work.set) && s.translates work.core e.2.fn then s
      else s.storeSet (packTable work.packed) fun s =>
        { s with sets := s.sets.modify work.set fun x => { x with ready := true, packed := packTable work.packed } }

/-- REOPT_SET_COMPLETE: a new set for the key of an existing one becomes current, while REOPT of a function of its domain
permits it (R327); this counts as its first binding (log entry 28). -/
def execReoptSetComplete (fn : Nat) (work : Translated) (s : State) : Out :=
  .next <|
    match s.sets.find? work.set with
    | none => s
    | some x =>
      if (s.fn fn).tctl.getLsbD 0 && (s.fn fn).domain == x.domain && x.current && x.ready && coversOverlays x work.packed
          && s.translates work.core fn then
        s.storeSet (packTable work.packed) fun s =>
          let (n, s1) := s.newUid
          let y : TransSet := { x with bound := n, packed := packTable work.packed }
          { s1 with sets := (s1.sets.modify work.set fun x => { x with current := false }).insert n y }
      else s

/-! ### Completion (R255) -/

/-- Every crew of a launch has retired and nothing of its teams is outstanding. -/
def State.launchOver (s : State) (id : Nat) (l : Launch) : Bool :=
  (s.fn l.fn).state == .running && l.ready && (l.halted || decide (l.pkt.ncrew ≤ l.next)) && (s.crewsOf id).isEmpty
    && !s.fab.requests.any fun r => r.launch == id

/-- LAUNCH_COMPLETE (R255). -/
def execLaunchComplete (launch : Nat) (s : State) : Out :=
  .next <|
    match s.launches.find? launch with
    | none => s
    | some l => if s.launchOver launch l then s.tryEnd launch l l.flags l.status else s

end Sys2Proof.Machine
end

