-- ==== Sys2Proof/Machine/Loader.lean ====
section
/-! DEFINITION. What holds a half of the instruction store, the loads queued for it, and forced reclaims
(R205, R206, R209, R210, R260, R315, R318 to R321, R344, R448). -/

namespace Sys2Proof.Machine

/-! ### Holders (R205) -/

/-- A reference to a half by a bank and an address keeps it, unless a forced reclaim has taken it. -/
def State.refHolds (s : State) (t : Team) (b bank : Bank) (a : Nat) : Bool := bank == b && (s.lostOverlay t b a).isNone

/-- A token keeps a half: RESIDENT, or LOADING with its load started. -/
def TokenObj.holds (k : TokenObj) (b : Bank) : Bool :=
  k.half == b && (k.state == .resident || (k.state == .loading && k.started))

/-- A team keeps a half by its BANK, a return entry, or the BANK or a return entry saved in a trap frame. -/
def State.codeHolds (s : State) (t : Team) (b : Bank) : Bool :=
  s.refHolds t b t.ctl.bank t.ctl.pc || t.ctl.returns.any (fun e => s.refHolds t b e.bank e.addr)
    || t.trap.handlers.any fun f => s.refHolds t b f.bank f.trap.vpc.toNat || f.returns.any fun e => s.refHolds t b e.bank e.addr

/-- A team is a holder of a half of its sub-core. -/
def State.teamHolds (s : State) (t : Team) (b : Bank) : Bool :=
  t.status != .retired && (s.codeHolds t b || t.link.tokens.any fun e => (e.2.obj.map fun k => k.holds b).getD false)

/-- Some team of a sub-core, those of some crews apart, holds a half. -/
def State.halfHeld (s : State) (p : Nat × Nat) (b : Bank) (but : Nat → Bool) : Bool :=
  (s.teamsAt p).any fun e => !but e.2.crew && s.teamHolds e.2 b

/-- No crew. -/
def noCrew (_ : Nat) : Bool := false

/-! ### Halves -/

/-- What a half of a sub-core holds. -/
def SubCore.half (c : SubCore) : Bank → Half
  | .a => c.halfA
  | .b => c.halfB
/-- Change what a half holds. -/
def SubCore.setHalf (c : SubCore) (b : Bank) (h : Half) : SubCore :=
  match b with
  | .a => { c with halfA := h }
  | .b => { c with halfB := h }

/-- A sub-core passes to a function: both halves are emptied when it served another (R320). -/
def SubCore.serve (c : SubCore) (v : Nat) : SubCore := if c.fn = v then c else { c with fn := v, halfA := none, halfB := none }

/-! ### Tokens -/

/-- Change the tokens of a team that name an overlay in a half. -/
def Team.modTokens (t : Team) (b : Bank) (n : Nat) (f : TokenObj → TokenObj) : Team :=
  let g (o : TokenObj) : TokenObj := if o.half = b ∧ o.overlay = n then f o else o
  let l : Pool TokenObj := t.link.tokens.map fun k => (k.1, { k.2 with obj := k.2.obj.map g })
  { t with link := { t.link with tokens := l } }

/-- Change the tokens of the teams of a sub-core that name an overlay of a set in a half. -/
def State.modTokens (s : State) (p : Nat × Nat) (r : LoadReq) (f : TokenObj → TokenObj) : State :=
  { s with teams := s.teams.map fun e =>
      match s.crews.find? e.2.crew with
      | none => e
      | some c => if c.place = some p ∧ c.set = r.set then (e.1, e.2.modTokens r.half r.overlay f) else e }

/-- The load of a LOADING token has started. -/
def TokenObj.start (k : TokenObj) : TokenObj := if k.state = .loading then { k with started := true } else k
/-- The check of a LOADING token's load has passed or failed (R206). -/
def TokenObj.ended (ok : Bool) (k : TokenObj) : TokenObj :=
  if k.state = .loading then { k with state := if ok then .resident else .failed, started := true } else k
/-- A STALE token is reloaded (R210). -/
def TokenObj.restored (k : TokenObj) : TokenObj :=
  if k.state = .stale then { k with state := .resident, started := true, fenced := true } else k

/-! ### Loads -/

/-- The load at the head of a half's queue. -/
def SubCore.head (c : SubCore) (b : Bank) : Option LoadReq := List.find? (fun r => r.half == b) c.loads

/-- Replace, or take away, the load at the head of a half's queue. -/
def putHead (b : Bank) (r : Option LoadReq) : List LoadReq → List LoadReq
  | [] => []
  | x :: l => if x.half = b then r.toList ++ l else x :: putHead b r l

/-- The crew whose own references do not stop a load for it. -/
def LoadReq.crew (r : LoadReq) : Option Nat :=
  match r.why with
  | .entry c => some c
  | .restore c => some c
  | _ => none

/-- A cause from its code. -/
def causeOf (n : Nat) : Cause :=
  (List.find? (fun c : Cause => c.code == n) [.illop, .priv, .handle, .align, .lttMiss, .probe, .poison, .watch, .brkpt, .swtrap,
    .noprod, .ovlMiss, .ovlStale, .mstk, .cstk, .trackDeadlock, .scratchOob, .accOob, .obOob, .fabric, .double, .tgState,
    .handlerDepth]).getD .illop

/-- A crew's loads are over: its teams may issue, once those of the crews before it have begun (R256, R260, R448). -/
def State.crewReady (s : State) (c : Nat) : State :=
  match s.crews.find? c with
  | none => s
  | some cr =>
    let s1 := s.startDue cr.launch
    if ((s1.crews.find? c).map Crew.status) == some .running then s1.checkDeadlock c else s1

/-- A crew's overlay cannot be loaded: it is killed (R260, R448). -/
def State.killCrew (s : State) (c : Nat) (r : LoadReq) : State :=
  let pc := ((s.teams.find? (4 * c)).map s.pcOf).getD 0
  s.kill (4 * c) .ovlMiss .ovlMiss
    { cause := BitVec.ofNat 32 Cause.ovlMiss.code, vpc := BitVec.ofNat 64 pc, info := ovlInfo r.half r.overlay 4 }

/-- A team goes on whose overlay has been loaded on demand: a probe still waits for its pages, or makes its final pass. In a
launch that has been halted it stops for good instead (R226). -/
def State.demandMet (s : State) (uid : Nat) : State :=
  let t := s.teamD uid
  if s.launchHalted t then s.haltTeam uid t
  else if t.link.probe.isSome then (s.modTeam uid fun t => { t with status := .parked .probe }).finishProbe uid
  else s.modTeam uid fun t => s.atSafePoint { t with status := .runnable }

/-- What follows a load that has passed, for what waits for it still. -/
def State.loadPassed (s : State) (p : Nat × Nat) (r : LoadReq) : State :=
  match r.why with
  | .tokens => s
  | .demand uid claim =>
    if s.parkedFor p r uid false then
      (if claim then s.modTeam uid fun t => t.modTokens r.half r.overlay TokenObj.restored else s).demandMet uid
    else s
  | .delivery uid =>
    match s.teams.find? uid with
    | none => s
    | some t =>
      match t.link.delivery, t.status with
      | some st, .parked (.reload _ _ a) =>
        if s.launchHalted t then s.haltTeam uid t
        else (s.traceTrap t st).putTeam uid (s.atSafePoint (t.enter st r.half a.toNat))
      | _, _ => s
  | .entry c => s.crewReady c
  | .restore c => s.crewReady c

/-- What follows a load whose check has failed for good. -/
def State.loadFailed (s : State) (p : Nat × Nat) (r : LoadReq) : State :=
  match r.why with
  | .tokens => s
  | .demand uid _ =>
    match s.parkedFor p r uid false, (s.teamD uid).status with
    | true, .parked (.reload _ _ a) =>
      let s1 := s.modTeam uid fun t =>
        { t with ctl := { t.ctl with pc := s.pcOf t }, link := { t.link with probe := none } }
      s1.raise uid (ovlTrap .ovlMiss r.half r.overlay 4 a)
    | _, _ => s
  | .delivery uid =>
    match (s.teams.find? uid).bind fun t => t.link.delivery with
    | some st => s.kill uid (causeOf st.cause.toNat) (causeOf st.cause.toNat) st
    | none => s
  | .entry c => s.killCrew c r
  | .restore c => s.killCrew c r

/-- A load that is retried once from the cache (R260, R344, R448). -/
def LoadReq.retries (r : LoadReq) : Bool :=
  match r.why with
  | .tokens => false
  | .demand .. => false
  | _ => !r.retried

/-- A load's bytes as they enter the half: the byte that LDINJ names is altered (R315). -/
def Injection.bytes (i : Injection) (l : List Byte) : List Byte :=
  match i with
  | .decided (some (off, mask)) => l.modify (off % l.length) (· ^^^ BitVec.ofNat 8 mask)
  | _ => l

/-- The check of a load (R325): the CRC-32C of its bytes as they enter the half is the value stored with them. -/
def State.checkLoad (s : State) (r : LoadReq) : Bool :=
  let k := ((s.sets.find? r.set).bind fun x => x.packed.find? r.overlay).getD ⟨[], 0⟩
  crc32c (r.inj.bytes k.bytes) == k.check

/-- A load at the head of its half's queue has passed its check. -/
def State.loadGood (s : State) (p : Nat × Nat) (r : LoadReq) : State :=
  let s1 := s.modSub p fun c => { c.setHalf r.half (some (r.set, r.overlay)) with loads := putHead r.half none c.loads }
  (s1.modTokens p r (TokenObj.ended true)).loadPassed p r

/-- A load at the head of its half's queue has failed its check (R206, R209). -/
def State.loadBad (s : State) (p : Nat × Nat) (r : LoadReq) : State :=
  if r.retries then s.modSub p fun c => { c with loads := putHead r.half (some { r with retried := true }) c.loads }
  else
    let s1 := s.modSub p fun c => { c.setHalf r.half none with loads := putHead r.half none c.loads }
    (s1.modTokens p r (TokenObj.ended false)).loadFailed p r

/-- A load at the head of its half's queue ends, brought whole or not: LDINJ counts it, and its check decides (R206, R209, R315,
R325). -/
def State.loadEnd (s : State) (p : Nat × Nat) (r : LoadReq) (whole : Bool) : State :=
  let (r1, s1) := s.decideLoad r
  if whole && s1.checkLoad r1 then s1.loadGood p r1 else s1.loadBad p r1

/-- A load at the head of its half's queue starts, once nothing holds the half and the set is translated (R205, R326). -/
def State.beginLoad (s : State) (p : Nat × Nat) (r : LoadReq) : State :=
  if s.halfHeld p r.half (fun c => some c == r.crew) || !((s.sets.find? r.set).map TransSet.ready).getD false then s
  else
    let s1 := s.modSub p fun c =>
      { (c.serve r.fn).setHalf r.half none with loads := putHead r.half (some { r with started := true }) c.loads }
    s1.modTokens p r TokenObj.start

/-- OVERLAY_LOAD_START: the load at the head of a half's queue starts; one that finds its overlay in the half passes at once, is
counted if LDINJ counts it, and is performed all the same if it is to be altered (R205, R315, R326). -/
def execOverlayLoadStart (core sub : Nat) (half : Bank) (s : State) : Out :=
  .next <|
    let p := (core, sub)
    match (s.sub p).head half with
    | none => s
    | some r =>
      if r.started then s
      else if (s.sub p).half half = some (r.set, r.overlay) then
        let (r1, s1) := s.decideLoad r
        if r1.altered then (s1.modSub p fun c => { c with loads := putHead half (some r1) c.loads }).beginLoad p r1
        else s1.loadGood p r1
      else s.beginLoad p r

/-- The started load of a half, of a kind that its own event ends. -/
def State.startedLoad (s : State) (p : Nat × Nat) (b : Bank) (f : LoadFor → Bool) : Option LoadReq :=
  match (s.sub p).head b with
  | some r => if r.started && f r.why then some r else none
  | none => none

/-- A load for a token, on demand, or at a restore. -/
def LoadFor.plain : LoadFor → Bool
  | .tokens => true
  | .demand .. => true
  | .restore _ => true
  | _ => false
/-- An entry fill. -/
def LoadFor.isEntry : LoadFor → Bool
  | .entry _ => true
  | _ => false
/-- The load of a handler's overlay. -/
def LoadFor.isDelivery : LoadFor → Bool
  | .delivery _ => true
  | _ => false

/-- OVERLAY_LOAD_DONE: a load ends, and is checked (R206, R210, R315, R448). -/
def execOverlayLoadDone (core sub : Nat) (half : Bank) (ok : Bool) (s : State) : Out :=
  .next <|
    match s.startedLoad (core, sub) half LoadFor.plain with
    | some r => s.loadEnd (core, sub) r ok
    | none => s

/-- ENTRY_FILL_DONE: an entry fill ends, and is checked (R260). -/
def execEntryFillDone (core sub : Nat) (ok : Bool) (s : State) : Out :=
  .next <|
    match s.startedLoad (core, sub) .a LoadFor.isEntry with
    | some r => s.loadEnd (core, sub) r ok
    | none => s

/-- DELIVERY_LOAD_DONE: the load of a handler's overlay ends, and is checked (R344). -/
def execDeliveryLoadDone (core sub : Nat) (half : Bank) (ok : Bool) (s : State) : Out :=
  .next <|
    match s.startedLoad (core, sub) half LoadFor.isDelivery with
    | some r => s.loadEnd (core, sub) r ok
    | none => s

/-! ### Forced reclaim (R210, R321) -/

/-- A team loses a half: its tokens become STALE, and what its BANK and return entries name is noted. -/
def State.loseHalf (s : State) (t : Team) (b : Bank) (n : Option Nat) : Team :=
  let t1 := t.staleTokens b
  match n with
  | some k => if t.status != .retired && s.codeHolds t b then
      let l := if t1.link.reclaimed.contains (b, k) then t1.link.reclaimed else (b, k) :: t1.link.reclaimed
      { t1 with link := { t1.link with reclaimed := l } }
    else t1
  | none => t1

/-- The loads that a forced reclaim leaves: those for tokens of the half are given up, its others start afresh. -/
def reclaimLoads (b : Bank) : List LoadReq → State → List LoadReq × State
  | [], s => ([], s)
  | r :: l, s =>
    if r.half = b && r.why == .tokens then reclaimLoads b l (s.giveUpLoad r).2
    else
      let (l1, s1) := reclaimLoads b l s
      ((if r.half = b then { r with started := false } else r) :: l1, s1)

/-- FORCED_RECLAIM: the hypervisor empties a half: a context whose BANK names it goes on only once it holds the overlay again
(R210, R321). -/
def execForcedReclaim (core sub : Nat) (half : Bank) (s : State) : Out :=
  .next <|
    let p := (core, sub)
    let s1 := (s.teamsAt p).foldl (fun s' e => s'.putTeam e.1 (s.loseHalf e.2 half (s.overlayIn e.2 half))) s
    let (l, s2) := reclaimLoads half (s1.sub p).loads s1
    s2.modSub p fun c => { c.setHalf half none with loads := l }

end Sys2Proof.Machine
end

