-- ==== Sys2Proof/Machine/Placement.lean ====
section
/-! DEFINITION. Where crews go: placement, stopping, saving, restoring, slices, halts (R226, R231, R235 to R240, R253, R256 to
R262, R319, R359, R373, R378, R384, R391, R397, R398, R448). -/

namespace Sys2Proof.Machine

/-! ### Room on a sub-core (R230, R256, R384, R409, R411) -/

/-- The crews placed on a sub-core. -/
def State.crewsAt (s : State) (p : Nat × Nat) : List (Nat × Crew) := s.crews.filter fun e => e.2.place == some p

/-- The sub-cores of a board that are in service (R384, R411). -/
def State.servingSubs (s : State) (b : Nat) : List (Nat × Nat) :=
  (boardSubs (brdSplit (s.brd b)) b).filter (s.subInService (brdSplit (s.brd b)))

/-- A sub-core uses a unit (R409): a column of its own, or a unit of its core. -/
def unitServes (u : UnitId) (m : Nat) (p : Nat × Nat) : Bool :=
  if u.kind = 9 then (modeColumns m p.2).any fun c => u.num == 4 * p.1 + c
  else decide (3 ≤ u.kind) && decide (u.kind ≤ 8) && u.num == p.1

/-- A sub-core uses a unit that is under test (R409). -/
def State.underTest (s : State) (m : Nat) (p : Nat × Nat) : Bool := s.dev.testing.any fun u => unitServes u m p

/-- The free contexts of a sub-core that holds some crews, rising. -/
def freeContexts (m : Nat) (l : List (Nat × Crew)) : List Nat :=
  (List.range (modeContexts m)).filter fun k => !l.any fun e => e.2.contexts.contains k

/-- Scratchpad bytes that crews take. -/
def scratchUsed (l : List (Nat × Crew)) : Nat := l.foldl (fun n e => n + e.2.scratchBytes + e.2.spill) 0

/-- A sub-core that holds some crews can take one more of a function, with so many teams and bytes. -/
def State.hasRoom (s : State) (v m : Nat) (p : Nat × Nat) (teams bytes : Nat) (l : List (Nat × Crew)) : Bool :=
  decide (p.2 < modeSubs m) && s.subInService m p && !s.underTest m p && l.all (fun e => e.2.fn == v)
    && decide (teams ≤ (freeContexts m l).length) && decide (scratchUsed l + bytes ≤ modeScratch m)

/-- A board serves a function now (R384). -/
def State.boardServes (s : State) (v b : Nat) : Bool :=
  let c := s.brd b
  !s.brdMoving b && decide (b < 24) &&
    ((brdMode c == 1 && brdVfa c == v) || (brdMode c == 2 && s.sliceVf b == some v) || (brdMode c == 3 && s.rated v))

/-- The launch of a crew fuses its boards (R257). -/
def State.fused (s : State) (cr : Crew) : Bool := ((s.launches.find? cr.launch).map fun l => l.pkt.fuse).getD false

/-! ### What waits for a place (R238, R253, R256 to R258) -/

/-- What a crew, or the crews of a table, ask of a place. -/
structure Claim where
  fn : Nat
  /-- crews, on distinct sub-cores of one board -/
  count : Nat
  fuse : Bool
  /-- split modes in which they can run -/
  modes : List Nat
  teams : Nat
  bytes : Nat
  /-- by split mode, the half that must hold an overlay of a set, or be free to take it -/
  halves : List (Nat × Bank × Nat × Nat)
  /-- the same, for each crew its own -/
  own : List (List (Nat × Bank × Nat × Nat)) := []
deriving DecidableEq, Repr

/-- A half holds an overlay of a set, or nothing holds the half. -/
def State.halfOk (s : State) (p : Nat × Nat) (b : Bank) (set ovl : Nat) (gone : Nat → Bool) : Bool :=
  (s.sub p).half b == some (set, ovl) || !s.halfHeld p b gone

/-- The halves of a sub-core serve what a crew needs of them in a split mode. -/
def State.halvesOk (s : State) (gone : Nat → Bool) (m : Nat) (p : Nat × Nat) (l : List (Nat × Bank × Nat × Nat)) : Bool :=
  l.all fun h => h.1 != m || s.halfOk p h.2.1 h.2.2.1 h.2.2.2 gone

/-- One crew of a claim finds room on a sub-core, once some crews have gone. -/
def State.claimAt (s : State) (k : Claim) (gone : Nat → Bool) (p : Nat × Nat) : Bool :=
  let m := brdSplit (s.brd (boardOf p.1))
  k.modes.contains m && s.hasRoom k.fn m p k.teams k.bytes ((s.crewsAt p).filter fun e => !gone e.1)
    && s.halvesOk gone m p k.halves && (k.own.isEmpty || k.own.any (s.halvesOk gone m p))

/-- Crews with needs of their own find one place each, no two the same. -/
def matchPlaces (ok : Nat × Nat → List (Nat × Bank × Nat × Nat) → Bool) : List (List (Nat × Bank × Nat × Nat)) → List (Nat × Nat) → Bool
  | [], _ => true
  | h :: l, ps => ps.any fun p => ok p h && matchPlaces ok l (ps.filter (· != p))

/-- A board has room for a claim, once some crews have gone. -/
def State.claimOn (s : State) (k : Claim) (gone : Nat → Bool) (b : Nat) : Bool :=
  let l := (s.boardCrews b).filter fun e => !gone e.1
  let ps := (boardSubs (brdSplit (s.brd b)) b).filter (s.claimAt k gone)
  decide (k.count ≤ ps.length) && !l.any (fun e => s.fused e.2) && (!k.fuse || l.isEmpty)
    && matchPlaces (s.halvesOk gone (brdSplit (s.brd b))) k.own ps

/-- A board that serves the function now has room for a claim, once some crews have gone. -/
def State.claimFits (s : State) (k : Claim) (gone : Nat → Bool) : Bool :=
  (List.range 24).any fun b => s.boardServes k.fn b && s.claimOn k gone b

/-- A claim that some board serving the function could meet, were it empty. -/
def State.claimCould (s : State) (k : Claim) : Bool := s.claimFits k fun _ => true

/-- The claim of a launch's next crew, or table: in the modes whose sets are translated. -/
def State.launchClaim (s : State) (l : Launch) : Claim :=
  { fn := l.fn, count := if l.pkt.cpt = 0 then 1 else min l.pkt.cpt (l.pkt.ncrew - l.next), fuse := l.pkt.fuse
    modes := (l.sets.filter fun e => ((s.sets.find? e.2).map TransSet.ready).getD false).map (·.1)
    teams := l.kern.teams, bytes := crewScratch l.kern l.pkt.scratch + l.kern.spill
    halves := l.sets.map fun e => (e.1, .a, e.2, l.kern.ovl) }

/-- The halves that a saved crew's state names. -/
def Crew.needs (cr : Crew) : List (Nat × Bank × Nat × Nat) :=
  (cr.needA.map fun n => (cr.split, .a, cr.set, n)).toList ++ (cr.needB.map fun n => (cr.split, .b, cr.set, n)).toList

/-- The claim of a saved crew, or of its table. -/
def State.restoreClaim (s : State) (id : Nat) (cr : Crew) : Claim :=
  { fn := cr.fn, count := (s.tableCrews id).length, fuse := s.fused cr, modes := [cr.split], teams := cr.nteam
    bytes := cr.scratchBytes + cr.spill, halves := [], own := (s.tableCrews id).map fun e => e.2.needs }

/-- A team of an evicted crew could go on: its object is complete, or cannot be read, or its monitored line has been written. -/
def State.teamWakes (s : State) (t : Team) : Bool :=
  match t.status with
  | .parked (.cjoin a) =>
    match t.answer 0 with
    | some (.data b) => (objOf (leNat b)).complete
    | some _ => true
    | none =>
      match s.checkAccess t (objAccess a) with
      | .error _ => true
      | .ok (.fabric _ _) => false
      | .ok p => !s.placeWaits (s.fnOf t) p && (objOf (s.loadNat p 16).1).complete
  | .parked .mwait => (t.link.monitor.map Monitor.hit).getD true
  | _ => false

/-- A checkpoint command runs (R423). -/
def State.checkpointing (s : State) : Bool := s.dev.ckstat.toNat % 4 == 1

/-- The restore condition of a saved crew holds, in itself or in a crew of its table. -/
def State.restorable (s : State) (id : Nat) (c : Crew) : Bool :=
  match c.status with
  | .saved .evict => (s.tableCrews id).any fun e => (s.teamsOf e.1).any fun t => s.teamWakes t.2
  | .saved _ => true
  | _ => false

/-- The claims of a function's saved crews that may be restored. -/
def State.restoreClaims (s : State) (v : Nat) : List Claim :=
  (s.crews.filter fun e => e.2.fn == v && s.restorable e.1 e.2).map fun e => s.restoreClaim e.1 e.2

/-- An evicted crew of a launch that may be restored is restored before a crew of a higher index begins (R238). -/
def State.heldBack (s : State) (id : Nat) : Bool :=
  s.crews.any fun e => e.2.launch == id && e.2.status == .saved .evict && s.restorable e.1 e.2

/-- Launches of a function with crews to place. -/
def State.placing (s : State) (v : Nat) : List (Nat × Launch) :=
  s.launches.filter fun e => e.2.fn == v && e.2.ready && !e.2.halted && decide (e.2.next < e.2.pkt.ncrew) && !s.heldBack e.1

/-- A launch is the one whose crew is chosen next among those that a board could take: the highest PRIO, then the lowest serial
(R253, log entry 25). -/
def State.firstLaunch (s : State) (id : Nat) (l : Launch) : Bool :=
  (s.placing l.fn).all fun e => e.1 == id || decide (e.2.pkt.prio < l.pkt.prio) ||
    (e.2.pkt.prio == l.pkt.prio && decide (l.serial.toNat < e.2.serial.toNat)) || !s.claimCould (s.launchClaim e.2)

/-- A saved crew of a function that may be restored goes before any new one (R253). -/
def State.restoreWaits (s : State) (v : Nat) : Bool := (s.restoreClaims v).any s.claimCould

/-- The claims chosen for a function: of its saved crews, else of its first launch (R253). -/
def State.chosen (s : State) (v : Nat) : List Claim :=
  if (s.fn v).state != .running then []
  else if s.restoreWaits v then (s.restoreClaims v).filter s.claimCould
  else ((s.placing v).filter fun e => s.firstLaunch e.1 e.2 && s.claimCould (s.launchClaim e.2)).map fun e => s.launchClaim e.2

/-- A function has a crew to place or to restore. -/
def State.wantsRoom (s : State) (v : Nat) : Bool := !(s.chosen v).isEmpty

/-- Pool sub-cores that a function holds. -/
def State.poolSubs (s : State) (v : Nat) : Nat :=
  ((List.range 24).filter fun b => brdMode (s.brd b) == 3).foldl (fun n b =>
    n + ((boardSubs (brdSplit (s.brd b)) b).filter fun p => (s.crewsAt p).any fun e => e.2.fn == v).length) 0

/-- GUAR of arbiter 0. -/
def State.issueShare (s : State) (v : Nat) : Nat := rateGuar ((s.fn v).rate 0)

/-- A function's ratio of pool sub-cores held to GUAR is below another's, the lower number winning a tie (R391). -/
def State.poolBefore (s : State) (v w : Nat) : Bool :=
  let a := s.poolSubs v * s.issueShare w
  let b := s.poolSubs w * s.issueShare v
  if s.issueShare v = 0 then s.issueShare w == 0 && decide (v < w)
  else if s.issueShare w = 0 then true
  else decide (a < b) || (a == b && decide (v < w))

/-- A pool sub-core goes to a function: one that is freed to the function for which it is, while that one waits, whoever still
stands there; a free one to the function with the lowest ratio (R391). -/
def State.poolTurn (s : State) (v : Nat) (p : Nat × Nat) : Bool :=
  brdMode (s.brd (boardOf p.1)) != 3 ||
    match (s.sub p).given.filter fun w => s.rated w && s.wantsRoom w with
    | some w => v == w
    | none => !(s.crewsAt p).isEmpty || (List.range 32).all fun w => w == v || !s.rated w || !s.wantsRoom w || s.poolBefore v w

/-! ### Starting crews (R229 to R231, R256 to R260, R319) -/

/-- A team at its start (R231). -/
def startTeam (l : Launch) (c index i : Nat) : Team :=
  { crew := c, index := i, nlane := l.kern.lanes
    regs := { srCrew := index, srTeam := i }
    ctl := { pc := l.kern.ovl * overlaySpan + l.kern.entry, active := maskOf l.kern.lanes fun _ => true, priv := l.priv } }

/-- CTXMAP: two bits for the context of each team. -/
def ctxMap : List Nat → Nat
  | [] => 0
  | k :: l => k % 4 + 4 * ctxMap l

/-- The boot mailbox of a crew as it is placed or restored: TRANS names its set, by a free value (R259, R326), and PRODUCER is 0
once the producer team has retired (log entry 134). -/
def State.writeMailbox (s : State) (c : Nat) (p : Nat × Nat) : State :=
  match s.crews.find? c with
  | none => s
  | some cr =>
    let w (n : Nat) : Word64 := BitVec.ofNat 64 n
    let l := s.launches.find? cr.launch
    let mail : List Word64 :=
      [ Config.transName cr.set, (l.map fun x => x.pkt.argbase).getD 0, (l.map Launch.serial).getD 0, w scrBase,
        w (cr.index + 2 ^ 32 * ((l.map fun x => x.pkt.ncrew).getD 0)), w (cr.table.getD 0 + 2 ^ 32 * cr.nteam + 2 ^ 48 * cr.nlane),
        w (ctxMap cr.contexts + 2 ^ 8 * cr.producer.getD 0 + 2 ^ 16 * cr.split + 2 ^ 24 * cr.fn), 0 ]
    s.modSub p fun x => { x with mailbox := mail, given := none }

/-- Place the next crew of a launch on a sub-core: its teams start once the entry overlay is there and the crews before it have
started (R256, R260). -/
def State.startCrew (s : State) (id : Nat) (p : Nat × Nat) : State :=
  match s.launches.find? id with
  | none => s
  | some l =>
    let m := brdSplit (s.brd (boardOf p.1))
    match l.sets.find? m with
    | none => s
    | some set =>
      let (c, s1) := s.newUid
      let k := l.kern
      let s2 := s1.modSub p fun x => x.serve l.fn
      let here := (s2.sub p).halfA == some (set, k.ovl)
      let cr : Crew :=
        { launch := id, fn := l.fn, index := l.next
          table := if l.pkt.cpt = 0 then none else some (l.next / l.pkt.cpt)
          split := m, place := some p, contexts := (freeContexts m (s.crewsAt p)).take k.teams
          status := .filling
          set := set, nteam := k.teams, nlane := k.lanes
          producer := some (if l.pkt.producer = 255 then k.producer else l.pkt.producer)
          scratchBytes := crewScratch k l.pkt.scratch, spill := k.spill }
      let teams := (List.range k.teams).foldl (fun t i => Tbl.insert t (4 * c + i) (startTeam l c l.next i)) s2.teams
      let s3 := ({ s2 with crews := s2.crews.insert c cr, teams := teams }.modLaunch id fun l => { l with next := l.next + 1 }).writeMailbox c p
      if here then s3.startDue id
      else s3.modSub p fun x =>
        { x with loads := x.loads ++ [{ half := .a, set := set, overlay := k.ovl, fn := l.fn, why := .entry c }] }

/-- A sub-core may take the next crew of a launch. -/
def State.placeOk (s : State) (id : Nat) (l : Launch) (p : Nat × Nat) : Bool :=
  let b := boardOf p.1
  (s.fn l.fn).state == .running && !s.checkpointing && l.ready && !l.halted && decide (l.next < l.pkt.ncrew)
    && s.boardServes l.fn b && s.claimOn (s.launchClaim l) noCrew b && s.claimAt (s.launchClaim l) noCrew p
    && !s.heldBack id && s.firstLaunch id l && !s.restoreWaits l.fn && s.poolTurn l.fn p

/-- CREW_PLACE: the next crew of a launch without tables (R256). -/
def execCrewPlace (launch core sub : Nat) (s : State) : Out :=
  .next <|
    match s.launches.find? launch with
    | none => s
    | some l => if l.pkt.cpt = 0 ∧ s.placeOk launch l (core, sub) then s.startCrew launch (core, sub) else s

/-- Distinct sub-cores of one board. -/
def distinctSubs (b : Nat) (l : List (Nat × Nat)) : Bool := l.all (fun p => boardOf p.1 == b) && decide l.Nodup

/-- TABLE_PLACE: the crews of the next table of a launch, one on each of distinct sub-cores of a board (R257). -/
def execTablePlace (launch board : Nat) (subs : List (Nat × Nat)) (s : State) : Out :=
  .next <|
    match s.launches.find? launch with
    | none => s
    | some l =>
      let n := min l.pkt.cpt (l.pkt.ncrew - l.next)
      if l.pkt.cpt ≠ 0 ∧ subs.length = n ∧ distinctSubs board subs ∧ subs.all (s.placeOk launch l) then subs.foldl (fun s p => s.startCrew launch p) s
      else s

/-! ### Stopping and saving (R235 to R238, R321, R338, R359) -/

/-- A crew has stopped and its work in flight is complete, but for what is suspended. -/
def State.crewQuiet (s : State) (c : Nat) : Bool :=
  (s.teamsOf c).all fun e => e.2.stands && e.2.quiet && !e.2.fabricBusy && !s.fab.requests.any fun r => r.uid == e.1

/-- The overlay that a crew's state names for a half. -/
def State.crewNeeds (s : State) (c : Nat) (b : Bank) : Option Nat :=
  ((s.teamsOf c).filterMap fun e => if s.teamHolds e.2 b then s.overlayIn e.2 b else none).head?

/-- The loads of a sub-core that a crew has left: those that others wait for stay, and the crew keeps those that its tokens wait
for, which share one decision of LDINJ with what was under way (R321); the others are given up. -/
def splitLoads (p : Nat × Nat) (mine : LoadReq → Bool) : List LoadReq → State → List LoadReq × List LoadReq × State
  | [], s => ([], [], s)
  | r :: l, s =>
    let wanted := s.loadWanted p r
    let stays := wanted || s.tokensWant p r
    let (r1, s1) := if stays then (r, s) else s.giveUpLoad r
    let (kept, saved, s2) := splitLoads p mine l s1
    (if stays then (if wanted then r1 else { r1 with why := .tokens }) :: kept else kept,
      if mine r then { r1 with started := false, why := .tokens } :: saved else saved, s2)

/-- A team as its context is saved: what it asked of other nodes while it was parked is asked again, and the loads of its tokens
are no longer under way. -/
def Team.packed (t : Team) : Team :=
  let drop (o : TokenObj) : TokenObj := if o.state = .loading then { o with started := false } else o
  let l : Pool TokenObj := t.link.tokens.map fun k => (k.1, { k.2 with obj := k.2.obj.map drop })
  { t with link := { t.link with answers := [], tokens := l } }

/-- A crew leaves its sub-core with its state saved (R237, R321, R359). -/
def State.saveCrew (s : State) (c : Nat) (why : StopWhy) : State :=
  match s.crews.find? c with
  | none => s
  | some cr =>
    match cr.place with
    | none => s
    | some p =>
      let mine (r : LoadReq) : Bool := r.set == cr.set && (s.teamsOf c).any fun e => e.2.tokenWants r
      let needA := if cr.live then s.crewNeeds c .a else cr.needA
      let needB := if cr.live then s.crewNeeds c .b else cr.needB
      let s1 := ((s.teamsOf c).filter fun e => e.2.status != .retired).foldl (fun s e => s.traceTeam e.2 4 (s.pcOf e.2) 0) s
      let s2 := s1.modCrew c fun x => { x with
        status := .saved why, place := none, contexts := [], needA := needA, needB := needB }
      let (kept, saved, s3) := splitLoads p mine (s2.sub p).loads s2
      let s4 := (s3.modSub p fun x => { x with loads := kept }).modCrew c fun x => { x with savedLoads := saved }
      (s4.teamsOf c).foldl (fun s e => s.modTeam e.1 Team.packed) s4

/-- The entry overlay of a crew's kernel. -/
def State.entryOverlay (s : State) (cr : Crew) : Option Nat := (s.launches.find? cr.launch).map fun l => l.kern.ovl

/-- Ask a crew to stop: its parked teams stand at safe points; one whose teams have not begun to issue is saved at once. -/
def State.stopCrew (s : State) (c : Nat) (why : StopWhy) : State :=
  match s.crews.find? c with
  | none => s
  | some cr =>
    match cr.status with
    | .running =>
      let s1 := s.modCrew c fun x => { x with status := .stopping why }
      (s1.teamsOf c).foldl (fun s e => if e.2.stands then s.putTeam e.1 (s.atSafePoint e.2) else s) s1
    | .filling => (s.modCrew c fun x => { x with needA := s.entryOverlay cr, needB := none }).saveCrew c why
    | .restoring => s.saveCrew c why
    | _ => s

/-- Ask a crew, and its table, to stop (R237). -/
def State.stopTable (s : State) (c : Nat) (why : StopWhy) : State := (s.tableCrews c).foldl (fun s e => s.stopCrew e.1 why) s

/-- A crew is evictable (R238). -/
def State.evictable (s : State) (c : Nat) : Bool :=
  (s.tableCrews c).all fun e => e.2.status == .running && (s.teamsOf e.1).all fun t =>
    match t.2.status with
    | .retired => true
    | .parked (.cjoin _) => true
    | .parked .mwait => true
    | _ => false

/-- The serial of a crew's launch. -/
def State.crewSerial (s : State) (cr : Crew) : Nat := ((s.launches.find? cr.launch).map fun l => l.serial.toNat).getD 0

/-- Sub-cores that a function holds: of its boards, and of the pool. -/
def State.heldSubs (s : State) (v : Nat) : Nat :=
  ((s.boardsOf v).foldl (fun n b => n + (s.servingSubs b).length) 0) + s.poolSubs v

/-- The functions that share a function's save area: the rated ones share the pool's (R386). -/
def State.areaSharers (s : State) (v : Nat) : List Nat := if s.rated v then (List.range 32).filter s.rated else [v]

/-- SAVEAREA (R386). -/
def State.savearea (s : State) (v : Nat) : Nat := 2 ^ 28 * (s.groups v).length

/-- Bytes of save area that a crew takes. -/
def Crew.saved (cr : Crew) : Nat := Config.saveBytes cr.scratchBytes cr.nteam

/-- The save area has room for an eviction, beside what saved crews and those being evicted take, and what is kept for every held
sub-core (R359, R386). -/
def State.saveRoom (s : State) (v bytes : Nat) : Bool :=
  let l := s.areaSharers v
  let taken := (s.crews.filter fun e => l.contains e.2.fn && (e.2.place.isNone || e.2.status == .stopping .evict)).foldl
    (fun n e => n + e.2.saved) 0
  let kept := l.foldl (fun n w => n + 2 ^ 22 * s.heldSubs w) 0
  decide (taken + kept + bytes ≤ s.savearea v)

/-- A crew is being evicted. -/
def State.leaving (s : State) (c : Nat) : Bool := ((s.crews.find? c).map Crew.status) == some (.stopping .evict)

/-- A claim asks for one sub-core, and not for a board. -/
def Claim.single (k : Claim) : Bool := k.count == 1 && !k.fuse

/-- Two places lie together: on one sub-core, or for a table on one board. -/
def placesMeet (k : Claim) (p q : Nat × Nat) : Bool := if k.single then p == q else boardOf p.1 == boardOf q.1

/-- Evicting a crew makes way for a claim that fits nowhere, even without the crews already leaving (R258): the evictable crews of
its sub-core, or of its board for a table, make room, each with its whole table, and it is of the highest serial among them. -/
def State.evictFor (s : State) (k : Claim) (c : Nat) (cr : Crew) (p : Nat × Nat) : Bool :=
  let near (e : Nat × Crew) : Bool := e.2.fn == cr.fn && (s.tableCrews e.1).any fun x => (x.2.place.map (placesMeet k p)).getD false
  let gone (i : Nat) : Bool := s.leaving i || (s.evictable i && ((s.crews.find? i).map fun x => near (i, x)).getD false)
  !s.claimFits k s.leaving && s.boardServes cr.fn (boardOf p.1)
    && s.claimOn k gone (boardOf p.1) && (!k.single || s.claimAt k gone p)
    && s.crews.all fun e =>
      (!(s.leaving e.1 && e.2.fn == cr.fn) || near e)
        && (e.1 == c || !near e || !s.evictable e.1 || decide (s.crewSerial e.2 ≤ s.crewSerial cr))

/-- A crew may be evicted for the crew chosen next of its function, and the save area has room for it (R258, R359). -/
def State.evictOk (s : State) (c : Nat) (cr : Crew) : Bool :=
  match cr.place with
  | none => false
  | some p => s.evictable c && s.saveRoom cr.fn ((s.tableCrews c).foldl (fun n e => n + e.2.saved) 0)
      && (s.chosen cr.fn).any fun k => s.evictFor k c cr p

/-- A function's guaranteed pool sub-cores (R391). -/
def State.poolDue (s : State) (v : Nat) : Nat :=
  let n := ((List.range 24).filter fun b => brdMode (s.brd b) == 3).foldl (fun n b => n + (s.servingSubs b).length) 0
  s.issueShare v * n / 1024

/-- A sub-core of the pool is free. -/
def State.poolFree (s : State) : Bool :=
  ((List.range 24).filter fun b => brdMode (s.brd b) == 3).any fun b =>
    let m := brdSplit (s.brd b)
    (boardSubs m b).any fun p => (s.crewsAt p).isEmpty && s.subInService m p && !s.underTest m p

/-- The rated functions that hold less than their share of the pool while a crew of theirs waits, none of its sub-cores free, and
for which none has been freed yet. -/
def State.poolStarved (s : State) : List Nat :=
  if s.poolFree then []
  else (List.range 32).filter fun w => s.rated w && decide (s.poolSubs w < s.poolDue w) && s.wantsRoom w
    && !s.subs.any fun e => e.2.given == some w

/-- The function for which a sub-core of the pool is to be freed: of those, the one with the lowest ratio (R391). -/
def State.poolTaker (s : State) : Option Nat :=
  List.find? (fun v => s.poolStarved.all fun w => w == v || s.poolBefore v w) s.poolStarved

/-- A sub-core of the pool may be taken from a crew's function: the rated one that exceeds its share the most. -/
def State.poolStopOk (s : State) (cr : Crew) (p : Nat × Nat) : Bool :=
  let excess := fun v => s.poolSubs v - s.poolDue v
  brdMode (s.brd (boardOf p.1)) == 3 && decide (s.poolDue cr.fn < s.poolSubs cr.fn)
    && ((List.range 32).filter s.rated).all fun w => decide (excess w ≤ excess cr.fn)

/-- The crews of a pool sub-core stop, for a function that waits for one (R391). -/
def State.poolStop (s : State) (cr : Crew) : State :=
  match cr.place, s.poolTaker with
  | some p, some w =>
    if s.poolStopOk cr p then
      (s.crewsAt p).foldl (fun s e => s.stopTable e.1 .pool) (s.modSub p fun x => { x with given := some w })
    else s
  | _, _ => s

/-- PREEMPT_REQUEST: a crew is to stop, by pre-emption (0), to be evicted (1), or to give up its pool sub-core (2) (R237,
R258, R391). -/
def execPreemptRequest (crew why : Nat) (s : State) : Out :=
  .next <|
    match s.crews.find? crew with
    | none => s
    | some cr =>
      if why = 0 then s.stopTable crew .preempt
      else if why = 1 then (if s.evictOk crew cr then s.stopTable crew .evict else s)
      else s.poolStop cr

/-- CREW_SAVE_DONE: a stopping crew whose work is complete is saved (R237, R359). -/
def execCrewSaveDone (crew : Nat) (s : State) : Out :=
  .next <|
    match (s.crews.find? crew).map Crew.status with
    | some (.stopping why) => if s.crewQuiet crew then s.saveCrew crew why else s
    | _ => s

/-! ### Restoring (R237, R321, R448) -/

/-- The load of a half that a restored crew needs. -/
def State.needLoad (s : State) (p : Nat × Nat) (c : Nat) (cr : Crew) (b : Bank) (need : Option Nat) : List LoadReq :=
  match need with
  | none => []
  | some n => if (s.sub p).half b = some (cr.set, n) then [] else
      [{ half := b, set := cr.set, overlay := n, fn := cr.fn, why := .restore c }]

/-- The load of a handler's overlay that a saved delivery waits for. -/
def deliveryLoad (cr : Crew) (e : Nat × Team) : Option LoadReq :=
  match e.2.link.delivery, e.2.status with
  | some _, .parked (.reload b n _) => some { half := b, set := cr.set, overlay := n, fn := cr.fn, why := .delivery e.1 }
  | _, _ => none

/-- A team resumes: its monitor is hit, its next marker resynchronises, and an instruction that waited for a load is performed
again (R164, R237, R368). -/
def Team.resume (t : Team) : Team :=
  let u : Team := { t with link := { t.link with
    stopped := false, resync := true, monitor := t.link.monitor.map fun m => { m with hit := true } } }
  match t.status, t.link.delivery with
  | .parked (.reload ..), none => { u with status := if t.link.probe.isSome then .parked .probe else .runnable }
  | _, _ => u

/-- Restore a saved crew on a sub-core: its teams go on once the overlays that its state names are there. -/
def State.restoreCrew (s : State) (c : Nat) (p : Nat × Nat) : State :=
  match s.crews.find? c with
  | none => s
  | some cr =>
    let s1 := s.modSub p fun x => x.serve cr.fn
    let loads := s1.needLoad p c cr .a cr.needA ++ s1.needLoad p c cr .b cr.needB
    let ds := (s.teamsOf c).filterMap (deliveryLoad cr)
    let s2 := s1.modCrew c fun x => { x with
      place := some p, contexts := (freeContexts cr.split (s.crewsAt p)).take cr.nteam, savedLoads := [], status := .restoring }
    let again := cr.savedLoads.filter fun r => !(s.sub p).loads.any fun q =>
      q.half == r.half && q.set == r.set && q.overlay == r.overlay && q.inj == r.inj
    let s3 := (s2.writeMailbox c p).modSub p fun x => { x with loads := x.loads ++ loads ++ ds ++ again }
    let s4 := (s3.teamsOf c).foldl (fun s e => s.modTeam e.1 Team.resume) s3
    let s5 := ((s4.teamsOf c).filter fun e => e.2.status != .retired).foldl (fun s e =>
      s.traceTeam e.2 5 (s.pcOf e.2) (BitVec.ofNat 64 ((Config.transName cr.set).toNat % 2 ^ 32))) s4
    s5.crewReady c

/-- A saved crew may go to a sub-core. -/
def State.restoreOk (s : State) (c : Nat) (cr : Crew) (p : Nat × Nat) : Bool :=
  s.restorable c cr && (s.fn cr.fn).state == .running && !s.checkpointing && s.boardServes cr.fn (boardOf p.1)
    && s.claimAt { s.restoreClaim c cr with own := [cr.needs] } noCrew p && s.claimOn (s.restoreClaim c cr) noCrew (boardOf p.1)
    && s.poolTurn cr.fn p

/-- CREW_RESTORE: a saved crew, or the crews of its table in their order, are placed again (R237, R253, R258, R448). -/
def execCrewRestore (crew : Nat) (subs : List (Nat × Nat)) (s : State) : Out :=
  .next <|
    let l := s.tableCrews crew
    match subs with
    | [] => s
    | p :: _ =>
      if l.length = subs.length ∧ distinctSubs (boardOf p.1) subs ∧ (l.zip subs).all (fun e => s.restoreOk e.1.1 e.1.2 e.2) then
        (l.zip subs).foldl (fun s e => s.restoreCrew e.1.1 e.2) s
      else s

/-! ### The quantum, retirement (R204, R262) -/

/-- QUANTUM_EXPIRY: the selected context has issued its quantum (R262). -/
def execQuantumExpiry (core sub : Nat) (s : State) : Out := .next (s.rotate (core, sub))

/-- TEAM_RETIRE: a team all of whose lanes have exited, and whose work is complete, retires (R181, R204). -/
def execTeamRetire (uid : Nat) (s : State) : Out :=
  .next <|
    match s.teams.find? uid with
    | none => s
    | some t => if t.status = .parked .exit ∧ s.crewRuns t ∧ s.exitReady uid t then s.retireTeam uid else s

/-! ### Slices (R378, R397, R398) -/

/-- The function of a place in a sliced board's round (R378). -/
def sliceAt (c : Word64) (pos : Nat) : Nat := if pos % (brdSla c + brdSlb c) < brdSla c then brdVfa c else brdVfb c

/-- Write withheld completions of a function in order, until one has to wait. -/
def deliverHeld (v : Nat) : List Completion → State → State
  | [], s => s
  | c :: l, s =>
    if s.deliveryWaits c then s.modFn v fun f => { f with withheld := c :: l } else deliverHeld v l (s.deliver c)

/-- Withheld items of a function are released: its writes in order, then its messages, which follow the last write (R398). -/
def State.release (s : State) (v : Nat) : State :=
  let f := s.fn v
  let s1 := deliverHeld v f.withheld (s.modFn v fun f => { f with withheld := [], msix := [] })
  if (s1.fn v).withheld.isEmpty then f.msix.foldl (fun s n => s.sendMsi v n) s1
  else s1.modFn v fun g => { g with msix := f.msix }

/-- A function has a crew placed on a board, or one ready to place there (R378). -/
def State.sliceUsed (s : State) (v b : Nat) : Bool :=
  (s.fn v).state == .running && (((s.boardCrews b).any fun e => e.2.fn == v)
    || (s.restoreClaims v ++ (s.placing v).map fun e => s.launchClaim e.2).any fun k => s.claimOn k (fun _ => true) b)

/-- The slices that a board gives one of its functions in a round. -/
def sliceCount (c : Word64) (v : Nat) : Nat := if brdVfa c = v then brdSla c else brdSlb c

/-- SLICE_EXPIRY: the running slice of a board ends, and its crews stop; where the slices of the other function all end at once,
the crews keep the board (R378, R380, log entry 110). -/
def execSliceExpiry (board : Nat) (s : State) : Out :=
  .next <|
    match (s.slice board).running with
    | none => s
    | some v =>
      let c := s.brd board
      let pos := (s.slice board).pos + 1
      let w := sliceAt c pos
      if w ≠ v ∧ s.sliceUsed w board = false then
        (s.release w).setSlice board c (pos + sliceCount c w) (some v)
      else
        ((s.boardCrews board).foldl (fun s e => s.stopTable e.1 .slice) s).setSlice board c pos none

/-- The store halves of a board's empty sub-cores are emptied (R320, R378). -/
def State.emptyHalves (s : State) (b : Nat) : State :=
  ((boardSubs (brdSplit (s.brd b)) b).filter fun p => (s.crewsAt p).isEmpty).foldl
    (fun s p => s.modSub p fun x => { x with halfA := none, halfB := none }) s

/-- A slice of a board begins: the halves are empty, withheld items go out, and the function runs, or its slice ends at once. -/
def State.beginSlice (s : State) (b pos v : Nat) : State :=
  let c := s.brd b
  let s1 := ((s.emptyHalves b).setSlice b c pos (some v)).release v
  if s1.sliceUsed v b then s1 else s1.setSlice b c (pos + 1) none

/-- The round of a board begins under the value that now governs: VFA's slices end at once when it has no use of them, and the
crews of the function whose slice it is not stop before the slice begins (R378, R380, log entry 110). -/
def State.beginRound (s : State) (b : Nat) : State :=
  let c := s.brd b
  let pos := if s.sliceUsed (brdVfa c) b || !s.sliceUsed (brdVfb c) b then 0 else brdSla c
  let others := (s.boardCrews b).filter fun e => e.2.fn != sliceAt c pos
  if others.isEmpty then s.beginSlice b pos (sliceAt c pos) else others.foldl (fun s e => s.stopTable e.1 .slice) s

/-- SLICE_START: the first slice of a round under a new value, or the next one of a board whose crews have stopped (R373, R378,
R398). -/
def execSliceStart (board : Nat) (s : State) : Out :=
  .next <|
    let c := s.brd board
    if brdMode c ≠ 2 ∨ s.brdMoving board then s
    else if s.slice board = {} then s.beginRound board
    else if (s.slice board).running.isSome ∨ !(s.boardCrews board).isEmpty then s
    else s.beginSlice board (s.slice board).pos (sliceAt c (s.slice board).pos)

end Sys2Proof.Machine
end

