-- ==== Sys2Proof/Machine/Groups.lean ====
section
/-! DEFINITION. Transaction groups: the meanings of major 28, the messages between origin and destinations, publication,
queries, doubts (R214 to R219, R424, R426, R439, R441 to R445, R447). -/

namespace Sys2Proof.Machine

/-! ### At the origin -/

/-- TG_STATE's code of a phase (R219). -/
def GroupPhase.code : GroupPhase → Nat
  | .open_ => 0
  | .preparing => 1
  | .committed => 2
  | .aborted => 2
  | .done => 3

/-- A TG_STATE trap (R219). -/
def tgTrap (reason : Nat) (phase : GroupPhase) (addr : Word64) : Trap :=
  { cause := .tgState, addr := addr, info := BitVec.ofNat 32 (reason % 16 + phase.code * 16) }

/-- TGQ of QUOTA (R375). -/
def Fn.groupQuota (f : Fn) : Nat := f.quota.toNat / 2 ^ 32 % 2 ^ 13

/-- A message of a group that this package opened under a number. -/
def State.namesGroup (s : State) (num : Nat) (m : GroupMsg) : Bool := m.gid.origin == s.node && m.gid.number == num

/-- A record of a group under a number may exist: the group is not over, or a message of it, its FORGET among them, has not been
delivered (R439). -/
def State.numberOpen (s : State) (num : Nat) : Bool :=
  (s.fab.groups.find? num).isSome
    || (s.fab.wires.any fun w => match w.body with
      | .group m => s.namesGroup num m
      | _ => false)
    || s.agenda.any fun a => match a with
      | .message m => s.namesGroup num m
      | _ => false

/-- A free group number: the next one under which no record may exist (R439). -/
def State.groupNumber (s : State) : Option Nat :=
  (List.find? (fun i => !s.numberOpen ((s.fab.nextGroup + i) % 65536)) (List.range 65536)).map fun i =>
    (s.fab.nextGroup + i) % 65536

/-- A group is free for a function: fewer than 4,096 are open, and fewer than its share (R215, R439). -/
def State.groupFree (s : State) (v : Nat) : Bool :=
  let l := s.fab.groups.filter fun e => !e.2.freed
  decide (l.length < 4096) && decide ((l.filter fun e => e.2.fn == v).length < (s.fn v).groupQuota)

/-- tg.open (R214, R215). Where it has no group to report, its TG_STATE reports state OPEN (log entry 130). -/
def execTgOpen (g : Option Guard) (h : Nat) (s : State) : Out :=
  uniOp s g fun uid t =>
    match Pool.lowest t.link.groups 16 with
    | none => s.raise uid { cause := .handle, info := engInfo 2 8 0 }
    | some slot =>
      match (if s.groupFree (s.fnOf t) then s.groupNumber else none) with
      | none => s.raise uid (tgTrap 1 .open_ 0)
      | some n =>
        let x : Group := { fn := s.fnOf t, uid := uid }
        let s1 := { s with fab := { s.fab with groups := s.fab.groups.insert n x, nextGroup := (n + 1) % 65536 } }
        s1.putTeam uid { t.advance with
          regs := { t.regs with hh := t.regs.hh.set 0 h (Pool.handle t.link.groups slot) }
          link := { t.link with groups := Pool.put t.link.groups slot { number := n } } }

/-- The check of an h handle (R171, R175): its slot, its group's number, and the group. -/
def State.groupAt (s : State) (t : Team) (h : Nat) : Except Trap (Nat × Nat × Group) :=
  let x := t.regs.hh.get 0 h
  match Pool.live t.link.groups x with
  | none => .error (handleTrap 1 8 x)
  | some o =>
    match s.fab.groups.find? o.number with
    | none => .error (handleTrap 1 8 x)
    | some g => .ok (slotOf x, o.number, g)

/-- Where a staged store goes: its node, and the address that its message names; a host bus address stands above 2^60. -/
def State.stageTarget (s : State) : Place → Option (Nat × Nat)
  | .fabric n r => some (n, r)
  | .gpa _ a => some (s.node, a)
  | .host a => some (s.node, 2 ^ 60 + a)
  | _ => none

/-- Stage one store of a group: the destination counts one more. -/
def State.stageOne (s : State) (num : Nat) (dst raddr : Nat) (data : List Byte) : State :=
  match s.fab.groups.find? num with
  | none => s
  | some g =>
    let d := g.dests.get {} dst
    let s1 := s.modGroup num fun g => { g with dests := g.dests.insert dst { d with count := d.count + 1 } }
    s1.sendGroup { gid := s.gid num g, src := s.node, dst := dst, body := .staged raddr data }

/-- tst.bN (R216): where earlier lanes name the same bytes, the value that a lane stages is that of any of them. On a DONE group
it traps as on a DECIDED one (DESIGN CHOICE, log entry 108). -/
def tstOp (s : State) (g : Option Guard) (t xb vo h log2 : Nat) : Out :=
  withTeam s fun uid tm =>
    let size := 2 ^ log2
    let ls := maskLanes tm.nlane (tm.lanes g)
    let ea := fun l => tm.ea xb vo 0 size l
    if ls.isEmpty then s.putTeam uid tm.advance
    else
      match s.groupAt tm h with
      | .error tr => s.raise uid tr
      | .ok (_, num, gr) =>
        if gr.phase ≠ .open_ then s.raise uid (tgTrap 2 gr.phase 0)
        else
          runLanes uid (0, false) (fun s l =>
            let x : Access := { addr := ea l, size := size, log2 := log2, rd := false, wr := true, lane := l }
            if ea l % size = 0 ∧ inLocal (ea l) then .trap (tgTrap 3 gr.phase (BitVec.ofNat 64 (ea l)))
            else
              match s.checkAccess (s.teamD uid) x with
              | .error tr => .trap tr
              | .ok p =>
                match s.stageTarget p with
                | none => .trap (tgTrap 3 gr.phase (BitVec.ofNat 64 (ea l)))
                | some (dst, raddr) =>
                  let same := ls.filter fun k => decide (k ≤ l) && !Mask.has tm.ctl.skip k && ea k == ea l
                  let (k, s1) := s.pick same
                  .done (s1.stageOne num dst raddr (leBytes size (tm.regs.storeLane t size (k.getD l)))))
            id ls s tm.ctl.skip

/-- tst.b32 (R216). -/
def execTstB32 (g : Option Guard) (t xb vo h : Nat) (s : State) : Out := tstOp s g t xb vo h 2
/-- tst.b64 (R216). -/
def execTstB64 (g : Option Guard) (t xb vo h : Nat) (s : State) : Out := tstOp s g t xb vo h 3
/-- tst.b128 (R216). -/
def execTstB128 (g : Option Guard) (t xb vo h : Nat) (s : State) : Out := tstOp s g t xb vo h 4

/-- A group has every answer or loss that it waits for after COMMIT or ABORT: FORGET goes out, and it is DONE (R443). -/
def State.finishGroup (s : State) (num : Nat) : State :=
  match s.fab.groups.find? num with
  | none => s
  | some g =>
    if g.told && g.phase != .done && g.dests.all fun d => d.2.st == .acked || d.2.st == .lost then
      let s1 := s.modGroup num fun g => { g with phase := .done }
      let acked := (g.dests.filter fun d => d.2.st == .acked).map (·.1)
      let s2 := acked.foldl (fun s d => s.sendGroup { gid := s.gid num g, src := s.node, dst := d, body := .forget }) s1
      if g.freed then s2.takeGroup num else s2
    else s

/-- The first destination of a group that is lost. -/
def Group.firstLost (g : Group) : Option Nat := (List.find? (fun d : Nat × GroupDest => d.2.st == .lost) g.dests).map (·.1)

/-- Send PREPARE to every destination with its count (R217, R441). -/
def State.prepareGroup (s : State) (num : Nat) (g : Group) (upto : Nat) : State :=
  let s1 := s.modGroup num fun g => { g with
    phase := .preparing, upto := upto, dests := g.dests.map fun d => (d.1, { d.2 with st := if d.2.st = .lost then .lost else .asked }) }
  match g.firstLost with
  | some n =>
    let s2 := s1.modGroup num fun g => { g with dests := g.dests.map fun d => (d.1, { d.2 with st := if d.2.st = .lost then .lost else .open_ }) }
    s2.abortGroup num 5 (some n)
  | none =>
    g.dests.foldl (fun s d =>
      s.sendGroup { gid := s.gid num g, src := s.node, dst := d.1, body := .prepare d.2.count (g.dests.map (·.1)) }) s1

/-- tg.commit (R214, R217, R437, R443); a group with no staged store is DONE at once. On a DONE group it traps as on a DECIDED
one (DESIGN CHOICE, log entry 108). -/
def execTgCommit (g : Option Guard) (h : Nat) (s : State) : Out :=
  uniOp s g fun uid t =>
    match s.groupAt t h with
    | .error tr => s.raise uid tr
    | .ok (_, num, gr) =>
      if gr.phase ≠ .open_ then s.raise uid (tgTrap 2 gr.phase 0)
      else
        match t.link.fabricFault with
        | some f => s.raise uid (writeFaultTrap f)
        | none =>
          let s1 := s.putTeam uid t.advance
          if gr.dests.isEmpty then s1.modGroup num fun g => { g with phase := .done, outcome := 1 }
          else s1.prepareGroup num gr t.eng.fabIssued

/-- tg.abort (R214, R217). On a DONE group it traps as on a DECIDED one (DESIGN CHOICE, log entry 108). -/
def execTgAbort (g : Option Guard) (h : Nat) (s : State) : Out :=
  uniOp s g fun uid t =>
    match s.groupAt t h with
    | .error tr => s.raise uid tr
    | .ok (_, num, gr) =>
      if gr.phase ≠ .open_ then s.raise uid (tgTrap 2 gr.phase 0)
      else (s.putTeam uid t.advance).abortGroup num 1 none

/-- tg.wait (R214, R218). -/
def execTgWait (g : Option Guard) (t h : Nat) (s : State) : Out :=
  uniOp s g fun uid tm =>
    match s.groupAt tm h with
    | .error tr => s.raise uid tr
    | .ok (slot, _, gr) =>
      if gr.phase = .open_ then s.raise uid (tgTrap 2 gr.phase 0) else s.park uid (.tgWait t slot)

/-! ### Answers at the origin (R443) -/

/-- A message names a group of this package. -/
def State.ownGroup (s : State) (gid : GroupId) : Option Group :=
  if gid.origin = s.node then
    match s.fab.groups.find? gid.number with
    | some g => if g.fn = gid.vf then some g else none
    | none => none
  else none

/-- How a destination stands, changed. -/
def State.setDest (s : State) (num n : Nat) (st : DestState) : State :=
  s.modGroup num fun g => { g with dests := g.dests.modify n fun d => { d with st := st } }

/-- A destination has been asked and has not answered. -/
def Group.asked (g : Group) (n : Nat) : Bool := (g.dests.find? n).any fun d => d.st == .asked

/-- A destination answers READY. -/
def State.groupReady (s : State) (gid : GroupId) (src : Nat) : State :=
  match s.ownGroup gid with
  | none => s
  | some g =>
    if g.asked src then
      let s1 := s.setDest gid.number src .ready
      if g.phase = .preparing then s1.decideGroup gid.number else s1.tellGroup gid.number
    else s

/-- A destination answers REFUSE: the first one decides the group. -/
def State.groupRefuse (s : State) (gid : GroupId) (src reason : Nat) : State :=
  match s.ownGroup gid with
  | none => s
  | some g =>
    if g.asked src then
      let s1 := s.setDest gid.number src (.refused reason)
      if g.phase = .preparing then s1.abortGroup gid.number reason (some src) else s1.tellGroup gid.number
    else s

/-- A destination acknowledges COMMIT or ABORT; one whose function was reset after READY has not published. -/
def State.groupAck (s : State) (gid : GroupId) (src : Nat) (reset : Bool) : State :=
  match s.ownGroup gid with
  | none => s
  | some g =>
    if g.told && (g.dests.find? src).any (fun d => d.st != .acked && d.st != .lost) then
      let s1 := s.setDest gid.number src .acked
      let s2 :=
        if reset && g.phase == .committed && g.reason == 0 then
          s1.modGroup gid.number fun g => { g with reason := 4, node := some src }
        else s1
      s2.finishGroup gid.number
    else s

/-- A destination of a group of this package is lost (R443, R447). -/
def State.groupLoses (s : State) (num n : Nat) : State :=
  match s.fab.groups.find? num with
  | none => s
  | some g =>
    if g.phase != .done && (g.dests.find? n).any (fun d => d.st != .acked && d.st != .lost) then
      let s1 := s.setDest num n .lost
      match g.phase with
      | .preparing => s1.abortGroup num 5 (some n)
      | .committed =>
        let s2 := if g.reason = 0 then s1.modGroup num fun g => { g with reason := 5, node := some n } else s1
        s2.finishGroup num
      | .aborted => (s1.tellGroup num).finishGroup num
      | _ => s1
    else s

/-! ### At a destination (R426, R441, R442, R445) -/

/-- The record of a group, if this package holds one. -/
def State.rec? (s : State) (gid : GroupId) : Option DestRec := List.find? (fun r => r.gid == gid) s.fab.recs

/-- Put a record in place of the one of its group, or add it. -/
def State.putRec (s : State) (r : DestRec) : State :=
  let l := s.fab.recs
  let l' := if l.any fun x => x.gid == r.gid then l.map fun x => if x.gid = r.gid then r else x else l ++ [r]
  { s with fab := { s.fab with recs := l' } }

/-- Drop the record of a group. -/
def State.dropRec (s : State) (gid : GroupId) : State :=
  { s with fab := { s.fab with recs := s.fab.recs.filter fun r => r.gid != gid, indoubt := s.fab.indoubt.filter (· != gid) } }

/-- The 64-byte granules that a record's stores touch, rising. -/
def granules (l : List Host.Cell) : List Nat := (l.map fun c => c.1 / 64).eraseDups

/-- Bytes that the groups of a function are charged here (R426). -/
def State.stageCharge (s : State) (v : Nat) : Nat :=
  ((s.fab.recs.filter fun r => r.gid.vf == v).map fun r => 64 * (granules r.bytes).length).foldl (· + ·) 0

/-- Records that count towards the 16,384: the REFUSED ones do not. -/
def State.recCount (s : State) : Nat :=
  (s.fab.recs.filter fun r => match r.st with
    | .refused _ => false
    | _ => true).length

/-- The discarded group whose stores may still come, if a store is one of them. -/
def State.late? (s : State) (gid : GroupId) : Option LateStores := List.find? (fun x => x.gid == gid) s.fab.late

/-- Nothing more comes, or is known to come, of a discarded group. -/
def State.dropLate (s : State) (gid : GroupId) : State :=
  { s with fab := { s.fab with late := s.fab.late.filter fun x => x.gid != gid } }

/-- A discarded group awaits the stores that have not come, unless its PREPARE shows that all have. -/
def State.awaitLate (s : State) (x : LateStores) : State :=
  let s1 := s.dropLate x.gid
  if x.total = some x.arrived then s1 else { s1 with fab := { s1.fab with late := s1.fab.late ++ [x] } }

/-- A record is discarded while stores of its group may still come. -/
def State.discardRec (s : State) (r : DestRec) : State :=
  (s.dropRec r.gid).awaitLate { gid := r.gid, arrived := r.arrived, total := r.total }

/-- Refuse a group: its bytes and its charge go, and a PREPARE that already waits is answered (R426, R441). -/
def State.refuseRec (s : State) (r : DestRec) (reason : Nat) : State :=
  let s1 := s.putRec { r with st := .refused reason, bytes := [] }
  match r.st with
  | .held .. => s1.sendGroup { gid := r.gid, src := s.node, dst := r.gid.origin, body := .refuse reason }
  | _ => s1

/-- A record is READY, and says so. -/
def State.readyRec (s : State) (r : DestRec) (dests : List Nat) : State :=
  (s.putRec { r with st := .ready dests }).sendGroup { gid := r.gid, src := s.node, dst := r.gid.origin, body := .ready }

/-- Staged bytes, each over what an earlier store left. -/
def stageBytes (m : List Host.Cell) (a : Nat) : List Byte → List Host.Cell
  | [] => m
  | b :: l => stageBytes (Tbl.insert m a b) (a + 1) l

/-- A staged store goes into a record that still stages (R426, R441). -/
def State.stageInto (s : State) (r : DestRec) (raddr : Nat) (data : List Byte) : State :=
  let v := r.gid.vf
  let bytes := stageBytes r.bytes raddr data
  let new := 64 * ((granules bytes).length - (granules r.bytes).length)
  let bound := (s.fn v).s2bound.toNat
  let r1 := { r with arrived := r.arrived + 1 }
  if (s.fn v).state != .running then s.refuseRec r1 4
  else if raddr < 2 ^ 60 && decide (bound < raddr + data.length) then
    let (n, s1) := s.takeNat
    s1.refuseRec r1 (n % 256)
  else if 2 ^ 24 ≤ r.arrived then s.refuseRec r1 3
  else if new ≠ 0 ∧ (s.fn v).stgq.toNat < s.stageCharge v + new then s.refuseRec r1 2
  else
    let r' := { r1 with bytes := bytes }
    match r.st with
    | .held count dests => if r'.arrived = count then s.readyRec r' dests else s.putRec r'
    | _ => s.putRec r'

/-- A staged store arrives; one of a group that was refused or discarded here is discarded, whatever its record has become (R426). -/
def State.stagedArrives (s : State) (gid : GroupId) (raddr : Nat) (data : List Byte) : State :=
  match s.rec? gid with
  | some r =>
    match r.st with
    | .staging => s.stageInto r raddr data
    | .held .. => s.stageInto r raddr data
    | .refused _ => s.putRec { r with arrived := r.arrived + 1 }
    | _ => s
  | none =>
    match s.late? gid with
    | some x => s.awaitLate { x with arrived := x.arrived + 1 }
    | none =>
      let s1 := { s with fab := { s.fab with outcomes := s.fab.outcomes.filter (· != gid) } }
      if 16384 ≤ s1.recCount then s1.putRec { gid := gid, st := .refused 2, arrived := 1 }
      else s1.stageInto { gid := gid } raddr data

/-- PREPARE arrives: it is answered, held until its stores have come, or acknowledged where there is no record. -/
def State.prepareArrives (s : State) (gid : GroupId) (count : Nat) (dests : List Nat) : State :=
  match s.rec? gid with
  | none => s.sendGroup { gid := gid, src := s.node, dst := gid.origin, body := .acknowledge }
  | some r0 =>
    let r := { r0 with total := some count }
    match r.st with
    | .staging => if r.arrived = count then s.readyRec r dests else s.putRec { r with st := .held count dests }
    | .refused reason => (s.putRec r).sendGroup { gid := gid, src := s.node, dst := gid.origin, body := .refuse reason }
    | _ => s

/-- Publish a record's bytes at once (R442); the charge goes with them. -/
def State.publish (s : State) (r : DestRec) : State :=
  r.bytes.foldl (fun s c =>
    s.writeBytes (if c.1 < 2 ^ 60 then .gpa r.gid.vf c.1 else .host (c.1 - 2 ^ 60)) [c.2]) s

/-- ARRIVED of a stream counts a write performed for another node (R438). -/
def State.countArrived (s : State) (fn origin : Nat) : State :=
  if origin = s.node then s
  else
    let k := fn * 1024 + origin
    { s with fab := { s.fab with arrived := s.fab.arrived.insert k ((s.fab.arrived.get 0 k + 1) % 2 ^ 32) } }

/-- COMMIT arrives (R441, R442). -/
def State.commitArrives (s : State) (gid : GroupId) : State :=
  let ack (s : State) (b : GroupBody) : State := s.sendGroup { gid := gid, src := s.node, dst := gid.origin, body := b }
  match s.rec? gid with
  | none => ack s .acknowledge
  | some r =>
    match r.st with
    | .ready _ =>
      ack (((s.publish r).putRec { r with st := .decided true, bytes := [] }).countArrived gid.vf gid.origin) .acknowledge
    | .readyReset _ => ack (s.putRec { r with st := .decided true, bytes := [] }) .acknowledgeReset
    | _ => s

/-- ABORT arrives (R441). -/
def State.abortArrives (s : State) (gid : GroupId) : State :=
  let ack (s : State) : State := s.sendGroup { gid := gid, src := s.node, dst := gid.origin, body := .acknowledge }
  match s.rec? gid with
  | none => ack s
  | some r =>
    match r.st with
    | .ready _ => ack (s.putRec { r with st := .decided false, bytes := [] })
    | .readyReset _ => ack (s.putRec { r with st := .decided false, bytes := [] })
    | .staging => ack (s.discardRec r)
    | .held .. => ack (s.discardRec r)
    | .refused _ => ack (s.discardRec r)
    | _ => s

/-- FORGET arrives; a group with no record is acknowledged (R441), and one discarded before its PREPARE came awaits no more
stores. -/
def State.forgetArrives (s : State) (gid : GroupId) : State :=
  match (s.rec? gid).map DestRec.st with
  | some (.decided _) => s.dropRec gid
  | some _ => s
  | none =>
    let s1 := if (s.late? gid).any fun x => x.total.isNone then s.dropLate gid else s
    s1.sendGroup { gid := gid, src := s.node, dst := gid.origin, body := .acknowledge }

/-- The records of a function at its reset here (R445). -/
def State.resetRecs (s : State) (v : Nat) : State :=
  (s.fab.recs.filter fun r => r.gid.vf == v).foldl (fun s r =>
    match r.st with
    | .staging => s.refuseRec r 4
    | .held .. => s.refuseRec r 4
    | .refused _ => s.putRec { r with st := .refused 4 }
    | .ready d => s.putRec { r with st := .readyReset d, bytes := [] }
    | .querying .. => s.putRec { r with bytes := [] }
    | .inDoubt => s.putRec { r with bytes := [] }
    | _ => s) s

/-! ### A lost origin (R444) -/

/-- Decide a record as its queries or TGRESOLVE say. -/
def State.settleRec (s : State) (r : DestRec) (committed : Bool) : State :=
  let s1 := if committed then s.publish r else s
  { s1 with fab := { s1.fab with indoubt := s1.fab.indoubt.filter (· != r.gid) } }.putRec
    { r with st := .decided committed, bytes := [] }

/-- What the answers to a record's queries come to. -/
def State.evalQuery (s : State) (r : DestRec) : State :=
  match r.st with
  | .querying dests answers lost =>
    if dests.all answers.contains then s.settleRec r false
    else if dests.all fun d => answers.contains d || lost.contains d then
      let s1 := s.putRec { r with st := .inDoubt }
      { s1 with fab := { s1.fab with indoubt := s1.fab.indoubt ++ [r.gid] } }.msi 0 6
    else s
  | _ => s

/-- A READY record whose origin is lost queries every other destination. -/
def State.queryOthers (s : State) (r : DestRec) (dests : List Nat) : State :=
  let others := dests.filter fun d => d != s.node
  let lost := others.filter s.fab.lostNodes.contains
  let r' : DestRec := { r with st := .querying others [] lost }
  let s1 := (others.filter fun d => !lost.contains d).foldl (fun s d =>
    s.sendGroup { gid := r.gid, src := s.node, dst := d, body := .query }) (s.putRec r')
  s1.evalQuery r'

/-- A record meets the loss of a node: as its origin, or as a destination that it queries. A DECIDED record goes with its origin
(R441); that it committed is kept for the queries of R444 (log entry 111). -/
def State.recLoses (s : State) (r : DestRec) (n : Nat) : State :=
  if r.gid.origin = n then
    match r.st with
    | .staging => s.dropRec r.gid
    | .held .. => s.dropRec r.gid
    | .refused _ => s.dropRec r.gid
    | .ready d => s.queryOthers r d
    | .readyReset d => s.queryOthers r d
    | .decided committed =>
      let s1 := s.dropRec r.gid
      if committed then { s1 with fab := { s1.fab with outcomes := r.gid :: s1.fab.outcomes } } else s1
    | _ => s
  else
    match r.st with
    | .querying dests answers lost =>
      if dests.contains n && !answers.contains n then
        let r' : DestRec := { r with st := .querying dests answers (n :: lost) }
        (s.putRec r').evalQuery r'
      else s
    | _ => s

/-- A destination answers a query with its own state. -/
def State.queryArrives (s : State) (gid : GroupId) (src : Nat) : State :=
  let committed := (s.rec? gid).map DestRec.st == some (.decided true) || s.fab.outcomes.contains gid
  s.sendGroup { gid := gid, src := s.node, dst := src, body := .queryAnswer committed }

/-- An answer to a query arrives; one that says COMMITTED decides it. -/
def State.answerArrives (s : State) (gid : GroupId) (src : Nat) (committed : Bool) : State :=
  match s.rec? gid with
  | none => s
  | some r =>
    match r.st with
    | .querying dests answers lost =>
      if committed then s.settleRec r true
      else
        let r' : DestRec := { r with st := .querying dests (src :: answers) lost }
        (s.putRec r').evalQuery r'
    | _ => s

/-- The 31 bits that name a group in INDOUBT and TGRESOLVE (R429). -/
def groupBits (g : GroupId) : Nat := g.number % 2 ^ 16 + g.vf % 32 * 2 ^ 16 + g.origin % 1024 * 2 ^ 21

/-- TGRESOLVE: a group IN DOUBT is decided; any other is not touched (R444). Its bytes are written even in a slice group under
test (log entry 53). -/
def State.tgresolve (s : State) (val : Word64) : State :=
  match List.find? (fun r : DestRec => groupBits r.gid == val.toNat % 2 ^ 31 && r.st == .inDoubt) s.fab.recs with
  | some r => s.settleRec r (val.toNat / 2 ^ 32 % 4 == 1)
  | none => s

/-! ### Messages -/

/-- Publication of a group here waits: a slice group that it writes is under test (R409). -/
def State.publishWaits (s : State) (gid : GroupId) : Bool :=
  match s.rec? gid with
  | none => false
  | some r => r.bytes.any fun c => decide (c.1 < 2 ^ 60) && s.placeWaits gid.vf (.gpa gid.vf c.1)

/-- A checkpoint save holds what comes from other packages (R424), and nothing comes while no link delivers (R434). -/
def State.peerWaits (s : State) (src : Nat) : Bool := (s.checkpointing && src != s.node) || !s.delivers

/-- STAGED_STORE_RECEIVE (R426). -/
def execStagedStoreReceive (gid : GroupId) (src raddr : Nat) (data : List Byte) (s : State) : Out :=
  .next (if s.peerWaits src then s else s.stagedArrives gid raddr data)
/-- PREPARE (R441). -/
def execPrepare (gid : GroupId) (src count : Nat) (dests : List Nat) (s : State) : Out :=
  .next (if s.peerWaits src then s else s.prepareArrives gid count dests)
/-- READY (R443). -/
def execReady (gid : GroupId) (src : Nat) (s : State) : Out := .next (if s.delivers then s.groupReady gid src else s)
/-- REFUSE (R443). -/
def execRefuse (gid : GroupId) (src reason : Nat) (s : State) : Out :=
  .next (if s.delivers then s.groupRefuse gid src reason else s)
/-- COMMIT (R442). -/
def execCommit (gid : GroupId) (s : State) : Out :=
  .next (if s.publishWaits gid || !s.delivers then s else s.commitArrives gid)
/-- ABORT (R441). -/
def execAbort (gid : GroupId) (s : State) : Out := .next (if s.delivers then s.abortArrives gid else s)
/-- ACKNOWLEDGE (R443). -/
def execAcknowledge (gid : GroupId) (src : Nat) (reset : Bool) (s : State) : Out :=
  .next (if s.delivers then s.groupAck gid src reset else s)
/-- FORGET (R441). -/
def execForget (gid : GroupId) (s : State) : Out := .next (if s.delivers then s.forgetArrives gid else s)
/-- QUERY (R444). -/
def execQuery (gid : GroupId) (src : Nat) (s : State) : Out := .next (if s.delivers then s.queryArrives gid src else s)
/-- QUERY_ANSWER (R444). -/
def execQueryAnswer (gid : GroupId) (src : Nat) (committed : Bool) (s : State) : Out :=
  .next (if (committed && s.publishWaits gid) || !s.delivers then s else s.answerArrives gid src committed)

/-- A group message of this package for itself. -/
def State.deliverMessage (s : State) (m : GroupMsg) : State :=
  match m.body with
  | .staged raddr data => s.stagedArrives m.gid raddr data
  | .prepare count dests => s.prepareArrives m.gid count dests
  | .ready => s.groupReady m.gid m.src
  | .refuse reason => s.groupRefuse m.gid m.src reason
  | .commit => if s.publishWaits m.gid then s.later (.message m) else s.commitArrives m.gid
  | .abort _ => s.abortArrives m.gid
  | .acknowledge => s.groupAck m.gid m.src false
  | .acknowledgeReset => s.groupAck m.gid m.src true
  | .forget => s.forgetArrives m.gid
  | .query => s.queryArrives m.gid m.src
  | .queryAnswer c => s.answerArrives m.gid m.src c

end Sys2Proof.Machine
end

