-- ==== Sys2Proof/Machine/FabricEvents.lean ====
section
/-! DEFINITION. The fabric: links and their flits, requests and answers at origin and target, releases, lost nodes, peer
fetches (R429 to R438, R446, R447, R335). -/

namespace Sys2Proof.Machine

/-! ### How a request ends at its origin (R435 to R437) -/

/-- Record the first failed write of a team (R437). -/
def Team.noteFault (t : Team) (f : WriteFault) : Team :=
  match t.link.fabricFault with
  | some _ => t
  | none => { t with link := { t.link with fabricFault := some f } }

/-- An instruction's fabric operation has one request less outstanding; what is complete is counted (R165). -/
def Team.answered (t : Team) (id : Nat) : Team :=
  let l := t.eng.fabric.map fun o : FabOp => if o.id = id then { o with pending := o.pending - 1 } else o
  { t with eng := { t.eng with fabric := l } }.settleFabric

/-- The place of an instruction among its team's fabric operations. -/
def Team.fabricIdx (t : Team) (id : Nat) : Nat := ((t.eng.fabric.find? fun o => o.id == id).map FabOp.idx).getD 0

/-- A write of a copy, fill or gather ends at its target: a failure is the batch's, or, of a gather, the team's (R437). The
answer to a combination holds the flags that it raised, and in bit 15 whether it read a mark (R179, R408; log entry 113). -/
def Team.endCopyWrite (t : Team) (op : Nat) (addr : Word64) (a : RemoteAnswer) : Team :=
  let t1 := { t with eng := t.eng.modCopy op fun o =>
    let o1 := { o with pending := o.pending - 1 }
    match a with
    | .fail _ => { o1 with err := o.err || o.kind != .gather }
    | .data b => { o1 with flags := o.flags ||| BitVec.ofNat 32 (leNat b % 2 ^ 9), poison := o.poison || (leNat b).testBit 15 }
    | _ => o1 }
  match a, t.eng.gathers.find? fun o => o.id == op with
  | .fail r, some o => t1.noteFault { addr := addr, size := o.desc.esz, reason := r }
  | _, _ => t1

/-- A team takes the end of one of its requests. -/
def Team.endRequest (t : Team) (use : FabFor) (a : RemoteAnswer) : Team :=
  match use with
  | .access lane => { t with link := { t.link with answers := t.link.answers.insert lane a } }
  | .write op addr log2 =>
    match a with
    | .fail r => (t.noteFault { idx := t.fabricIdx op, addr := addr, size := log2, reason := r }).answered op
    | _ => t.answered op
  | .copyRead op i =>
    { t with eng := t.eng.modCopy op fun o =>
        let o1 := { o with pending := o.pending - 1 }
        match a with
        | .data b => { o1 with remote := ((List.range b.length).zip b).foldl (fun m e => m.insert (i * o.desc.elem + e.1) e.2) o.remote }
        | .poison => { o1 with bad := o.bad ++ [i], poison := true }
        | .fail _ => { o1 with err := true }
        | .done => o1 }
  | .copyWrite op addr => t.endCopyWrite op addr a
  | .matrix seq addr log2 =>
    let t1 := { t with eng := t.eng.modMat seq fun m => { m with pending := m.pending - 1 } }
    match a with
    | .fail r => t1.noteFault { addr := addr, size := log2, reason := r }
    | _ => t1
  | .stamp id =>
    let addr := ((t.eng.stamps.find? fun m => m.id == id).map Stamp.addr).getD 0
    let t1 := { t with eng := { t.eng with stamps := t.eng.stamps.filter fun m => m.id != id } }
    match a with
    | .fail r => t1.noteFault { addr := addr, size := 3, reason := r }
    | _ => t1

/-- A stream whose writes have all come to an end after a failure restarts with STREAM-RESET (R438); one towards a lost node
waits until the node returns (R447). -/
def State.settleStreams (s : State) : State :=
  s.fab.streams.foldl (fun s e =>
    let fn := e.1 / 1024
    let node := e.1 % 1024
    if e.2.failed && !s.streamBusy fn node && !s.fab.lostNodes.contains node then
      (s.modStream fn node fun x => { x with failed := false }).sendWire (.streamReset fn node e.2.sent)
    else s) s

/-- An answer says that its request has been performed. -/
def answerLands : RemoteAnswer → Bool
  | .data _ => true
  | .done => true
  | _ => false

/-- A write of this package has landed on a line of another node, on which a team here may have its monitor (R164). -/
def State.landRemote (s : State) (r : FabReq) (a : RemoteAnswer) : State :=
  if remoteWrites r.op && answerLands a then s.hitLine (s.lineOf (.fabric r.node r.raddr)) else s

/-- A request ends with an answer. -/
def State.endRequests (s : State) (l : List FabReq) (a : RemoteAnswer) : State :=
  let ids := l.map FabReq.id
  let s1 := { s with fab := { s.fab with requests := s.fab.requests.filter fun r => !ids.contains r.id } }
  let s2 := l.foldl (fun s r => ((s.landRemote r a).modTeam r.uid fun t => t.endRequest r.use a).decideGroups r.uid) s1
  s2.settleStreams.flushFabric

/-- Requests that fail on a link, or with their node: the streams of their writes have a failure. -/
def State.failSent (s : State) (l : List FabReq) (reason : Nat) : State :=
  let s1 := (l.filter fun r => remoteWrites r.op && r.link.isSome).foldl (fun s r =>
    s.modStream r.fn r.node fun x => { x with failed := true }) s
  s1.endRequests l (.fail reason)

/-- FABRIC_RESPONSE_RECEIVE: the answer to a request that has been sent (R435). -/
def execFabricResponseReceive (id : Nat) (answer : RemoteAnswer) (s : State) : Out :=
  .next <|
    match List.find? (fun r : FabReq => r.id == id && r.link.isSome) s.fab.requests with
    | some r => s.endRequests [r] answer
    | none => s

/-- PLANE_WAIT_TIMEOUT: a request for a plane with no link up has waited 10 ms (R432). -/
def execPlaneWaitTimeout (id : Nat) (s : State) : Out :=
  .next <|
    match List.find? (fun r : FabReq => r.id == id && r.link.isNone) s.fab.requests with
    | some r => if (s.route r.raddr).isNone then s.endRequests [r] (.fail 5) else s
    | none => s

/-! ### At the target (R435, R438) -/

/-- Bytes that a request names at its target. -/
def remoteSize : RemoteOp → Nat
  | .load n => n
  | .store d => d.length
  | .atom op _ _ => atomSize op
  | .combine _ n _ _ => n
  | .mark _ => 1
  | .merge _ => 4
  | .barrier _ => 4

/-- A request reads, and so meets poison as a lane access does. -/
def remoteReads : RemoteOp → Bool
  | .load _ => true
  | .atom op _ _ => op != .stRel
  | .merge _ => true
  | .barrier _ => true
  | _ => false

/-- A request for bytes of a slice group under test waits, or of a channel that its function is never granted (R392, R409). -/
def State.remoteWaits (s : State) (fn raddr : Nat) (op : RemoteOp) : Bool :=
  s.placeWaits fn (.gpa fn raddr) || s.placeWaits fn (.gpa fn (raddr + remoteSize op - 1))

/-- A request performed at its target: its answer, and the state after it. -/
def State.performRemote (s : State) (fn raddr : Nat) (op : RemoteOp) : RemoteAnswer × State :=
  let p : Place := .gpa fn raddr
  if (s.fn fn).state ≠ .running ∨ (s.fn fn).s2bound.toNat < raddr + remoteSize op then (.fail 1, s)
  else if remoteReads op && s.markedIn p (remoteSize op) then (.poison, s)
  else
    match op with
    | .load n =>
      let (l, s1) := s.loadBytes p n
      (.data l, s1)
    | .store d => (.done, s.writeBytes p d)
    | .atom o a b =>
      let (v, s1) := s.atomHere o a b p
      (.data (leBytes (atomSize o) v), s1)
    | .combine o n v bad =>
      match redOp o with
      | none => (.done, s)
      | some o =>
        let (s1, f) := combineAt s none o p n v
        (.data (leBytes 2 (f.toNat % 2 ^ 15 + if s.markedIn p n then 2 ^ 15 else 0)), if bad then s1.setMark p true else s1)
    | .mark bad => (.done, s.setMark p bad)
    | .merge f =>
      let (v, s1) := s.loadNat p 4
      (.data (leBytes 4 v), s1.writeNat p 4 (BitVec.ofNat 32 v ||| f).toNat)
    | .barrier e =>
      let (v, s1) := s.arriveHere e p
      (.data (leBytes 4 v), s1)

/-- ARRIVED of a stream. -/
def State.arrivedOf (s : State) (fn origin : Nat) : Nat := s.fab.arrived.get 0 (fn * 1024 + origin)

/-- Perform a request and answer it on its plane (R430); a write performed counts in ARRIVED. -/
def State.serveRemote (s : State) (plane node fn id raddr : Nat) (op : RemoteOp) : State :=
  let (a, s1) := s.performRemote fn raddr op
  (if answerLands a && remoteWrites op then s1.countArrived fn node else s1).sendWire (.answer plane node id raddr a)

/-- A release may be performed: (ARRIVED − N) as i32 is at least 0. -/
def State.releaseDue (s : State) (fn origin n : Nat) : Bool :=
  decide (0 ≤ (BitVec.ofNat 32 (s.arrivedOf fn origin) - BitVec.ofNat 32 n).toInt)

/-- FABRIC_REQUEST_RECEIVE: a request that came on a plane from a node (`port`) is performed, refused, or held as a release (R435, R438); during a
checkpoint save it waits (R424), and while its slice group is under test (R409). Nothing comes on a plane with no link up (R434). -/
def execFabricRequestReceive (port : Nat × Nat) (fn id raddr : Nat) (op : RemoteOp) (release : Option Nat) (s : State) : Out :=
  .next <|
    if !s.planeDelivers port.1 || s.checkpointing || s.remoteWaits fn raddr op then s
    else
      match release with
      | some n =>
        if s.releaseDue fn port.2 n then s.serveRemote port.1 port.2 fn id raddr op
        else { s with fab := { s.fab with heldReleases := s.fab.heldReleases ++
          [{ origin := port.2, fn := fn, id := id, raddr := raddr, op := op, n := n, plane := port.1 }] } }
      | none => s.serveRemote port.1 port.2 fn id raddr op

/-- A release held for an origin. -/
def State.heldRelease (s : State) (node id : Nat) : Option HeldRelease :=
  List.find? (fun h : HeldRelease => h.origin == node && h.id == id) s.fab.heldReleases

/-- A held release is held no longer. -/
def State.dropHeld (s : State) (node id : Nat) : State :=
  { s with fab := { s.fab with heldReleases := s.fab.heldReleases.filter fun h => !(h.origin == node && h.id == id) } }

/-- FABRIC_RELEASE_PERFORM: a held release whose count has been met is performed (R438). -/
def execFabricReleasePerform (node id : Nat) (s : State) : Out :=
  .next <|
    match s.heldRelease node id with
    | some h =>
      if s.releaseDue h.fn node h.n && s.dev.phase != 15 && !s.checkpointing && !s.remoteWaits h.fn h.raddr h.op then
        (s.dropHeld node id).serveRemote h.plane node h.fn id h.raddr h.op
      else s
    | none => s

/-- RELEASE_COUNT_TIMEOUT: a release has waited 10 ms, at this target for another node, or at its origin (R438). -/
def execReleaseCountTimeout (node id : Nat) (s : State) : Out :=
  .next <|
    if node = s.node then
      match List.find? (fun r : FabReq => r.id == id && r.link.isNone && r.release.isSome) s.fab.requests with
      | some r => if (s.stream r.fn r.node).failed then s.endRequests [r] (.fail 4) else s
      | none => s
    else
      match s.heldRelease node id with
      | some h => (s.dropHeld node id).sendWire (.answer h.plane node id h.raddr (.fail 4))
      | none => s

/-- STREAM_RESET: the target takes the origin's new base (R438). -/
def execStreamReset (fn node base : Nat) (s : State) : Out :=
  .next (if s.delivers then { s with fab := { s.fab with arrived := s.fab.arrived.insert (fn * 1024 + node) (base % 2 ^ 32) } } else s)

/-! ### Links (R429, R431, R433, R434) -/

/-- A link as it stands once it carries nothing more: its numbers start again, and it holds no flit. -/
def Link.emptied (l : Link) : Link :=
  { l with txNext := 0, txAcked := 0, retry := [], rxNext := 0, nacked := false, rounds := 0 }

/-- What becomes of messages on a link that carries nothing more: an answer or a peer transfer is lost with it; a message of a
group or a STREAM-RESET has been delivered, or goes out again on another plane (log entry 114). -/
def splitWires (k : Nat) : List WireMsg → State → List WireMsg × State
  | [], s => ([], s)
  | w :: l, s =>
    if w.link = some k then
      match w.body with
      | .group _ =>
        let (b, s1) := s.takeBool
        let (l1, s2) := splitWires k l s1
        (if b then { w with link := none } :: l1 else l1, s2)
      | .streamReset .. =>
        let (b, s1) := s.takeBool
        let (l1, s2) := splitWires k l s1
        (if b then { w with link := none } :: l1 else l1, s2)
      | _ => splitWires k l s
    else
      let (l1, s1) := splitWires k l s
      (w :: l1, s1)

/-- A link carries nothing more: its flits are gone, peer fetches on it are discarded (R446), its other messages are lost or go
out again, and the requests sent on it fail with fate unknown (R434). -/
def State.cutLink (s : State) (k : Nat) : State :=
  let (l, s1) := splitWires k s.fab.wires (s.modLink k Link.emptied)
  let s2 := { s1 with
    fab := { s1.fab with wires := l }
    sets := s1.sets.map fun (e : Nat × TransSet) => if e.2.fetching = some k then (e.1, { e.2 with fetching := none }) else e }
  s2.failSent (s2.fab.requests.filter fun r => r.link == some k) 3

/-- A link goes down: it carries nothing more, and is tested (R409, R434). -/
def State.linkDown (s : State) (k : Nat) : State :=
  let s1 := s.modLink k fun l => { l with state := 3 }
  let u : UnitId := { kind := 11, num := k }
  let s2 := { s1 with dev := { s1.dev with testing := if s1.dev.testing.contains u then s1.dev.testing else s1.dev.testing ++ [u] } }
  s2.cutLink k

/-- A link trains when it is enabled, closed, and not retired. -/
def State.openLink (s : State) (k : Nat) : State :=
  if (s.link k).retired then s
  else s.modLink k fun l => { l with en := true, state := if l.state = 0 then 1 else l.state }

/-- A link is closed: nothing more passes on it. -/
def State.closeLink (s : State) (k : Nat) : State :=
  if (s.link k).retired then s
  else
    ((s.modLink k fun l => { l with en := false, state := if l.state = 3 then 3 else 0 }).cutLink k).emit (.linkClosed k)

/-- LINK_UP: a link completes training; nodes found by it are lost no longer (R434, R447); a retired link stays down
(R411). -/
def execLinkUp (link : Nat) (nodes : List Nat) (s : State) : Out :=
  .next <|
    if link < 16 ∧ (s.link link).state = 1 ∧ (s.link link).en ∧ (s.link link).retired = false then
      let s1 := s.modLink link fun l => { l with state := 2 }
      let s2 := { s1 with fab := { s1.fab with lostNodes := s1.fab.lostNodes.filter fun n => !nodes.contains n } }
      s2.settleStreams.flushFabric
    else s

/-- LINK_DOWN: an acknowledgment is overdue, or the peer has closed the link (R434). -/
def execLinkDown (link : Nat) (s : State) : Out :=
  .next (if link < 16 ∧ ((s.link link).state = 2 ∨ (s.link link).state = 1) then s.linkDown link else s)

/-- An ACK field frees the retry buffer up to the SEQ that it names, when that lies among the flits outstanding (R433). -/
def Link.acked (l : Link) (seq : Nat) : Link :=
  let n := (seq + 4096 - l.txAcked) % 4096
  if 0 < n ∧ n ≤ l.outstanding then { l with txAcked := seq, rounds := 0, retry := l.retry.drop n } else l

/-- An ACK field arrives: messages whose last flit it acknowledges have been delivered. -/
def State.ackLink (s : State) (k seq : Nat) : State :=
  let s1 := s.modLink k fun l => l.acked seq
  { s1 with fab := { s1.fab with wires := s1.fab.wires.filter fun w => w.link != some k || (s1.link k).holds w.last } }

/-- A NACK names a SEQ: a round of resending from it, unless it is not outstanding; the eighth round from one SEQ takes the
link down (R433, R434). -/
def State.nackArrives (s : State) (k seq : Nat) : State :=
  if (s.link k).holds seq then
    let s1 := s.ackLink k seq
    let s2 := s1.modLink k fun l => { l with retries := min (l.retries + 1) (2 ^ 32 - 1), rounds := l.rounds + 1 }
    let s3 := (s2.link k).retry.foldl (fun s f => s.emit (.flit k f)) s2
    if 8 ≤ (s3.link k).rounds then s3.linkDown k else s3
  else s

/-- SEQ, ACK and KIND of a flit. -/
def flitHead (flit : List Byte) : Nat := leNat (flit.take 4)

/-- A flit is whole: 64 bytes, its CRC right, its KIND one of the four, its reserved bits zero (log entry 112). -/
def flitOk (flit : List Byte) : Bool :=
  (crc32c (flit.take 60)).toNat == leNat (flit.drop 60) && decide (flitHead flit / 2 ^ 24 % 16 ≤ 3)
    && flitHead flit / 2 ^ 28 == 0

/-- Discard a flit: the first one discarded is answered with a NACK that names the missing SEQ (R433). -/
def State.discardFlit (s : State) (k : Nat) : State :=
  if (s.link k).nacked then s else (s.modLink k fun l => { l with nacked := true }).sendNack k

/-- FLIT_RECEIVE: an idle flit only acknowledges, a NACK is obeyed; a message flit is accepted in order or discarded; `room` says
that a buffer has space (R433). -/
def execFlitReceive (link : Nat) (flit : List Byte) (room : Bool) (s : State) : Out :=
  .next <|
    let h := flitHead flit
    let kind := h / 2 ^ 24 % 16
    let ack := h / 2 ^ 12 % 4096
    if 16 ≤ link ∨ (s.link link).state ≠ 2 ∨ flit.length ≠ 64 ∨ s.dev.phase = 15 then s
    else if !flitOk flit then s.discardFlit link
    else if kind = 0 then (s.ackLink link ack).flushFabric
    else if kind = 3 then (s.nackArrives link ack).flushFabric
    else if h % 4096 ≠ (s.link link).rxNext ∨ room = false then s.discardFlit link
    else
      ((s.ackLink link ack).modLink link fun l => { l with rxNext := (l.rxNext + 1) % 4096, nacked := false }).flushFabric

/-- NACK_RECEIVE (R433). -/
def execNackReceive (link seq : Nat) (s : State) : Out :=
  .next (if link < 16 ∧ (s.link link).state = 2 then s.nackArrives link (seq % 4096) else s)

/-- GEN of a plane map. -/
def mapGen (m : Word64) : BitVec 16 := m.extractLsb' 32 16

/-- The plane map as it was last written. -/
def State.planeMap (s : State) : Word64 := s.fab.pendingMap.getD s.fab.planemap

/-- A plane map that may be written: reserved bits zero, and a later generation (R431). -/
def State.mapOk (s : State) (v : Word64) : Bool :=
  v.toNat / 2 ^ 48 == 0 && v.toNat / 2 ^ 24 % 256 == 0 && decide (0 < (mapGen v - mapGen s.planeMap).toInt)

/-- PLANEMAP_APPLY: every request sent under the old map has ended (R431). -/
def execPlanemapApply (s : State) : Out :=
  .next <|
    match s.fab.pendingMap with
    | none => s
    | some m =>
      if s.fab.requests.any fun r => r.link.isSome then s
      else { s with fab := { s.fab with planemap := m, pendingMap := none } }.flushFabric

/-! ### Lost nodes (R447) -/

/-- A message for a node. -/
def Wire.isFor (w : Wire) (n : Nat) : Bool :=
  match w with
  | .answer _ m _ _ _ => m == n
  | .group g => g.dst == n
  | .peerServe _ m _ _ => m == n
  | _ => false

/-- The function whose COMMIT for a node has not been delivered: the stream that counts it has a failure once the node is lost. -/
def Wire.commitFor (w : Wire) (n : Nat) : Option Nat :=
  match w with
  | .group { gid := g, dst := d, body := .commit, .. } => if d = n then some g.vf else none
  | _ => none

/-- A node is lost: accesses to it fail, messages for it are given up, a COMMIT among them as a failed write of its stream, what was
discarded of its groups is forgotten, and groups and records that involve it go on as R443 and
R444 say. -/
def State.loseNode (s : State) (n : Nat) : State :=
  if n = s.node ∨ s.fab.lostNodes.contains n then s
  else
    let s0 := (s.fab.wires.filterMap fun w => w.body.commitFor n).foldl (fun s v =>
      s.modStream v n fun x => { x with failed := true }) s
    let s1 := { s0 with fab := { s0.fab with
      lostNodes := n :: s.fab.lostNodes
      late := s.fab.late.filter fun x => x.gid.origin != n
      heldReleases := s.fab.heldReleases.filter fun h => h.origin != n
      wires := s.fab.wires.filter fun w => !w.body.isFor n } }
    let s2 := s1.failSent (s1.fab.requests.filter fun r => r.node == n) 2
    let s3 := s2.fab.groups.foldl (fun s e => s.groupLoses e.1 n) s2
    s3.fab.recs.foldl (fun s r => s.recLoses r n) s3

/-- NODE_LOST (R447). -/
def execNodeLost (node : Nat) (s : State) : Out := .next (s.loseNode node)

/-! ### Peer fetches (R335, R446) -/

/-- A function may exchange sets with its peers. -/
def State.peers (s : State) (fn : Nat) : Bool := (s.fn fn).tctl.getLsbD 1 && s.fabValid && !s.barred 5 0 fn

/-- The bytes that the signature of a transferred set covers. -/
def peerMessage (p : PeerSet) : List Byte := Config.peerMessage p.imgid p.split p.xver p.domain p.packed

/-- PEER_FETCH_REQUEST: a peer asks for the current set of a key, and is served a signed copy (R335). -/
def execPeerFetchRequest (node fn imgid split xver domain : Nat) (s : State) : Out :=
  .next <|
    match s.currentSet imgid split domain with
    | none => s
    | some k =>
      match s.sets.find? k with
      | none => s
      | some x =>
        if s.delivers && s.peers fn && (s.fn fn).domain == domain && xver == s.xver && x.ready then
          let p : PeerSet := { imgid := imgid, split := split, xver := xver, domain := domain
                               packed := x.packed.map fun e => (e.1, e.2.bytes, e.2.check) }
          s.sendWire (.peerServe fn node p (Config.sign (peerMessage p)))
        else s

/-- A transferred set is what the package asked for: signed by the node's device identity key, the whole key its own, every
overlay there with a check value that is right (R335). -/
def State.peerSetOk (s : State) (fn node : Nat) (x : TransSet) (p : PeerSet) (sig : List Byte) : Bool :=
  slhVerify slh256f (Config.identityKey node) (peerMessage p) sig && p.imgid == x.imgid && p.split == x.split && p.xver == s.xver
    && p.domain == (s.fn fn).domain && coversOverlays x (p.packed.map fun e => (e.1, e.2.1))
    && p.packed.all fun e => crc32c e.2.1 == e.2.2

/-- A set is awaited from the peers no longer. -/
def State.endFetch (s : State) (k : Nat) : State := { s with sets := s.sets.modify k fun x => { x with fetching := none } }

/-- PEER_FETCH_RECEIVE: a set that a launch waits for arrives; it is installed when its signature, its whole key and every
check value are right, and else discarded, and the set is translated here (R335). -/
def execPeerFetchReceive (fn node imgid split xver domain : Nat) (sent : PeerSent) (s : State) : Out :=
  .next <|
    match s.currentSet imgid split domain with
    | none => s
    | some k =>
      match s.sets.find? k with
      | none => s
      | some x =>
        if x.fetching.isNone || !s.peers fn || !s.delivers then s
        else if s.peerSetOk fn node x ⟨imgid, split, xver, domain, sent.packed⟩ sent.sig then
          let packed : Tbl Packed := sent.packed.foldl (fun t e => t.insert e.1 ⟨e.2.1, e.2.2⟩) []
          s.storeSet packed fun s =>
            { s.endFetch k with sets := (s.endFetch k).sets.modify k fun x => { x with ready := true, packed := packed } }
        else s.endFetch k

/-- PEER_FETCH_TIMEOUT: no peer has answered for a set that is awaited; what came is discarded, and the set is translated here
(R335). -/
def execPeerFetchTimeout (set : Nat) (s : State) : Out := .next (s.endFetch set)

end Sys2Proof.Machine
end

