-- ==== Sys2Proof/Machine/EngineEvents.lean ====
section
/-! DEFINITION. What the engines do after issue: copies, fills, gathers, stamps, advances, matrix operations, their
suspensions on watchpoints, and rollbacks (R180 to R184, R192 to R198, R267 to R273, R280 to R289, R332, R336 to R338). -/

namespace Sys2Proof.Machine

/-! ### Watchpoints on engine accesses (R336, R362, R363) -/

/-- A watched access of an engine: its lowest-numbered watchpoint, its lowest watched byte or element, whether it writes. -/
structure EngHit where
  watch : Nat
  addr : Nat
  write : Bool
deriving DecidableEq, Repr

/-- The watchpoints that bytes `a` to `a + n − 1` meet. -/
def sideHit (ws : Tbl Watch) (a n : Nat) (rd wr : Bool) : Option EngHit :=
  match ws.filter fun e => e.2.hits a n rd wr with
  | [] => none
  | e :: l => some { watch := e.1, addr := l.foldl (fun m x => min m (max a x.2.base)) (max a e.2.base), write := wr }

/-- The hit with the lower address. -/
def nearer : Option EngHit → Option EngHit → Option EngHit
  | none, y => y
  | x, none => x
  | some x, some y => if x.addr ≤ y.addr then some x else some y

/-- The addresses at which the team's program sees source and destination of every element, in the order of `elems`. -/
def CopyOp.addrs (o : CopyOp) : List (Nat × Nat) :=
  match o.kind with
  | .gather => o.rows.flatMap fun r =>
      (List.range o.desc.count0).map fun i => (r.srcAddr + i * o.desc.elem, r.dstAddr + i * o.desc.elem)
  | k =>
    if o.desc.empty then []
    else o.desc.indices.map fun i =>
      (((o.desc.src.toNat : Int) + elemOffset o.desc.srcStrides i.1 i.2.1 i.2.2).toNat,
        ((o.desc.dst.toNat : Int) + elemOffset (o.desc.dstStrides (k == .tile)) i.1 i.2.1 i.2.2).toNat)

/-- What one element meets: its source read and its destination write; a fill's destination is no memory, and a cp.red
reads its destination too. -/
def CopyOp.elemHit (o : CopyOp) (e : Nat × Nat) : Option EngHit :=
  let src := sideHit o.watches e.1 o.desc.elem true false
  match o.kind with
  | .fill => src
  | .red => nearer src (sideHit o.watches e.2 o.desc.elem true true)
  | _ => nearer src (sideHit o.watches e.2 o.desc.elem false true)

/-- A unit that starts at element `i` is still to be checked. -/
def CopyOp.checks (o : CopyOp) (i : Nat) : Bool := decide (o.progress ≤ i) && decide (o.seen ≤ i) && o.exempt != some i

/-- The first element, or the first element of the first segment of a cp.red, that a watchpoint stops, and the hit. -/
def CopyOp.firstHit (o : CopyOp) : Option (Nat × EngHit) :=
  let es := o.addrs
  match o.kind with
  | .red => (List.range o.segments).findSome? fun k =>
      let i := k * segLen o.desc
      if o.checks i && !o.applied.contains k then
        (((es.drop i).take (segLen o.desc)).foldl (fun h e => nearer h (o.elemHit e)) none).map fun h => (i, h)
      else none
  | _ => ((List.range es.length).zip es).findSome? fun e => if o.checks e.1 then (o.elemHit e.2).map fun h => (e.1, h) else none

/-! ### Copies, fills and gathers -/

/-- A fabric place, and no other. -/
def Place.fabricOf : Place → Option (Nat × Nat)
  | .fabric n r => some (n, r)
  | _ => none

/-- Ask other nodes for the source elements of an operation that lie with them (R435). -/
def askElems (fn uid : Nat) (o : CopyOp) (s : State) : List (Nat × Place × Place) → State × CopyOp
  | [] => (s, { o with asked := true })
  | (i, src, _) :: l =>
    match src.fabricOf with
    | none => askElems fn uid o s l
    | some (n, r) =>
      match s.fabricFails fn src with
      | some _ => askElems fn uid { o with err := true } s l
      | none => askElems fn uid { o with pending := o.pending + 1 } (s.request fn uid n r (.load o.desc.elem) (.copyRead o.id i) false) l

/-- The elements of an operation with their flat indices. -/
def CopyOp.numbered (o : CopyOp) : List (Nat × Place × Place) := (List.range o.elems.length).zip o.elems

/-- Some source element lies with another node and has not been asked for. -/
def CopyOp.mustAsk (o : CopyOp) : Bool := !o.asked && o.elems.any fun e => e.1.remote

/-- Make a write of an operation at another node, or record that it cannot be made. -/
def State.sendWrite (s : State) (fn uid : Nat) (o : CopyOp) (addr : Nat) (dst : Place) (op : RemoteOp) : State × CopyOp :=
  match dst.fabricOf with
  | none => (s, o)
  | some (n, r) =>
    match s.fabricFails fn dst with
    | some f =>
      let s1 := if o.kind = .gather then
          s.modTeam uid fun t => t.noteFault { addr := BitVec.ofNat 64 addr, size := o.desc.esz, reason := f }
        else s
      (s1, { o with err := o.err || o.kind != .gather })
    | none => (s.request fn uid n r op (.copyWrite o.id (BitVec.ofNat 64 addr)) false, { o with pending := o.pending + 1 })

/-- Send what elements have delivered to other nodes: their indices, addresses, destinations and values. -/
def sendStores (fn uid : Nat) (s : State) (o : CopyOp) : List (Nat × Place × List Byte) → State × CopyOp
  | [] => (s, o)
  | (a, dst, v) :: l =>
    if !dst.remote || v.isEmpty then sendStores fn uid s o l
    else
      let (s1, o1) := s.sendWrite fn uid o a dst (.store v)
      sendStores fn uid s1 o1 l

/-- The granules of other nodes that an operation writes, each with the mark that it leaves there (R408). -/
def CopyOp.remoteMarks (o : CopyOp) : List (Place × Bool) :=
  let units := o.numbered.filter fun e => e.2.2.remote
  let bad (g : Place) : Bool := units.any fun e => o.bad.contains e.1 && e.2.2.granule == g
  let full (g : Place) : Bool := (List.range 64).all fun k => units.any fun e => (g.add k).within e.2.2 o.desc.elem
  ((units.map fun e => e.2.2.granule).eraseDups).filterMap fun g =>
    if bad g then some (g, true) else if full g then some (g, false) else none

/-- The address that the team's program gives the first byte that an operation writes in a granule. -/
def CopyOp.markAddr (o : CopyOp) (g : Place) : Nat :=
  ((List.find? (fun e : (Nat × Nat) × (Place × Place) => e.2.2.granule == g) (o.addrs.zip o.elems)).map fun e => e.1.2).getD 0

/-- Send the marks of an operation. -/
def sendMarks (fn uid : Nat) (s : State) (o : CopyOp) : List (Place × Bool) → State × CopyOp
  | [] => (s, o)
  | (g, b) :: l =>
    let (s1, o1) := s.sendWrite fn uid o (o.markAddr g) g (.mark b)
    sendMarks fn uid s1 o1 l

/-- Perform the plain elements of an operation up to element `n`, those of other nodes by their requests. -/
def State.copyTo (s : State) (fn uid crew : Nat) (o : CopyOp) (n : Nat) : State × CopyOp :=
  let from_ := o.progress
  let (s1, o1) := s.copyUpTo crew o n
  if o1.err then (s1, o1)
  else sendStores fn uid s1 o1 (((o.addrs.zip o.elems).zip o1.vals).drop from_ |>.map fun e => (e.1.1.2, e.1.2.2, e.2))

/-- Combine the elements of a segment that lie with other nodes (R287): one that meets the source extent takes a free value (R178). -/
def sendCombines (fn uid crew : Nat) (s : State) (o : CopyOp) : List (Nat × Place × Place) → State × CopyOp
  | [] => (s, o)
  | (i, src, dst) :: l =>
    if !dst.remote || o.err then sendCombines fn uid crew s o l
    else
      let (v, s1) := s.copySource crew o i src
      let (op, s2) : RemoteOp × State :=
        if o.overlaps dst then
          let (w, s2) := s1.takeBytes o.desc.elem
          (.store w, s2)
        else (.combine o.desc.op o.desc.elem (BitVec.ofNat 64 (leNat v)) (o.bad.contains i), s1)
      let (s3, o1) := s2.sendWrite fn uid o (((o.addrs[i]?).map (·.2)).getD 0) dst op
      sendCombines fn uid crew s3 o1 l

/-- Apply one segment of a cp.red wherever its elements lie, unless it has been applied. -/
def State.segmentTo (s : State) (fn uid crew : Nat) (o : CopyOp) (k : Nat) : State × CopyOp :=
  if o.applied.contains k then (s, o)
  else
    let (s1, o1) := s.applySegment uid crew o k
    sendCombines fn uid crew s1 o1 (o.segment k)

/-- Apply segments in order. -/
def segmentsTo (fn uid crew : Nat) (s : State) (o : CopyOp) : List Nat → State × CopyOp
  | [] => (s, o)
  | k :: l =>
    let (s1, o1) := s.segmentTo fn uid crew o k
    segmentsTo fn uid crew s1 o1 l

/-- The package refuses an operation's access to its own node at or above BOUND: the operation is in error (R298, R435, R437); of a
gather only its reads are, a write being recorded for the team. -/
def State.judge (s : State) (o : CopyOp) : CopyOp :=
  let src := o.elems.any fun e => s.refuses e.1 o.desc.elem
  let dst := o.kind != .gather && o.elems.any fun e => s.refuses e.2 o.desc.elem
  if src || dst then { o with err := true } else o

/-- Perform an operation up to the unit that starts at element `n`. -/
def State.engineTo (s : State) (fn uid crew : Nat) (o : CopyOp) (n : Nat) : State × CopyOp :=
  let o := s.judge o
  match o.kind with
  | .red =>
    let (s1, o1) := segmentsTo fn uid crew s o ((List.range o.segments).filter fun k => decide (k * segLen o.desc < n))
    (s1, { o1 with progress := n })
  | _ => s.copyTo fn uid crew o n

/-- An operation has written all its payload: its marks have gone out, and nothing is unanswered. -/
def CopyOp.finish (o : CopyOp) : CopyOp := { o with sent := true, done := o.pending == 0, exempt := none }

/-- The first write of a gather that the own node refuses is recorded for the team (R437). -/
def State.gatherFault (s : State) (uid : Nat) (o : CopyOp) : State :=
  if o.kind ≠ .gather then s
  else
    match List.find? (fun e : (Nat × Nat) × Place × Place => s.refuses e.2.2 o.desc.elem) (o.addrs.zip o.elems) with
    | some e => s.modTeam uid fun t => t.noteFault { addr := BitVec.ofNat 64 e.1.2, size := o.desc.esz, reason := 1 }
    | none => s

/-- Perform the rest of an operation, and send the marks that it leaves with other nodes. -/
def State.engineRest (s : State) (fn uid crew : Nat) (o : CopyOp) : State × CopyOp :=
  let (s1, o1) := (s.gatherFault uid o).engineTo fn uid crew o o.elems.length
  if o1.err || o1.kind = .red then (s1, o1.finish)
  else
    let (s2, o2) := sendMarks fn uid s1 o1 o1.remoteMarks
    (s2, o2.finish)

/-- Put an operation back. -/
def State.putCopy (s : State) (uid : Nat) (o : CopyOp) : State := s.modTeam uid fun t => { t with eng := t.eng.modCopy o.id fun _ => o }

/-- An operation may go on: it is not finished, suspended, or waiting for another node, nor for the test of the storage whose
read it abandoned; a test that stops the crew is not waited for, since it waits for the crew (log entry 115). -/
def CopyOp.ready (o : CopyOp) : Bool := !o.done && o.susp.isNone && o.pending == 0 && o.tested.all fun u => decide (3 ≤ u.1)

/-- A place of an operation waits (R392, R409). -/
def State.copyWaits (s : State) (fn : Nat) (o : CopyOp) : Bool := o.elems.any fun e => s.placeWaits fn e.1 || s.placeWaits fn e.2

/-- An operation goes on: it asks other nodes for its sources, or is performed to its end, or waits no longer for the answers
to its writes. A watchpoint ahead stops it. -/
def State.runCopy (s : State) (uid : Nat) (t : Team) (o : CopyOp) : State :=
  let fn := s.fnOf t
  if !o.ready then s
  else if o.mustAsk then
    let (s1, o1) := askElems fn uid o s o.numbered
    s1.putCopy uid o1
  else if o.sent then s.putCopy uid o.finish
  else if s.copyWaits fn o then s
  else
    match o.firstHit with
    | some _ => s
    | none =>
      let (s1, o1) := s.engineRest fn uid t.crew o
      s1.putCopy uid o1

/-- A team whose crew is placed. -/
def State.engineTeam (s : State) (uid : Nat) : Option Team :=
  (s.teams.find? uid).bind fun t => if (s.placeOf t).isSome then some t else none

/-- The marks of a complete batch go to the first stamp that covers it, or wait for one (R283). -/
def Engines.markBatch (e : Engines) (seq : Nat) (poison err : Bool) : Engines :=
  match List.find? (fun m : Stamp => decide (seq ≤ m.upto)) e.stamps with
  | none => { e with openPoison := e.openPoison || poison, openErr := e.openErr || err }
  | some m => e.modStamp m.id fun m => { m with poison := m.poison || poison, err := m.err || err }

/-- The bytes, marks and flags of finished operations, in order. -/
def settleOps (uid : Nat) (s : State) : List CopyOp → List CopyOp → State
  | [], _ => s
  | o :: l, later =>
    settleOps uid ((s.settleCopy o (l ++ later)).modTeam uid fun t => { t with regs := t.regs.raise o.flags }) l later

/-- The oldest batch completes when every copy and fill in it has written its payload (R181). -/
def State.finishBatch (s : State) (uid : Nat) (t : Team) : State :=
  match t.eng.closed with
  | [] => s
  | b :: rest =>
    if b.ops.all fun o => o.done then
      (settleOps uid s b.ops (rest.flatMap Batch.ops ++ t.eng.open_)).modTeam uid fun t =>
        let e : Engines := { t.eng with closed := rest }
        { t with eng := e.markBatch b.seq (b.ops.any fun o => o.poison) (b.ops.any fun o => o.err) }
    else s

/-- At ext exit the device closes a nonempty open batch: once the rest of the team's work is complete and every copy of the batch
has been performed, so that an exit which a watchpoint stops has taken no effect (R181, R336; log entry 99). -/
def State.closeAtExit (s : State) (uid : Nat) (t : Team) : State :=
  let e := t.eng
  if t.status = .parked .exit && !e.open_.isEmpty && e.closed.isEmpty && e.gathers.isEmpty && e.mats.isEmpty && e.stamps.isEmpty
      && e.open_.all fun o => o.done then
    s.putTeam uid t.closeBatch
  else s

/-- BATCH_COMPLETE: an operation of a batch goes on, or the oldest closed batch completes (R181, R280 to R283). -/
def execBatchComplete (uid : Nat) (op : Option Nat) (s : State) : Out :=
  .next <|
    match s.engineTeam uid, op with
    | none, _ => s
    | some t, none =>
      let s1 := s.closeAtExit uid t
      s1.finishBatch uid (s1.teamD uid)
    | some t, some id =>
      match List.find? (fun o : CopyOp => o.id == id) t.eng.batchOps with
      | some o => if t.eng.copyDue o then s.runCopy uid t o else s
      | none => s

/-- The gathers of a team that have been performed, oldest first, are counted (R165, R180). -/
def State.countGathers (s : State) (uid : Nat) : State :=
  match s.teams.find? uid with
  | none => s
  | some t =>
    let done_ := t.eng.gathers.takeWhile fun o => o.done
    (settleOps uid s done_ []).modTeam uid fun t => { t with eng := { t.eng with gathers := t.eng.gathers.drop done_.length } }

/-- GATHER_COMPLETE: a gather goes on, and is counted in its turn (R180, R289). -/
def execGatherComplete (uid id : Nat) (s : State) : Out :=
  .next <|
    match s.engineTeam uid with
    | none => s
    | some t =>
      match List.find? (fun o : CopyOp => o.id == id) t.eng.gathers with
      | some o => (s.runCopy uid t o).countGathers uid
      | none => s

/-- CPRED_SEGMENT_APPLY: a segment of a cp.red is combined before the copy completes (R287, R288). -/
def execCpredSegmentApply (uid id k : Nat) (s : State) : Out :=
  .next <|
    match s.engineTeam uid with
    | none => s
    | some t =>
      match List.find? (fun o : CopyOp => o.id == id && o.kind == .red) t.eng.batchOps with
      | none => s
      | some o =>
        let free := match o.firstHit with
          | some (i, _) => decide (k * segLen o.desc < i)
          | none => true
        if t.eng.copyDue o && o.ready && !o.mustAsk && !o.sent && !s.copyWaits (s.fnOf t) o && decide (k < o.segments) && free then
          let (s1, o1) := s.segmentTo (s.fnOf t) uid t.crew (s.judge o) k
          s1.putCopy uid o1
        else s

/-! ### Stamps (R182, R284) -/

/-- The value of a stamp. -/
def Stamp.value (m : Stamp) : Nat :=
  (batchNumber m.upto).toNat + (if m.poison then 2 ^ 32 else 0) + (if m.err then 2 ^ 33 else 0)

/-- The watched byte of a stamp. -/
def Stamp.hit (m : Stamp) : Option EngHit := if m.exempt then none else sideHit m.watches m.addr.toNat 8 false true

/-- STAMP_WRITE: the oldest stamp is written (R182, R284). -/
def execStampWrite (uid : Nat) (s : State) : Out :=
  .next <|
    match s.engineTeam uid with
    | none => s
    | some t =>
      match t.eng.stamps with
      | [] => s
      | m :: rest =>
        if !t.eng.stampDue m || m.hit.isSome || s.placeWaits (s.fnOf t) m.place then s
        else
          match m.place with
          | .fabric n r =>
            match s.fabricFails (s.fnOf t) m.place with
            | some f => s.modTeam uid fun t =>
                let u : Team := { t with eng := { t.eng with stamps := rest } }
                u.noteFault { addr := m.addr, size := 3, reason := f }
            | none =>
              (s.modTeam uid fun t => { t with eng := t.eng.modStamp m.id fun m => { m with sent := true } }).request
                (s.fnOf t) uid n r (.store (leBytes 8 m.value)) (.stamp m.id) (m.scope == .fabric)
          | p =>
            if s.refuses p 8 then
              s.modTeam uid fun t =>
                let u : Team := { t with eng := { t.eng with stamps := rest } }
                u.noteFault { addr := m.addr, size := 3, reason := 1 }
            else (s.writeNat p 8 m.value).modTeam uid fun t => { t with eng := { t.eng with stamps := rest } }

/-- TRK_ADVANCE_APPLY: the oldest pending advance of a team on a track applies once what it waits for is complete (R184). -/
def execTrkAdvanceApply (uid slot : Nat) (s : State) : Out :=
  .next <|
    match s.engineTeam uid with
    | none => s
    | some t =>
      match List.find? (fun a : Advance => a.slot == slot) t.eng.advances with
      | none => s
      | some a =>
        if t.advanceDue a then
          ((s.applyAdvance t.crew slot a.producer a.n).modTeam uid fun t =>
            { t with eng := { t.eng with advances := t.eng.advances.erase a } }).checkDeadlock t.crew
        else s

/-! ### mma and mma.z (R192, R193, R267 to R270) -/

/-- A quarter operation's view of the operand buffer; its free choices are taken. -/
def State.operandView (s : State) (sn : SourceSnap) (c : Crew) : OperandView × State :=
  ({ old := sn.window, new := c.window, poison := c.windowPoison, fresh := s.fresh }, { s with fresh := s.fresh + 2 * (c.nteam * 65536) })

/-- The elements that each chunk of an mma updates. -/
def mmaElems (n nt nl : Nat) (active : Mask) : List Nat :=
  (maskLanes nl active).flatMap fun m => (List.range (32 * nt)).map fun c => flatIndex n (m / 8) (c / 32) (m % 8) (c % 32)

/-- The watchpoints that an update of some elements of an array meets. -/
def elemsHit (ws : Tbl Watch) (slot gen : Nat) (l : List Nat) (rd wr : Bool) : Option EngHit :=
  l.foldl (fun h i =>
    match List.find? (fun e => e.2.hitsElem slot gen i rd wr) ws with
    | some e => nearer h (some { watch := e.1, addr := i, write := wr })
    | none => h) none

/-- Chunks `c0` to `c1 − 1` of an operation, quarter by quarter. -/
def mmaChunks (sn : SourceSnap) (c : Crew) (zero : Bool) (ra rb : RangeObj) (g : Geometry) (n nl : Nat) (active : Mask)
    (c0 c1 : Nat) : List Nat → State → Tbl Word × Flags → State × Tbl Word × Flags
  | [], s, acc => (s, acc)
  | q :: qs, s, acc =>
    let (v, s1) := s.operandView sn c
    let ch := (pairChunk ra.format rb.format).getD 1
    let acc1 := ((List.range (c1 - c0)).map (· + c0)).foldl (fun acc k => chunkQuarter zero g v ra rb ch n nl active q k acc) acc
    mmaChunks sn c zero ra rb g n nl active c0 c1 qs s1 acc1

/-- The chunks of an operation. -/
def MatOp.chunks (m : MatOp) : Nat :=
  match m.kind with
  | .mma _ ra rb _ _ g _ => chunkCount g ((pairChunk ra.format rb.format).getD 1)
  | .accSt .. => 0

/-- Perform the chunks of an mma or mma.z up to chunk `n`; TSKIP counts the chunks that the engine has skipped, a free number
(R369; log entry 102). -/
def State.mmaTo (s : State) (uid : Nat) (t : Team) (m : MatOp) (arr : ArrayObj) (n : Nat) : State :=
  match m.kind, s.crews.find? t.crew with
  | .mma zero ra rb _ _ g active, some c =>
    let (s1, e, fl) := mmaChunks m.snap c zero ra rb g arr.n t.nlane active m.progress n
      (activeQuarters t.nlane active) s (arr.elems, m.flags)
    let (k, s2) := s1.takeNat
    s2.modTeam uid fun t =>
      let u := t.putArray m.array { arr with elems := e }
      { u with
        eng := u.eng.modMat m.seq fun x => { x with progress := n, flags := fl }
        link := { u.link with skips := countedOn u.link.skips k } }
  | _, _ => s

/-- The chunk at which a watchpoint stops an mma or mma.z, and the hit: every chunk updates every element, so it is the next one
that is not exempt. -/
def Team.mmaHit (t : Team) (m : MatOp) (arr : ArrayObj) : Option (Nat × EngHit) :=
  match m.kind with
  | .mma zero _ _ _ _ g active =>
    let c := if m.exempt = some m.progress then m.progress + 1 else m.progress
    if c < m.chunks then
      (elemsHit m.watches m.array (Pool.gen t.eng.arrays m.array) (mmaElems arr.n g.nt t.nlane active) (!zero) true).map fun h => (c, h)
    else none
  | .accSt .. => none

/-- A matrix operation completes: its flags are ORed into NFLAGS and into the FLAGS of its array together (R94, R193). -/
def Team.matComplete (t : Team) (m : MatOp) : Team :=
  let t1 := match (t.eng.arrays.find? m.array).bind SlotOf.obj with
    | some a => if t.names m.array m then t.putArray m.array { a with flags := a.flags ||| m.flags } else t
    | none => t
  { t1 with regs := t1.regs.raise m.flags }

/-- The performed operations at the head complete, in the order of their issue (R165, R193). -/
def Team.countMats (t : Team) : Team :=
  let u := (t.eng.mats.takeWhile fun m => m.done).foldl Team.matComplete t
  { u with eng := { u.eng with mats := t.eng.mats.dropWhile fun m => m.done } }

/-- An operation has been performed; it completes in its turn (R193, R273). -/
def Team.matDone (t : Team) (seq : Nat) : Team :=
  match t.eng.mats.find? fun m => m.seq == seq with
  | none => t
  | some m =>
    let skip : Flags := match m.kind with
      | .mma _ _ rb _ _ _ _ => flagIf rb.nf flagSKIPOFF
      | .accSt .. => 0
    Team.countMats { t with eng := t.eng.modMat seq fun m => { m with done := true, flags := m.flags ||| skip } }

/-- The matrix operation that an event names, with its array as the operation finds it or has read it, if it may go on. -/
def Team.matAt (t : Team) (seq : Nat) : Option (MatOp × ArrayObj) :=
  match t.eng.mats.find? fun m => m.seq == seq with
  | some m =>
    if !m.done && m.susp.isNone && t.matDue m then
      (m.read.orElse fun _ => (t.eng.arrays.find? m.array).bind SlotOf.obj).map fun a => (m, a)
    else none
  | none => none

/-- MMA_COMPLETE (R192, R193, R267). -/
def execMmaComplete (uid seq : Nat) (s : State) : Out :=
  .next <|
    match s.engineTeam uid with
    | none => s
    | some t =>
      match t.matAt seq with
      | none => s
      | some (m, arr) =>
        match m.kind, t.mmaHit m arr with
        | .mma .., none => (s.mmaTo uid t m arr m.chunks).modTeam uid fun t => t.matDone seq
        | _, _ => s

/-! ### acc.st (R197, R198) -/

/-- The writes of a team's acc.st. -/
def Team.storeWrites (t : Team) (m : MatOp) (arr : ArrayObj) : List StWrite :=
  match m.kind with
  | .accSt _ ctl draws => stWrites arr.n t.quarters t.nlane arr.elems ctl draws
  | .mma .. => []

/-- Whether a unit's element is watched: the array read, or else the bytes written (R362). -/
def Team.storeHit (t : Team) (m : MatOp) (dst : Side) (w : StWrite) : Option (Bool × EngHit) :=
  match elemsHit m.watches m.array (Pool.gen t.eng.arrays m.array) w.reads true false with
  | some h => some (true, h)
  | none => (sideHit m.watches (dst.low + w.off) w.data.length false true).map fun h => (false, h)

/-- The first unit in flat order that a watchpoint stops. -/
def Team.stHit (t : Team) (m : MatOp) (arr : ArrayObj) : Option (Nat × Bool × EngHit) :=
  match m.kind with
  | .accSt dst _ _ =>
    ((t.storeWrites m arr).filterMap fun w =>
      if m.progress ≤ w.at_ ∧ m.exempt ≠ some w.at_ then (t.storeHit m dst w).map fun h => (w.at_, h) else none).foldl
      (fun x y => match x with
        | some a => if a.1 ≤ y.1 then some a else some y
        | none => some y) none
  | .mma .. => none

/-- Make the writes of an acc.st at its destination. -/
def putUnits (fn uid seq : Nat) (dst : Side) : List StWrite → State → State
  | [], s => s
  | w :: l, s =>
    let p := dst.place.add w.off
    let s1 := match p with
      | .fabric n r =>
        let a := BitVec.ofNat 64 (dst.low + w.off)
        match s.fabricFails fn p with
        | some f => s.modTeam uid fun t => t.noteFault { addr := a, size := w.data.length.log2, reason := f }
        | none =>
          (s.modTeam uid fun t => { t with eng := t.eng.modMat seq fun m => { m with pending := m.pending + 1 } }).request
            fn uid n r (.store w.data) (.matrix seq a w.data.length.log2) false
      | p =>
        if s.refuses p w.data.length then s.modTeam uid fun t =>
          t.noteFault { addr := BitVec.ofNat 64 (dst.low + w.off), size := w.data.length.log2, reason := 1 }
        else s.writeBytes p w.data
    putUnits fn uid seq dst l s1

/-- Perform the units of an acc.st before flat index `n`. -/
def State.storeTo (s : State) (uid : Nat) (t : Team) (m : MatOp) (arr : ArrayObj) (n : Nat) : State :=
  match m.kind with
  | .accSt dst _ _ =>
    let l := (t.storeWrites m arr).filter fun w => decide (m.progress ≤ w.at_) && decide (w.at_ < n)
    let s1 := s.modTeam uid fun t => { t with eng := t.eng.modMat m.seq fun x =>
      { x with progress := n, flags := l.foldl (fun f w => f ||| w.flags) x.flags } }
    putUnits (s.fnOf t) uid m.seq dst l s1
  | .mma .. => s

/-- The marks that a finished acc.st clears: of the granules that it has written in whole (R408). -/
def State.storeMarks (s : State) (fn uid seq : Nat) (dst : Side) (log2 : Nat) : State :=
  let first := match dst.place with
    | .fabric _ r => r
    | _ => 0
  let bytes := (List.range dst.span).map fun i => dst.place.add i
  let full (g : Place) : Bool := (List.range 64).all fun k => bytes.contains (g.add k)
  if dst.place.remote then
    (((bytes.map Place.granule).eraseDups).filter full).foldl (fun s g =>
      match g with
      | .fabric n r =>
        if (s.fabricFails fn g).isSome then s
        else
          (s.modTeam uid fun t => { t with eng := t.eng.modMat seq fun m => { m with pending := m.pending + 1 } }).request
            fn uid n r (.mark false) (.matrix seq (BitVec.ofNat 64 (dst.low + (r - first))) log2) false
      | _ => s) s
  else writeMarks s (bytes.map fun p => (p, false)) 1

/-- The destination of an acc.st waits (R392, R409). -/
def State.sideWaits (s : State) (fn : Nat) (dst : Side) : Bool := (List.range dst.span).any fun i => s.placeWaits fn (dst.place.add i)

/-- ACC_ST_COMPLETE: the store is performed, which reads its array (R273), and is complete when every write at another node has
been answered (R197). -/
def execAccStComplete (uid seq : Nat) (s : State) : Out :=
  .next <|
    match s.engineTeam uid with
    | none => s
    | some t =>
      match t.matAt seq with
      | none => s
      | some (m, arr) =>
        match m.kind with
        | .mma .. => s
        | .accSt dst ctl _ =>
          if m.sent then (if m.pending = 0 then s.modTeam uid fun t => t.matDone seq else s)
          else if (t.stHit m arr).isSome || s.sideWaits (s.fnOf t) dst then s
          else
            let s1 := ((s.storeTo uid t m arr (t.arrayLen arr)).storeMarks (s.fnOf t) uid seq dst (stBits ctl / 8).log2).modTeam uid fun t =>
              { t with eng := t.eng.modMat seq fun m => { m with sent := true, read := some arr } }
            let s2 := s1.modTeam uid fun t =>
              if t.eng.mats.any fun m => m.seq == seq && m.pending == 0 then t.matDone seq else t
            s2

/-! ### Suspension (R336, R364) -/

/-- WPROG0. -/
def progress0 (kind quarter chunk vpc : Nat) : Word64 := BitVec.ofNat 64 (kind * 2 ^ 56 + quarter * 2 ^ 48 + chunk % 65536 * 2 ^ 32 + vpc % 2 ^ 32)

/-- KIND of a copy. -/
def copyProgKind : CopyKind → Nat
  | .fill => 5
  | .gather => 6
  | _ => 4

/-- WPROG1 of a copy stopped at element `i`. -/
def CopyOp.progress1 (o : CopyOp) (i : Nat) : Word64 :=
  match o.kind with
  | .gather =>
    let lane := ((o.rows[i / o.desc.count0]?).map GatherRow.lane).getD 0
    BitVec.ofNat 64 (lane * 2 ^ 32 + i % o.desc.count0)
  | _ => BitVec.ofNat 64 i

/-- A suspension at a hit. -/
def EngHit.suspend (h : EngHit) (lane size : Nat) (prog0 prog1 : Word64) : Suspension :=
  { watch := h.watch, addr := BitVec.ofNat 64 h.addr, lane := lane, write := h.write, size := size, prog0 := prog0, prog1 := prog1 }

/-- The row of the team of a flat index of an array (R194). -/
def flatRow (n i : Nat) : Nat := i / (n * 256) * 8 + i / 32 % 8

/-- A copy, fill or gather stops at a watched unit once everything before it has been performed, with other nodes too. -/
def State.suspendCopy (s : State) (uid : Nat) (t : Team) (o : CopyOp) : State :=
  if !o.ready || o.mustAsk || o.sent || s.copyWaits (s.fnOf t) o then s
  else
    match o.firstHit with
    | none => s
    | some (i, h) =>
      let (s1, o1) := s.engineTo (s.fnOf t) uid t.crew o i
      if o1.pending ≠ 0 then s1.putCopy uid o1
      else s1.putCopy uid
        { o1 with susp := some (h.suspend 0 o.desc.esz (progress0 (copyProgKind o.kind) 0 0 o.vpc) (o.progress1 i)) }

/-- A matrix operation stops at a watched chunk or unit. -/
def State.suspendMat (s : State) (uid : Nat) (t : Team) (m : MatOp) (arr : ArrayObj) : State :=
  let put (s : State) (x : Suspension) : State :=
    s.modTeam uid fun t => { t with eng := t.eng.modMat m.seq fun m => { m with susp := some x, begun := true } }
  match m.kind with
  | .mma zero .. =>
    match t.mmaHit m arr with
    | none => s
    | some (c, h) =>
      let row := flatRow arr.n h.addr
      put (s.mmaTo uid t m arr c) (h.suspend row 2 (progress0 (if zero then 2 else 1) (row / 8) c m.vpc) 0)
  | .accSt dst ctl _ =>
    if m.sent || s.sideWaits (s.fnOf t) dst then s
    else
      match t.stHit m arr with
      | none => s
      | some (i, inArray, h) =>
        let row := flatRow arr.n i
        put (s.storeTo uid t m arr i)
          (h.suspend (if inArray then row else 0) (if inArray then 2 else (stBits ctl / 8).log2) (progress0 3 (row / 8) 0 m.vpc)
            (BitVec.ofNat 64 i))

/-- The oldest stamp stops at its watched bytes. -/
def State.suspendStamp (s : State) (uid : Nat) (t : Team) (id : Nat) : State :=
  match t.eng.stamps with
  | [] => s
  | m :: _ =>
    if m.id = id ∧ t.eng.stampDue m then
      match m.hit with
      | none => s
      | some h => s.modTeam uid fun t => { t with eng := t.eng.modStamp id fun m =>
          { m with susp := some (h.suspend 0 3 (progress0 7 0 0 m.vpc) 0) } }
    else s

/-- A team that is parked for an operation now suspended takes its trap at once. -/
def State.reportParked (s : State) (uid : Nat) : State :=
  match s.engineTeam uid with
  | none => s
  | some t =>
    match t.status with
    | .parked p =>
      match t.suspFor p with
      | some (op, x) => s.reportSusp uid op x
      | none => s
    | _ => s

/-- ENGINE_WATCH_SUSPEND: an operation (kind 0 a copy, fill or gather, 1 a matrix operation, 2 a stamp) reaches a watched
access (R336). -/
def execEngineWatchSuspend (uid kind id : Nat) (s : State) : Out :=
  .next <|
    match s.engineTeam uid with
    | none => s
    | some t =>
      match kind with
      | 0 =>
        match List.find? (fun o : CopyOp => o.id == id) t.eng.flying with
        | some o => if t.eng.copyDue o || o.kind == .gather then (s.suspendCopy uid t o).reportParked uid else s
        | none => s
      | 1 =>
        match t.matAt id with
        | some (m, arr) => (s.suspendMat uid t m arr).reportParked uid
        | none => s
      | 2 => (s.suspendStamp uid t id).reportParked uid
      | _ => s

/-! ### Rollbacks (R332, R366, R369) -/

/-- REGION_ROLLBACK: a region is rolled back for a trap condition, an alias conflict or an uncorrectable error; nothing but the
counters and the trace shows it. -/
def execRegionRollback (uid kind : Nat) (s : State) : Out :=
  .next <|
    match s.engineTeam uid with
    | none => s
    | some t =>
      if kind = 0 ∨ 3 < kind ∨ t.status = .retired then s
      else
        let s1 := s.modTeam uid fun t => { t with link := { t.link with
          rollbacks := t.link.rollbacks + 1, aliases := if kind = 2 then t.link.aliases + 1 else t.link.aliases } }
        s1.traceTeam t 6 (s.pcOf t) (BitVec.ofNat 64 kind)

end Sys2Proof.Machine
end

