-- ==== Sys2Proof/Machine/Vf.lean ====
section
/-! DEFINITION. Enabling and resetting functions, and the refills of the arbiters (R374, R377, R388, R389, R399, R400, R402, R420,
R438). -/

namespace Sys2Proof.Machine

/-- Refuse a configuration write of a window: CFGERR takes the code (R375). -/
def State.refuseCfg (s : State) (v code : Nat) : State := s.modFn v fun f => { f with cfgerr := code }

/-! ### Enable (R377) -/

/-- A board of the pool exists. -/
def State.poolExists (s : State) : Bool := (List.range 24).any fun b => brdMode (s.brd b) == 3

/-- The carve-outs of two functions overlap. -/
def carvesMeet (f g : Fn) : Bool :=
  decide (f.s2base.toNat < g.s2base.toNat + g.s2bound.toNat) && decide (g.s2base.toNat < f.s2base.toNat + f.s2bound.toNat)

/-- The code of an enable that fails, 0 when its checks pass. -/
def State.enableCode (s : State) (v : Nat) : Nat :=
  let f := s.fn v
  if (s.boardsOf v).isEmpty && !(s.rated v && s.poolExists) then 3
  else if f.s2bound = 0 ∨ s.s2limit v < f.s2base.toNat + f.s2bound.toNat then 4
  else if s.rated v && (List.range 32).any fun w => w != v && s.rated w && (s.fn w).state != .off && carvesMeet f (s.fn w) then 5
  else 0

/-- A write of EN = 1: nothing at a STATE other than 0. A fresh key pair is drawn before the scrub (R402), and POISONED counts
from here (R410). -/
def State.enable (s : State) (v : Nat) : State :=
  if (s.fn v).state ≠ .off then s
  else
    match s.enableCode v with
    | 0 =>
      let (k, s1) := s.newUid
      s1.modFn v fun f => { f with state := .preparing, en := true, key := k, poisoned := 0 }
    | c => s.refuseCfg v c

/-- A function that the host may enable and reset. -/
def isVf (v : Nat) : Bool := decide (1 ≤ v) && decide (v ≤ 31)

/-- VF_ENABLE (R377); a checkpoint command refuses it (R424). -/
def execVfEnable (fn : Nat) (s : State) : Out :=
  .next (if fn < 32 then s.hostActs fun s => if s.checkpointing then s.refuseCfg fn 8 else if isVf fn then s.enable fn else s else s)

/-- The window address of a place in device memory, for the functions that some groups serve. -/
def windowOf (groups : List Nat) (k : Nat) : Option Nat :=
  (List.find? (fun i => groups[i]? == some (k / 2 ^ 35)) (List.range groups.length)).map fun i =>
    (k % 2 ^ 35 / 128 * groups.length + i) * 128 + k % 128

/-- A place in device memory lies in a function's carve-out. -/
def State.inCarve (s : State) (v k : Nat) : Bool :=
  match windowOf (s.groups v) k with
  | none => false
  | some w => decide ((s.fn v).s2base.toNat ≤ w) && decide (w < (s.fn v).s2base.toNat + (s.fn v).s2bound.toNat)

/-- Bytes of a slice group's part of its window; the rest is its reserved space (R376). -/
def groupWindow : Nat := 30 * 2 ^ 30

/-- A place in device memory whose counter a scrub of a function resets: it lies in the function's window, and in no carve-out of
another rated function that is on, with which the pool window is shared (R376, R404; log entry 124). -/
def State.scrubs (s : State) (v k : Nat) : Bool :=
  decide (k % 2 ^ 35 < groupWindow) && (windowOf (s.groups v) k).isSome
    && (List.range 32).all fun w => w == v || !s.rated w || (s.fn w).state == .off || !s.inCarve w k

/-- A page's counters after a scrub: every counter of the window is zero, and with all 64 of a page its major counter (R404). -/
def State.scrubPage (s : State) (v page : Nat) (c : CounterPage) : CounterPage :=
  if (List.range 64).all fun g => s.scrubs v (64 * (64 * page + g)) then {}
  else { c with minors := c.minors.filter fun e => !s.scrubs v (64 * (64 * page + e.1)) }

/-- The scrub: every byte zero, every mark and every counter cleared, every granule as the scrub writes it. -/
def State.scrub (s : State) (v : Nat) : State :=
  { s with
    mem := s.mem.filter fun c => !s.inCarve v c.1
    dev := { s.dev with
      poison := s.dev.poison.filter fun e => !s.inCarve v (e.1 * 64)
      counters := s.dev.counters.foldl (fun t e => Tbl.set t {} e.1 (s.scrubPage v e.1 e.2)) []
      stored := s.dev.stored.filter fun e => !s.inCarve v (e.1 * 64) } }

/-- A function's streams restart at zero (R438): each target takes the new base. -/
def State.restartStreams (s : State) (v : Nat) : State :=
  let mine := s.fab.streams.filter fun e => e.1 / 1024 == v
  let s1 := { s with fab := { s.fab with streams := s.fab.streams.filter fun e => e.1 / 1024 != v } }
  mine.foldl (fun s e => s.sendWire (.streamReset v (e.1 % 1024) 0)) s1

/-- VF_SCRUB_DONE: the window is zero, and the function runs (R377). -/
def execVfScrubDone (fn : Nat) (s : State) : Out :=
  .next <|
    if (s.fn fn).state ≠ .preparing then s
    else
      ((s.scrub fn).modFn fn fun f => { f with state := .running, serial := 1 }).restartStreams fn

/-! ### Reset (R399) -/

/-- The slices of a function end at once (R400). -/
def State.endSlices (s : State) (v : Nat) : State :=
  let end_ (e : Nat × Slice) : Nat × Slice :=
    if e.2.running = some v then (e.1, { e.2 with pos := e.2.pos + 1, running := none }) else e
  { s with dev := { s.dev with slices := s.dev.slices.map end_ } }

/-- Withdraw every page request of a function. -/
def State.withdrawAll (s : State) (v : Nat) : State :=
  let mine := (s.dev.prq.filter fun e => (e.2.req.map PageReq.fn) == some v).map (·.1)
  (mine.foldl State.freeEntry s).modFn v fun f => { f with prqWait := [], ringHeld := [] }

/-- Abort every group of a function that is not decided, with reason 4. -/
def State.resetGroups (s : State) (v : Nat) : State :=
  (s.fab.groups.filter fun e => e.2.fn == v && (e.2.phase == .open_ || e.2.phase == .preparing)).foldl
    (fun s e => (s.modGroup e.1 fun g => { g with freed := true }).abortGroup e.1 4 none) s

/-- Steps 1 to 6 of a function's reset; its groups are aborted before a team that goes could leave one to be committed (R445). -/
def State.beginReset (s : State) (v : Nat) : State :=
  let s1 := s.modFn v fun f => { f with state := .resetting, en := false }
  let drop (e : Nat × Launch) : Nat × Launch := if e.2.fn = v then (e.1, { e.2 with halted := true }) else e
  let s2 : State := { s1 with images := s1.images.filter (fun i => i.fn != v), launches := s1.launches.map drop }
  let s3 := (s2.endSlices v).resetGroups v
  let s4 := (s3.crews.filter fun e => e.2.fn == v).foldl (fun s e => s.tearCrew e.1 4) s3
  (s4.withdrawAll v).resetRecs v

/-- A write of EN = 0: the reset of a running function; else nothing. -/
def State.startReset (s : State) (v : Nat) : State := if (s.fn v).state ≠ .running then s else s.beginReset v

/-- A function whose window loses a slice group is reset, whether it runs or is being prepared (R411). -/
def State.forceReset (s : State) (v : Nat) : State :=
  if (s.fn v).state = .running ∨ (s.fn v).state = .preparing then s.beginReset v else s

/-- VF_RESET: a write of EN = 0 (R399, R424). -/
def execVfReset (fn : Nat) (s : State) : Out :=
  .next (if fn < 32 then s.hostActs fun s => if s.checkpointing then s.refuseCfg fn 8 else if isVf fn then s.startReset fn else s else s)

/-- VF_FLR: a function-level reset acts as a write of EN = 0 (R420). -/
def execVfFlr (fn : Nat) (s : State) : Out :=
  .next (if isVf fn then (s.hostActs fun s => if s.checkpointing then s.refuseCfg fn 8 else s.startReset fn) else s)

/-- The write of step 7 for a launch. -/
def resetWrite (fn : Nat) (addr serial : Word64) (ext : List Extent) : Completion :=
  { fn := fn, addr := addr, serial := serial, flags := 0, status := 2, arrive := false, extents := ext }

/-- Put an owed write among others in the order of their serials. -/
def insertSerial (c : Completion) : List Completion → List Completion
  | [] => [c]
  | d :: l => if c.serial.toNat < d.serial.toNat then c :: d :: l else d :: insertSerial c l

/-- The objects that launches of a reset function still owe. -/
def launchWrites (v : Nat) : List (Nat × Launch) → State → List Completion × State
  | [], s => ([], s)
  | e :: l, s =>
    let (ext, s1) := s.launchExtents e.2
    let (m, s2) := launchWrites v l s1
    (resetWrite v e.2.pkt.signal e.2.serial ext :: m, s2)

/-- The objects that a reset function's launches still owe, in serial order: of the launches that hold an entry, and of those
whose write was withheld and is discarded. -/
def State.resetWrites (s : State) (v : Nat) : List Completion × State :=
  let (a, s1) := launchWrites v (s.launches.filter fun e => e.2.fn == v) s
  let b := (s.fn v).withheld.map fun c => resetWrite v c.addr c.serial c.extents
  (((a ++ b).filter fun c => c.addr != 0).foldl (fun l c => insertSerial c l) [], s1)

/-- A reset cannot write its objects yet: one of them, or the list through which it is reached, waits (R392, R409). -/
def State.resetWaits (s : State) (v : Nat) : Bool :=
  ((s.launches.any fun e => e.2.fn == v && !e.2.ready) && s.listWaits v) || (s.resetWrites v).1.any s.deliveryWaits

/-- The registers of a function after its reset. -/
def Fn.afterReset (v : Nat) (f : Fn) : Fn :=
  { Fn.init v with s2base := f.s2base, s2bound := f.s2bound, quota := f.quota, rates := f.rates, tctl := f.tctl, key := f.key }

/-- Steps 7 to 9 of a reset. -/
def State.finishReset (s : State) (v : Nat) : State :=
  let (l, s0) := s.resetWrites v
  let s1 := l.foldl State.deliver s0
  let empty (e : Nat × SubCore) : Nat × SubCore :=
    if e.2.fn = v then (e.1, { e.2 with halfA := none, halfB := none, loads := [], selected := none }) else e
  let s2 : State := { s1 with launches := s1.launches.filter (fun e => e.2.fn != v), subs := s1.subs.map empty }
  { s2 with fns := s2.fns.insert v ((s2.fn v).afterReset v) }

/-- VF_RESET_DONE: a reset comes to its end, and STATE is 0 (R399). -/
def execVfResetDone (fn : Nat) (s : State) : Out :=
  .next (if (s.fn fn).state = .resetting && !s.resetWaits fn then s.finishReset fn else s)

/-! ### Arbiters (R387 to R389) -/

/-- What the device held back goes on: records of the page-request rings and of the traces, and withheld items of functions that run
again or whose objects waited (R392, R397, R409). -/
def State.flushHeld (s : State) : State :=
  (List.range 32).foldl (fun s v => (if s.descheduled v then s else s.release v).drainTrace v) s.flushRings

/-- BUCKET_REFILL: a period of an instance begins (R389); the rates written since take effect (R388). -/
def execBucketRefill (arb inst : Nat) (s : State) : Out :=
  .next <|
    if 7 ≤ arb then s
    else
      let x := (s.arbiter (arbKey arb inst)).refill (s.arbCapacity arb) fun v => if s.metered arb v then (s.fn v).rate arb else 0
      State.flushHeld { s with dev := { s.dev with arbiters := s.dev.arbiters.insert (arbKey arb inst) x } }

/-- The GUAR values that an arbiter meters sum to at most 1,024, as a function of the rates and of what is rated. -/
def guarSum (rates : Nat → Word64) (metered : Nat → Bool) : Nat :=
  (List.range 32).foldl (fun n v => n + if metered v then rateGuar (rates v) else 0) 0

end Sys2Proof.Machine
end

