-- ==== Sys2Proof/Machine/Images.lean ====
section
/-! DEFINITION. Images: their form, the checks of a load, loading and unloading (R70 to R77, R323, R415 to R418). -/

namespace Sys2Proof.Machine

/-! ### The file (R70, R71) -/

/-- A little-endian number of `n` bytes of a file. -/
def num (f : List Byte) (off n : Nat) : Nat := leNat ((f.drop off).take n)

/-- The ELF header is as R70. What else an ELF64 file holds there is not examined, and program headers are absent when e_phnum is 0
(DESIGN CHOICE, log entry 40). -/
def elfHeaderOk (f : List Byte) : Bool :=
  decide (64 ≤ f.length) && num f 0 4 == 0x464C457F && num f 4 1 == 2 && num f 5 1 == 1 && num f 16 2 == 2 && num f 18 2 == 0x5A96
    && num f 24 8 == 0 && num f 48 4 == 1 && num f 56 2 == 0

/-- A section header: the name's offset, the place, the size, the index. -/
structure Section where
  index : Nat
  name : List Byte
  offset : Nat
  size : Nat
deriving DecidableEq, Repr

/-- The bytes of a string up to its terminating zero. -/
def cString (f : List Byte) (off : Nat) : List Byte := (f.drop off).takeWhile fun b => b != 0

/-- The section headers of a file; none when the table is malformed. -/
def sectionTable (f : List Byte) : Option (List Section) :=
  let off := num f 40 8
  let n := num f 60 2
  let strs := num f (off + 64 * num f 62 2 + 24) 8
  let size (i : Nat) : Nat := if num f (off + 64 * i + 4) 4 = 8 then 0 else num f (off + 64 * i + 32) 8
  if num f 58 2 ≠ 64 ∨ f.length < off + 64 * n ∨ n ≤ num f 62 2 then none
  else some ((List.range n).map fun i =>
    { index := i, name := cString f (strs + num f (off + 64 * i) 4), offset := num f (off + 64 * i + 24) 8, size := size i })

/-- The bytes of a name. -/
def ascii (s : String) : List Byte := s.toList.map fun c => BitVec.ofNat 8 c.toNat

/-- The section of a name. -/
def findSection (l : List Section) (s : String) : Option Section := l.find? fun x => x.name == ascii s

/-- A section lies within the file. -/
def Section.within (x : Section) (f : List Byte) : Bool := decide (x.offset + x.size ≤ f.length)

/-- The bytes of a section. -/
def Section.bytes (x : Section) (f : List Byte) : List Byte := (f.drop x.offset).take x.size

/-! ### The signature (R76) -/

/-- Bytes of `.troric.sig`. -/
def sigSize : Nat := 29808

/-- The policy of the firmware that runs. -/
def State.policy (s : State) : Policy := Config.policyOf s.running.policy

/-- The eight registers of the service key. -/
def keyWords (p : Policy) : List Word64 := (List.range 8).map fun i => p.serviceKey.extractLsb' (64 * i) 64

/-- The key of a slot: its eight registers; slot 0 from the firmware policy (R418). -/
def State.keyOf (s : State) (slot : Nat) : List Word64 :=
  if slot = 0 then keyWords s.policy else s.dev.keys.get (List.replicate 8 0) slot

/-- The bytes of a key, each register least significant byte first. -/
def State.keyBytes (s : State) (slot : Nat) : List Byte := (s.keyOf slot).flatMap fun w => leBytes 8 w.toNat

/-- A key slot holds a key. -/
def State.keySet (s : State) (slot : Nat) : Bool := decide (slot < 16) && (s.keyOf slot).any fun w => w != 0

/-- KEYMASK permits a slot. -/
def Fn.keyOk (f : Fn) (slot : Nat) : Bool := f.keymask.toNat.testBit slot

/-- The signature section, last in the file, verifies under a key that the window may use (R76, R416). Its place and its size count
as part of code 2, its FORMAT and zero field as part of code 3 (DESIGN CHOICE, log entry 40). -/
def State.signedOk (s : State) (v : Nat) (f : List Byte) (x : Section) : Bool :=
  let slot := num f (x.offset + 4) 4
  x.offset + x.size == f.length && x.size == sigSize && decide (num f 40 8 + 64 * num f 60 2 ≤ x.offset)
    && s.keySet slot && (s.fn v).keyOk slot
    && slhVerify slh256s (s.keyBytes slot) (f.take x.offset) (f.drop (x.offset + 16))

/-! ### Tables (R73, R75) -/

/-- An entry of the overlay table: number, flags, size, section. -/
structure OverlayEntry where
  number : Nat
  flags : Nat
  size : Nat
  section_ : Nat
  zero : Nat
deriving DecidableEq, Repr

/-- The entries of an overlay table. -/
def overlayEntries (b : List Byte) : List OverlayEntry :=
  (List.range (b.length / 16)).map fun i =>
    { number := num b (16 * i) 2, flags := num b (16 * i + 2) 2, size := num b (16 * i + 4) 4, section_ := num b (16 * i + 8) 4
      zero := num b (16 * i + 12) 4 }

/-- Numbers strictly rise. -/
def rising : List Nat → Bool
  | [] => true
  | [_] => true
  | a :: b :: l => decide (a < b) && rising (b :: l)

/-- The decimal digits of a number below 1,000. -/
def digits (n : Nat) : List Byte :=
  let d (k : Nat) : Byte := BitVec.ofNat 8 (48 + k % 10)
  if n < 10 then [d n] else if n < 100 then [d (n / 10), d n] else [d (n / 100), d (n / 10), d n]

/-- An overlay entry keeps to R75 and R71, its length apart. A section is aligned when its offset in the file is (DESIGN CHOICE, log
entry 40). -/
def overlayEntryOk (l : List Section) (e : OverlayEntry) : Bool :=
  decide (e.number ≤ 255) && decide (e.flags ≤ 1) && e.size % 16 == 0 && decide (16 ≤ e.size) && e.zero == 0
    && match List.find? (fun x : Section => x.index == e.section_) l with
      | some x => x.name == ascii ".troric.code." ++ digits e.number && x.size == e.size && x.offset % 16 == 0
      | none => false

/-- The spill reservation (R74). -/
def spillOf (c : Counts) (teams lanes : Nat) : Nat :=
  let image := lanes * (4 * c.nv + 8 * c.nw) + 4 * c.ns + 8 * c.nx
  (teams * (image - 65536) + 255) / 256 * 256

/-- A kernel header (R73). -/
def kernelOfBytes (b : List Byte) : Kernel :=
  let c : Counts := ⟨num b 12 2, num b 14 2, num b 16 2, num b 18 2⟩
  { ovl := num b 4 2, entry := num b 8 4, counts := c, teams := num b 20 2, lanes := num b 22 2, producer := num b 24 2
    tracks := num b 26 2, ranges := num b 28 2, scratch := num b 32 4, spill := spillOf c (num b 20 2) (num b 22 2) }

/-- The reserved fields of a header are zero, and its name lies in `.strtab`. -/
def kernelReservedOk (b : List Byte) (strtab : Nat) : Bool :=
  num b 6 2 == 0 && num b 30 2 == 0 && num b 36 12 == 0 && decide (num b 0 4 < strtab)

/-- A header keeps to its directives, and its entry to its overlay (R65, R77 code 4): an ENTRY that is no multiple of 16, and an OVL
that names no overlay of the table, are among these (DESIGN CHOICE, log entry 40). -/
def kernelOk (ovls : List OverlayEntry) (k : Kernel) : Bool :=
  decide (k.counts.nv ≤ 32768) && decide (k.counts.nw ≤ 32768) && decide (k.counts.ns ≤ 32768) && decide (k.counts.nx ≤ 32768)
    && decide (1 ≤ k.teams) && decide (k.teams ≤ 4) && decide (1 ≤ k.lanes) && decide (k.lanes ≤ 1024) && decide (k.producer < k.teams)
    && decide (k.tracks ≤ 16) && decide (k.ranges ≤ 32) && decide (k.scratch ≤ 1048576) && k.entry % 16 == 0
    && match List.find? (fun e : OverlayEntry => e.number == k.ovl) ovls with
      | some e => decide (k.entry < e.size)
      | none => false

/-! ### Branches (R77 code 5) -/

/-- A legal relative branch, dvg or call at an address of an overlay of `size` bytes stays within it. -/
def branchOk (size pc : Nat) (q : Quad) (i : Nat) : Bool :=
  let w := q.word i
  let fn := bits w 26 24
  if bits w 31 27 = 25 ∧ (fn = 0 ∨ fn = 1 ∨ fn = 2 ∨ fn = 5) ∧ (defectAt Counts.max q i).isNone then
    let t : Int := (pc : Int) + (BitVec.ofNat 19 (bits w 18 0)).toInt * 16
    decide (0 ≤ t) && decide (t < size)
  else true

/-- Every branch of an overlay's code stays within it. -/
def branchesOk (code : List Byte) : Bool :=
  (List.range (code.length / 16)).all fun k =>
    let q : Quad := ⟨num code (16 * k) 4, num code (16 * k + 4) 4, num code (16 * k + 8) 4, num code (16 * k + 12) 4⟩
    (List.range 4).all fun i => branchOk code.length (16 * k) q i

/-! ### The checks of a load (R77, R416) -/

/-- The kernel headers of a table, each 48 bytes. -/
def kernelHeaders (b : List Byte) : List (List Byte) := (List.range (b.length / 48)).map fun i => (b.drop (48 * i)).take 48

/-- The parts of an image whose sections are all there. -/
structure Parts where
  sections : List Section
  overlays : List OverlayEntry
  headers : List (List Byte)
  strtab : Nat
  slot : Nat
deriving DecidableEq, Repr

/-- The name of every symbol of `.symtab`, whose entries of 24 bytes begin with an offset in `.strtab` (R71). -/
def symbolNames (f : List Byte) (symtab strtab : Section) : List (List Byte) :=
  (List.range (symtab.size / 24)).map fun i => cString f (strtab.offset + num f (symtab.offset + 24 * i) 4)

/-- Every kernel's name is that of a symbol (R71; DESIGN CHOICE, log entry 40). -/
def kernelNamed (f : List Byte) (symtab strtab : Section) (head : List Byte) : Bool :=
  (symbolNames f symtab strtab).contains (cString f (strtab.offset + num head 0 4))

/-- The parts of a file, none when a section is missing or lies beyond the file, or a table is malformed (R77 code 3). -/
def partsOf (f : List Byte) (l : List Section) (sig : Section) : Option Parts :=
  if !l.all fun x => x.within f then none
  else
  match findSection l ".troric.overlays", findSection l ".troric.kernels", findSection l ".strtab", findSection l ".symtab"
      , findSection l ".troric.data" with
  | some o, some k, some t, some y, some d =>
    let ovls := overlayEntries (o.bytes f)
    let heads := kernelHeaders (k.bytes f)
    if o.size % 16 == 0 && k.size % 48 == 0 && rising (ovls.map OverlayEntry.number) && ovls.all (overlayEntryOk l)
        && heads.all (fun h => kernelReservedOk h t.size && kernelNamed f y t h) && d.offset % 4096 == 0
        && num f sig.offset 4 == 1 && num f (sig.offset + 8) 8 == 0 then
      some { sections := l, overlays := ovls, headers := heads, strtab := t.size, slot := num f (sig.offset + 4) 4 }
    else none
  | _, _, _, _, _ => none

/-- The code bytes of an overlay. -/
def Parts.code (p : Parts) (f : List Byte) (e : OverlayEntry) : List Byte :=
  match List.find? (fun x : Section => x.index == e.section_) p.sections with
  | some x => x.bytes f
  | none => []

/-- The checks of R77 in their order: the parts of a good image, or the code of the first failure. Where the section table does not
lead to a signature, the signature is invalid (code 2), whatever else is malformed. -/
def State.checkImage (s : State) (v : Nat) (f : List Byte) : Except Nat Parts :=
  if !elfHeaderOk f then .error 1
  else
    match sectionTable f with
    | none => .error 2
    | some l =>
      match findSection l ".troric.sig" with
      | none => .error 2
      | some sig =>
        if !s.signedOk v f sig then .error 2
        else
          match partsOf f l sig with
          | none => .error 3
          | some p =>
            if !p.headers.all (fun h => kernelOk p.overlays (kernelOfBytes h)) then .error 4
            else if !p.overlays.all (fun e => branchesOk (p.code f e)) then .error 5
            else if p.overlays.any (fun e => decide (overlaySpan < e.size)) then .error 6
            else .ok p

/-- The image of a good file. -/
def Parts.image (p : Parts) (v n : Nat) (f : List Byte) : Image :=
  { fn := v, num := n, imgid := beNat (shake256 32 f), keySlot := p.slot, kernels := p.headers.map kernelOfBytes
    overlays := p.overlays.foldl (fun t e => Tbl.insert t e.number { size := e.size, policy := e.flags % 2 == 1 }) []
    code := p.overlays.foldl (fun m e => pokes m (e.number * overlaySpan) (p.code f e)) [] }

/-! ### Commands (R415 to R417) -/

/-- IMGSTAT. -/
def imgStat (kcount image code state : Nat) : Word64 := BitVec.ofNat 64 (kcount % 2 ^ 16 * 2 ^ 32 + image * 2 ^ 16 + code * 2 ^ 8 + state)
/-- STATE of IMGSTAT. -/
def Fn.imgState (f : Fn) : Nat := f.imgstat.toNat % 4

/-- An image command ends (R414 vector 1). -/
def State.endImage (s : State) (v : Nat) (stat : Word64) : State :=
  (s.modFn v fun f => { f with imgstat := stat, imgSource := [] }).msi v 1

/-- The bytes of an image's source as any agent reads them (R282), none when they cannot be read. -/
def State.imageSource (s : State) (v : Nat) : Option (List Byte) × State :=
  let a := (s.fn v).imgsrc.toNat
  let n := (s.fn v).imglen.toNat
  if (s.fn v).s2bound.toNat < a + n || s.markedIn (.gpa v a) n then (none, s)
  else
    let (l, s1) := s.loadBytes (.gpa v a) n
    (some l, s1)

/-- The source of an image waits: a slice group that holds part of it is under test (R409). -/
def State.sourceWaits (s : State) (v : Nat) : Bool :=
  (List.range (s.fn v).imglen.toNat).any fun i => s.placeWaits v (.gpa v ((s.fn v).imgsrc.toNat + i))

/-- A load begins, or ends at once where the function does not run (R416). -/
def State.startLoad (s : State) (v : Nat) : State :=
  if (s.fn v).state ≠ .running then s.endImage v (imgStat 0 0 10 3)
  else
    let (l, s1) := s.imageSource v
    s1.modFn v fun f => { f with imgstat := imgStat 0 0 0 1, imgSource := l.getD [] }

/-- An unload begins, or fails where the number is not loaded (R416, R417). -/
def State.startUnload (s : State) (v image : Nat) : State :=
  match s.imageOf v image with
  | none => s.endImage v (imgStat 0 0 9 3)
  | some _ =>
    let mark (i : Image) : Image := if i.fn = v ∧ i.num = image then { i with unloading := true } else i
    let s1 : State := { s with images := s.images.map mark }
    s1.modFn v fun f => { f with imgstat := imgStat 0 0 0 1 }

/-- A write of IMGCMD (R415, R417): the register holds what an accepted write gave it. -/
def State.imageCommand (s : State) (v val : Nat) : State :=
  let op := val % 4
  if val ≠ op + val / 2 ^ 16 % 64 * 2 ^ 16 ∨ op = 0 ∨ op = 3 then s.refuseCfg v 1
  else if (s.fn v).imgState = 1 then s.refuseCfg v 8
  else
    let s1 := s.modFn v fun f => { f with imgcmd := BitVec.ofNat 64 val }
    if op = 1 then s1.startLoad v else s1.startUnload v (val / 2 ^ 16)

/-- IMG_LOAD: a write of IMGCMD that loads (R416). -/
def execImgLoad (fn : Nat) (s : State) : Out := .next (s.hostActs fun s => s.imageCommand fn 1)
/-- IMG_UNLOAD: a write of IMGCMD that unloads a number (R417). -/
def execImgUnload (fn image : Nat) (s : State) : Out := .next (s.hostActs fun s => s.imageCommand fn (image * 2 ^ 16 + 2))

/-- A byte of a source that has changed during a load is the old one or the new one (R416). -/
def mixBytes (s : State) : List Byte → List Byte → List Byte × State
  | [], l => (l, s)
  | l, [] => (l, s)
  | a :: l, b :: m =>
    let (x, s1) := if a = b then (a, s) else (let (c, s1) := s.takeBool; (if c then a else b, s1))
    let (r, s2) := mixBytes s1 l m
    (x :: r, s2)

/-- The lowest image number of a function that is free. -/
def State.freeImage (s : State) (v : Nat) : Option Nat :=
  List.find? (fun n => !s.images.any fun i => i.fn == v && i.num == n) (List.range 64)

/-- IMG_LOAD_DONE: of a function's load and the translation core that makes its checks, the checks end, and the load (R416); a
core under test does no work (R409). -/
def execImgLoadDone (load : Nat × Nat) (s : State) : Out :=
  .next <|
    let fn := load.1
    let f := s.fn fn
    if f.imgState ≠ 1 ∨ f.imgcmd.toNat % 4 ≠ 1 ∨ f.state ≠ .running ∨ !s.translator load.2 ∨ s.sourceWaits fn then s
    else
      match s.imageSource fn with
      | (none, s0) => s0.endImage fn (imgStat 0 0 8 3)
      | (some l, s0) =>
        let (file, s1) := mixBytes s0 f.imgSource l
        match s1.checkImage fn file with
        | .error c => s1.endImage fn (imgStat 0 0 c 3)
        | .ok p =>
          match s1.freeImage fn with
          | none => s1.endImage fn (imgStat 0 0 7 3)
          | some n => { s1 with images := s1.images ++ [p.image fn n file] }.endImage fn (imgStat p.headers.length n 0 2)

/-- IMG_UNLOAD_DONE: no accepted launch of the image is left; its number is freed (R417). -/
def execImgUnloadDone (fn : Nat) (s : State) : Out :=
  .next <|
    let f := s.fn fn
    let n := f.imgcmd.toNat / 2 ^ 16
    if f.imgState ≠ 1 ∨ f.imgcmd.toNat % 4 ≠ 2 ∨ s.launches.any fun e => e.2.fn == fn && e.2.image == n then s
    else { s with images := s.images.filter fun i => !(i.fn == fn && i.num == n) }.endImage fn (imgStat 0 0 0 2)

/-! ### Key slots (R418) -/

/-- A key slot that takes a write: 1 to 15, and not locked, as it is from its first nonzero write (R418; log entry 60). -/
def State.keyOpen (s : State) (slot : Nat) : Bool := decide (1 ≤ slot) && decide (slot ≤ 15) && !s.keySet slot

/-- Write a key slot's eight registers at once. -/
def State.writeKeySlot (s : State) (slot : Nat) (key : List Word64) : State :=
  if s.keyOpen slot then
    { s with dev := { s.dev with keys := s.dev.keys.insert slot ((List.range 8).map fun i => key.getD i 0) } }
  else s

/-- Write one of the eight registers of a key slot. -/
def State.writeKey (s : State) (slot i : Nat) (val : Word64) : State := s.writeKeySlot slot ((s.keyOf slot).set i val)

/-- KEY_SLOT_WRITE: H writes a key slot, its first register and those after it (R418). -/
def execKeySlotWrite (slot : Nat) (first : Word64) (rest : List Word64) (s : State) : Out :=
  .next (s.hostActs fun s => s.writeKeySlot slot (first :: rest))

end Sys2Proof.Machine
end

