-- ==== Sys2Proof/Machine/Reliability.lean ====
section
/-! DEFINITION. Encryption, counters, poison marks, errors, self-test and retirement (R402 to R412). -/

namespace Sys2Proof.Machine

/-! ### Keys and ciphers (R402, R403) -/

/-- The function whose storage a place of device memory is (R402, R410): the owner of its slice group; in the pool window the
rated function whose carve-out holds it, one that is on before one that is off, and VF 0 elsewhere; none in reserved space and in
a group that serves no window. -/
def State.storageVf (s : State) (k : Nat) : Option Nat :=
  let c := s.sg (k / 2 ^ 35)
  if groupWindow ≤ k % 2 ^ 35 then none
  else if sgMode c = 1 then some (sgOwner c)
  else if sgMode c = 3 then
    let holds (v : Nat) : Bool := s.rated v && s.inCarve v k
    match List.find? (fun v => holds v && (s.fn v).state != .off) (List.range 32) with
    | some v => some v
    | none => some ((List.find? holds (List.range 32)).getD 0)
  else none

/-- The key pair that protects a place of device memory: its function's, or the device's. -/
def State.storageKey (s : State) (k : Nat) : Nat :=
  match s.storageVf k with
  | some v => (s.fn v).key
  | none => s.dev.deviceKey

/-- Ke of a key pair: random bits, drawn on the device. -/
def dataKey (pair : Nat) : BitVec 256 := Config.keyBits (2 * pair)
/-- Kt of a key pair. -/
def tagKey (pair : Nat) : BitVec 256 := Config.keyBits (2 * pair + 1)

/-- The seed of block `j` of the granule at physical address `a` under counters `major` and `minor`. -/
def seed (a : BitVec 50) (major : BitVec 64) (minor : BitVec 7) (j : BitVec 2) : BitVec 128 := a ++ major ++ minor ++ j ++ (0 : BitVec 5)
/-- The seed of the tag. -/
def tagSeed (a : BitVec 50) (major : BitVec 64) (minor : BitVec 7) : BitVec 128 :=
  a ++ major ++ minor ++ (0 : BitVec 2) ++ (0b10000 : BitVec 5)

/-- Encrypt, or decrypt, block `j`. -/
def cipherBlock (pair : Nat) (a : BitVec 50) (major : BitVec 64) (minor : BitVec 7) (j : BitVec 2) (x : BitVec 128) : BitVec 128 :=
  x ^^^ aes256 (dataKey pair) (seed a major minor j)

/-- Multiplication in the field of GHASH: bit 127 is the coefficient of 1. -/
def gmul (x y : BitVec 128) : BitVec 128 :=
  ((List.range 128).foldl (fun (zv : BitVec 128 × BitVec 128) i =>
    let z := if x.getLsbD (127 - i) then zv.1 ^^^ zv.2 else zv.1
    let v := if zv.2.getLsbD 0 then zv.2 >>> 1 ^^^ 0xE1000000000000000000000000000000 else zv.2 >>> 1
    (z, v)) (0, y)).1

/-- GHASH of AES-GCM over whole blocks. -/
def ghash (h : BitVec 128) (blocks : List (BitVec 128)) : BitVec 128 := blocks.foldl (fun y x => gmul (y ^^^ x) h) 0

/-- The tag of a granule's ciphertext. -/
def granuleTag (pair : Nat) (a : BitVec 50) (major : BitVec 64) (minor : BitVec 7) (cipher : List (BitVec 128)) : BitVec 56 :=
  (ghash (aes256 (tagKey pair) 0) cipher ^^^ aes256 (tagKey pair) (tagSeed a major minor)).setWidth 56

/-! ### Counters (R404 to R406) -/

/-- A minor counter moves on; past 127 the major counter does, every other minor counter is zero and re-encryption runs. -/
def CounterPage.advance (c : CounterPage) (g : Nat) : CounterPage :=
  if c.minors.get 0 g < 127 then { c with minors := c.minors.set 0 g (c.minors.get 0 g + 1) }
  else { major := c.major + 1, minors := [(g, 1)], busy := true }

/-- The number of a block of level 2 or 3 among the parents. -/
def parentKey (level n : Nat) : Nat := 2 * n + (level - 2)

/-- A block of level 1 to 3 by its number. -/
def State.counterBlock (s : State) (level n : Nat) : CounterPage :=
  if level = 1 then s.dev.counters.get {} n else s.dev.parents.get {} (parentKey level n)
/-- Replace a block. -/
def State.putBlock (s : State) (level n : Nat) (c : CounterPage) : State :=
  if level = 1 then { s with dev := { s.dev with counters := s.dev.counters.set {} n c } }
  else { s with dev := { s.dev with parents := s.dev.parents.set {} (parentKey level n) c } }

/-- The 64 bytes of a counter block as one number: the major counter, then the minor counters rising (DESIGN CHOICE, log entry 116). -/
def CounterPage.word (c : CounterPage) : BitVec 512 :=
  BitVec.ofNat 512 (c.major % 2 ^ 64 + (List.range 64).foldl (fun n g => n + c.minors.get 0 g % 128 * 2 ^ (64 + 7 * g)) 0)

/-- Four blocks of 16 bytes of a 64-byte number. -/
def quarters (x : BitVec 512) : List (BitVec 128) := (List.range 4).map fun j => x.extractLsb' (128 * j) 128

/-- A counter block is stored with its tag: that of R403 over its bytes under the device keys, with the counters that version it. -/
def State.storeBlock (s : State) (level n major minor : Nat) : State :=
  let a := (Config.blockAddr level n).extractLsb' 6 50
  let tag := granuleTag s.dev.deviceKey a (BitVec.ofNat 64 major) (BitVec.ofNat 7 minor) (quarters (s.counterBlock level n).word)
  { s with dev := { s.dev with blockTags := s.dev.blockTags.insert (4 * n + level) tag } }

/-- A block of level 3 is written: its root counter moves on. -/
def State.writeBlock3 (s : State) (n : Nat) : State :=
  let s1 : State := { s with dev := { s.dev with roots := s.dev.roots.set 0 n (s.dev.roots.get 0 n + 1) } }
  s1.storeBlock 3 n (s1.dev.roots.get 0 n) 0

/-- A block of level 2 is written: its parent's minor counter moves on, and the parent is written when that overflows, or at any
other time (log entry 52). -/
def State.writeBlock2 (s : State) (n : Nat) : State :=
  let c := (s.counterBlock 3 (n / 64)).advance (n % 64)
  let s1 := (s.putBlock 3 (n / 64) c).storeBlock 2 n c.major (c.minors.get 0 (n % 64))
  let (w, s2) := s1.takeBool
  if c.busy || w then s2.writeBlock3 (n / 64) else s2

/-- A block of level 1 is written. -/
def State.writeBlock1 (s : State) (n : Nat) : State :=
  let c := (s.counterBlock 2 (n / 64)).advance (n % 64)
  let s1 := (s.putBlock 2 (n / 64) c).storeBlock 1 n c.major (c.minors.get 0 (n % 64))
  let (w, s2) := s1.takeBool
  if c.busy || w then s2.writeBlock2 (n / 64) else s2

/-- A re-encryption holds back the writes of a page: its own, or that of a block above it. -/
def State.pageBusy (s : State) (page : Nat) : Bool :=
  (s.counterBlock 1 page).busy || (s.counterBlock 2 (page / 64)).busy || (s.counterBlock 3 (page / 4096)).busy

/-- A granule as HBM4 stores it under its present counters: encrypted, with its tag (R403). -/
def State.seal (s : State) (granule : Nat) : StoredGranule :=
  let pair := s.storageKey (64 * granule)
  let a := (Config.physAddr (64 * granule)).extractLsb' 6 50
  let c := s.counterBlock 1 (granule / 64)
  let major := BitVec.ofNat 64 c.major
  let minor := BitVec.ofNat 7 (c.minors.get 0 (granule % 64))
  let plain := quarters (BitVec.ofNat 512 (leNat (peeks s.mem (64 * granule) 64)))
  let cipher := (List.range 4).map fun j => cipherBlock pair a major minor (BitVec.ofNat 2 j) (plain.getD j 0)
  { blocks := cipher, tag := granuleTag pair a major minor cipher }

/-- Write a granule to HBM4. -/
def State.storeGranule (s : State) (granule : Nat) : State :=
  { s with dev := { s.dev with stored := s.dev.stored.insert granule (s.seal granule) } }

/-- A changed granule is written back under its next counters; its page's counter block is written when a minor counter overflows,
and may be written at any other time. -/
def State.writeback (s : State) (granule : Nat) : State :=
  let page := granule / 64
  let c := (s.counterBlock 1 page).advance (granule % 64)
  let (w, s1) := ((s.putBlock 1 page c).storeGranule granule).takeBool
  if c.busy || w then s1.writeBlock1 page else s1

/-- L2_WRITEBACK: L2 writes a changed granule back, encrypted under its next counters; it waits while its page is re-encrypted, and
while its slice group is under test. -/
def execL2Writeback (granule : Nat) (s : State) : Out :=
  .next <|
    if s.pageBusy (granule / 64) || s.groupTested (64 * granule / 2 ^ 35) then s else s.writeback granule

/-- A counter block is stored as it stands, under the counters that version it. -/
def State.tagBlock (s : State) (level n : Nat) : State :=
  if level = 3 then s.storeBlock 3 n (s.dev.roots.get 0 n) 0
  else
    let c := s.counterBlock (level + 1) (n / 64)
    s.storeBlock level n c.major (c.minors.get 0 (n % 64))

/-- The re-encryption under a block ends: its other granules, or the other blocks that it versions, are stored under the new
counters (R405, R406). -/
def State.reencrypt (s : State) (level num : Nat) : State :=
  let c := s.counterBlock level num
  if !c.busy then s
  else
    let s1 := s.putBlock level num { c with busy := false }
    let others := (List.range 64).filter fun g => c.minors.get 0 g == 0
    if level = 1 then others.foldl (fun s g => s.storeGranule (64 * num + g)) s1
    else if level = 2 ∨ level = 3 then others.foldl (fun s g => s.tagBlock (level - 1) (64 * num + g)) s1
    else s1

/-- REENCRYPT_DONE: the re-encryption under a block has ended; the writebacks that waited go on. -/
def execReencryptDone (level num : Nat) (s : State) : Out := .next (s.reencrypt level num)

/-! ### Marks (R406 to R408, R410) -/

/-- The function whose storage a place of device memory is, 0 for the device's. -/
def State.struckVf (s : State) (k : Nat) : Nat := (s.storageVf k).getD 0

/-- Mark a granule of device memory; POISONED of its function counts it. -/
def State.markKey (s : State) (k : Nat) : State :=
  if s.dev.poison.get false (k / 64) then s
  else { s with dev := { s.dev with poison := s.dev.poison.set false (k / 64) true } }.modFn (s.struckVf k) fun f =>
    { f with poisoned := f.poisoned + 1 }

/-- Mark every granule that a counter block versions, directly or through lower levels: 64, 4,096 or 262,144. -/
def State.markBlock (s : State) (level num : Nat) : State :=
  (List.range (64 ^ level)).foldl (fun s i => s.markKey (64 * (num * 64 ^ level + i))) s

/-- What an error that stands leaves marked: an L2 line carries the mark in both its granules. -/
def State.markPlace (s : State) (unit : Nat) : ErrPlace → State
  | .mem k => if unit = 2 then (s.markKey (k / 128 * 128)).markKey (k / 128 * 128 + 64) else s.markKey k
  | .scratch c g => s.setMark (.scratch c (64 * g)) true
  | .window c g => s.setMark (.window c (64 * g)) true
  | .counters level num => if 1 ≤ level ∧ level ≤ 3 then s.markBlock level num else s
  | _ => s

/-! ### Errors (R409, R410) -/

/-- Add one to a saturating 32-bit count. -/
def saturate (n : Nat) : Nat := if n < 2 ^ 32 - 1 then n + 1 else n

/-- CLASS of ERRREC0. -/
def errClassCode : ErrClass → Nat
  | .corrected => 1 | .uncorrectable => 2 | .tagMismatch => 3 | .counterBlock => 4

/-- ERRCNT after an error. -/
def errCount (c : Word64) (cls : ErrClass) : Word64 :=
  if cls = .corrected then BitVec.ofNat 64 (c.toNat / 2 ^ 32 * 2 ^ 32 + saturate (c.toNat % 2 ^ 32))
  else BitVec.ofNat 64 (saturate (c.toNat / 2 ^ 32) * 2 ^ 32 + c.toNat % 2 ^ 32)

/-- ERRREC0. -/
def errRecord (unit num cls result vf : Nat) : Word64 :=
  BitVec.ofNat 64 (unit * 2 ^ 40 + num % 2 ^ 16 * 2 ^ 24 + cls * 2 ^ 16 + result * 2 ^ 8 + vf % 32)

/-- The function that an error strikes. -/
def State.errVf (s : State) : ErrPlace → Nat
  | .mem k => s.struckVf k
  | .scratch c _ => ((s.crews.find? c).map Crew.fn).getD 0
  | .window c _ => ((s.crews.find? c).map Crew.fn).getD 0
  | .counters _ _ => 0
  | .saved c => ((s.crews.find? c).map Crew.fn).getD 0
  | .other v => v

/-- ERRREC1. -/
def errAddr : ErrPlace → Word64
  | .mem k => Config.physAddr (k / 64 * 64)
  | _ => 0

/-- The sub-cores that a unit serves, by core and sub-core under the board's SPLIT, are stopped for its test. -/
def State.stopForTest (s : State) (p : Nat × Nat) : State := (s.crewsAt p).foldl (fun s e => s.stopTable e.1 .test) s

/-- The sub-cores of a core that use a unit, or a translation core or storage, which none uses. -/
def State.unitSubs (s : State) (u : UnitId) : List (Nat × Nat) :=
  let core := if u.kind = 9 then u.num / 4 else u.num
  if u.kind < 3 ∨ 9 < u.kind then []
  else ((List.range 4).filter fun j => unitServes u (brdSplit (s.brd (boardOf core))) (core, j)).map fun j => (core, j)

/-- A unit goes out of service and its test begins, unless it is under test already: crews on the sub-cores that use it are
stopped; a fabric link goes down. -/
def State.beginTest (s : State) (u : UnitId) : State :=
  if s.dev.testing.contains u then s
  else if u.kind = 11 then s.linkDown u.num
  else
    let s1 : State := { s with dev := { s.dev with testing := s.dev.testing ++ [u] } }
    (s.unitSubs u).foldl State.stopForTest s1

/-- A crew whose saved state fails its check is killed, its resumption address in FLOG1. -/
def State.killSaved (s : State) (c : Nat) : State :=
  match s.teamsOf c with
  | [] => s
  | e :: _ => s.kill e.1 .poison .poison { cause := BitVec.ofNat 32 Cause.poison.code, vpc := BitVec.ofNat 64 (s.pcOf e.2) }

/-- The crew is stopped, or stopping, for a test. -/
def State.stoppedForTest (s : State) (c : Nat) : Bool :=
  match (s.crews.find? c).map Crew.status with
  | some (.stopping .test) => true
  | some (.saved .test) => true
  | _ => false

/-- An error is counted and recorded (R410). -/
def State.countError (s : State) (unit num : Nat) (cls : ErrClass) (place : ErrPlace) : State :=
  { s with dev := { s.dev with
    errcnt := errCount s.dev.errcnt cls, errrec0 := errRecord unit num (errClassCode cls) 0 (s.errVf place), errrec1 := errAddr place } }

/-- A unit with an error is tested (R409), which vector 3 tells of. -/
def State.testUnit (s : State) (unit num : Nat) : State := (s.beginTest { kind := unit, num := num }).msi 0 3

/-- An error in a unit is counted, recorded, leaves its mark, and begins the unit's test (R407 to R410). -/
def State.noteError (s : State) (unit num : Nat) (cls : ErrClass) (place : ErrPlace) : State :=
  let s1 := s.countError unit num cls place
  (if cls = .corrected then s1 else s1.markPlace unit place).testUnit unit num

/-- ERROR_DETECT: an error in a unit, corrected, or standing after its second read (R407 to R410). -/
def execErrorDetect (unit num : Nat) (cls : ErrClass) (place : ErrPlace) (s : State) : Out :=
  .next <|
    if unit < 1 ∨ 11 < unit then s
    else
      let s1 := s.noteError unit num cls place
      match place with
      | .saved c => if cls ≠ .corrected ∧ s1.stoppedForTest c then s1.killSaved c else s1
      | _ => s1

/-! ### Abandonment and replay (R285, R286) -/

/-- A place of this package as an error record names it. -/
def State.errPlace (s : State) (fn : Nat) : Place → ErrPlace
  | .gpa f a =>
    match s.stage2 f a with
    | some k => .mem k
    | none => .other f
  | .scratch c o => .scratch c (o / 64)
  | .window c o => .window c (o / 64)
  | _ => .other fn

/-- What is abandoned with an element: the operation, or the row of a gather; its key, and its first element. -/
def CopyOp.abandonKey (o : CopyOp) (elem : Nat) : Nat × Nat :=
  match o.kind with
  | .gather => (elem / o.desc.count0, elem / o.desc.count0 * o.desc.count0)
  | _ => (0, 0)

/-- An operation begun anew from element `i`: what it has delivered before stands, and so do the segments that it has applied. -/
def CopyOp.restart (o : CopyOp) (i : Nat) : CopyOp :=
  { o with progress := min o.progress i, seen := max o.seen o.progress, vals := o.vals.take i
           bad := o.bad.filter fun k => decide (k < i), remote := [], asked := false }

/-- The elements of the rows that `rows` holds. -/
def CopyOp.inRows (o : CopyOp) (rows : Nat → Bool) (i : Nat) : Bool := rows (o.abandonKey i).1

/-- An operation performed to its end while a unit's test ran that finds a lasting fault carries the poison of its marked sources as its
last pass would: 0xFF at host memory, and the mark (R285, R408). -/
def CopyOp.poisoned (o : CopyOp) (rows : Nat → Bool) (marked : Place → Bool) : CopyOp :=
  let hit (i : Nat) (p : Place) : Bool := o.inRows rows i && marked p
  { o with
    bad := o.bad ++ (o.numbered.filter fun e => hit e.1 e.2.1).map (·.1)
    vals := ((List.range o.vals.length).zip o.delivered).map fun e =>
      if hit e.1 e.2.1.1 && e.2.1.2.isHost && !e.2.2.isEmpty then List.replicate o.desc.elem 0xFF else e.2.2 }

/-- The granules whose reads failed for some rows of an operation are marked, its last pass begins, no more is replayed, and the
batch is to bear POISON (R285). -/
def State.poisonFailed (s : State) (uid : Nat) (o : CopyOp) (rows : Nat → Bool) : State :=
  let mine := o.failed.filter fun f => rows f.row
  let s1 := mine.foldl (fun s f => s.setMark f.granule true) s
  let o1 := { o with
    poison := true, failed := o.failed.filter fun f => !rows f.row, tested := none
    abandons := mine.foldl (fun t f => t.insert f.row 3) o.abandons }
  if o.done || o.sent then s1.putCopy uid (o1.poisoned rows fun p => s1.markedIn p o.desc.elem)
  else s1.putCopy uid (mine.foldl (fun x f => x.restart (f.row * o.desc.count0)) o1)

/-- COPY_ABANDON: a read of an operation meets an uncorrectable error in a part, a unit's kind and number: the error is counted, the
unit tested, and the operation, or the row of a gather, performed anew. The third time its failed granules are marked, whose poison
its last pass carries; a test that finds a lasting fault marks them sooner. A granule that bears a mark is never read anew. -/
def execCopyAbandon (uid id elem : Nat) (part : Nat × Nat) (s : State) : Out :=
  .next <|
    match s.engineTeam uid with
    | none => s
    | some t =>
      match List.find? (fun o : CopyOp => o.id == id) t.eng.flying with
      | none => s
      | some o =>
        match (o.elems[elem]?).map (·.1) with
        | none => s
        | some src =>
          let key := o.abandonKey elem
          let n := o.abandons.get 0 key.1
          if !o.ready || o.sent || decide (3 ≤ n) || src.remote || s.markedIn src o.desc.elem || decide (part.1 < 1 ∨ 11 < part.1) then s
          else
            let o1 := { o.restart key.2 with
              abandons := o.abandons.insert key.1 (n + 1), tested := some part
              failed := { row := key.1, granule := src.granule, test := some part } :: o.failed }
            let s1 := s.countError part.1 part.2 .uncorrectable (s.errPlace (s.fnOf t) src)
            let s2 := s1.modTeam uid fun t => { t with link := { t.link with replays := t.link.replays + 1 } }
            (if n = 2 then s2.poisonFailed uid o1 fun k => k == key.1 else s2.putCopy uid o1).testUnit part.1 part.2

/-- The operations of a team whose abandonment began a unit's test learn its outcome. -/
def State.endAbandons (s : State) (unit num : Nat) (lasting : Bool) : State :=
  s.teams.foldl (fun s e =>
    (e.2.eng.flying.filter fun o => o.failed.any fun f => f.test == some (unit, num)).foldl (fun s o =>
      let struck (k : Nat) : Bool := o.failed.any fun f => f.row == k && f.test == some (unit, num)
      if lasting then s.poisonFailed e.1 o struck
      else s.putCopy e.1 { o with
        tested := if o.tested = some (unit, num) then none else o.tested
        failed := o.failed.map fun f => if f.test = some (unit, num) then { f with test := none } else f }) s) s

/-! ### Self-test and retirement (R409, R411) -/

/-- Retire a slice group: the functions whose windows it serves are reset; the pool's wait for a device reset. -/
def State.retireGroup (s : State) (g : Nat) : State :=
  let s1 : State := { s with dev := { s.dev with retiredGroups := s.dev.retiredGroups.set false g true } }
  let c := s.sg g
  if sgMode c = 1 then s1.forceReset (sgOwner c)
  else if sgMode c = 3 then ((List.range 32).filter fun v => s.rated v).foldl State.forceReset s1
  else s1

/-- Retire a column. -/
def State.retireColumn (s : State) (n : Nat) : State := { s with dev := { s.dev with retiredCols := s.dev.retiredCols.set false n true } }

/-- Retire what a lasting fault in a unit takes out of service (R411): `share` names the column whose share of a scratchpad,
operand buffer or accumulator bank is at fault; what every column of a core shares retires them all. -/
def State.retire (s : State) (u : UnitId) (share : Option Nat) : State :=
  if u.kind ≤ 2 then s.retireGroup (unitGroup u)
  else if u.kind = 9 then s.retireColumn u.num
  else if u.kind ≤ 8 then
    match if u.kind ≤ 5 then share else none with
    | some c => if c < 4 then s.retireColumn (4 * u.num + c) else s
    | none => (List.range 4).foldl (fun s c => s.retireColumn (4 * u.num + c)) s
  else if u.kind = 11 then s.modLink u.num fun l => { l with retired := true }
  else s

/-- SELF_TEST_DONE: a unit's test, which begins once the crews on its sub-cores have stopped, has ended; ERRREC0 takes its RESULT
when it names the unit, and what the device held back for the test goes on. -/
def execSelfTestDone (unit num : Nat) (lasting : Bool) (share : Option Nat) (s : State) : Out :=
  .next <|
    let u : UnitId := { kind := unit, num := num }
    if !s.dev.testing.contains u || (s.unitSubs u).any fun p => !(s.crewsAt p).isEmpty then s
    else
      let r := s.dev.errrec0.toNat
      let mine := decide (r / 2 ^ 40 % 256 = unit) && decide (r / 2 ^ 24 % 2 ^ 16 = num) && decide (r / 2 ^ 8 % 256 = 0)
      let s1 : State := { s with dev := { s.dev with testing := s.dev.testing.filter fun x => x != u } }
      let s2 : State := if mine then
          ({ s1 with dev := { s1.dev with errrec0 := BitVec.ofNat 64 (r + (if lasting then 2 else 1) * 2 ^ 8) } } : State).msi 0 3
        else s1
      let s3 := s2.endAbandons unit num lasting
      State.flushHeld <|
        if lasting then s3.retire u share
        else if unit = 11 then s3.modLink num fun l => { l with
          state := if l.state = 3 ∧ l.retired = false then (if l.en then 1 else 0) else l.state }
        else s3

/-- ERRCNT: a write of zero clears both counts (R410). -/
def execErrcnt (value : Word64) (s : State) : Out :=
  .next (s.hostActs fun s => if value = 0 then { s with dev := { s.dev with errcnt := 0 } } else s)

end Sys2Proof.Machine
end

