-- ==== Sys2Proof/Machine/Boot.lean ====
section
/-! DEFINITION. Boot, device reset, attestation, management and checkpoints (R412, R418 to R424). -/

namespace Sys2Proof.Machine

/-! ### What is in service (R412) -/

/-- A column is in service: not retired, and not under test (R409, R411). -/
def State.columnServes (s : State) (core c : Nat) : Bool :=
  !s.columnRetired core c && !s.dev.testing.contains { kind := 9, num := 4 * core + c }

/-- The columns of a board in service, bit 4i + c for column c of its core i. -/
def State.colsvc (s : State) (b : Nat) : Word64 :=
  BitVec.ofNat 64 ((List.range 32).foldl (fun n i => if s.columnServes (8 * b + i / 4) (i % 4) then n + 2 ^ i else n) 0)
/-- The slice groups in service. -/
def State.sgsvc (s : State) : Word64 :=
  BitVec.ofNat 64 ((List.range 16).foldl (fun n g => if s.groupServes g then n + 2 ^ g else n) 0)
/-- The columns of a core in service. -/
def State.coreColumns (s : State) (core : Nat) : Nat := ((List.range 4).filter (s.columnServes core)).length
/-- TOPO. -/
def State.topo (s : State) : Word64 :=
  let cores := (List.range 192).filter fun k => s.coreColumns k != 0
  let columns := (List.range 192).foldl (fun n k => n + s.coreColumns k) 0
  let boards := (List.range 24).filter fun b => cores.any fun k => boardOf k == b
  BitVec.ofNat 64 (s.sgroups * 2 ^ 32 + columns * 2 ^ 16 + cores.length * 2 ^ 8 + boards.length)

/-! ### Boot (R419) -/

/-- DEVSTAT. -/
def State.devstat (s : State) : Word64 := BitVec.ofNat 64 (s.dev.fail * 2 ^ 8 + s.dev.phase)

/-- Change phase (R414 vector 5). -/
def State.setPhase (s : State) (p fail : Nat) : State := ({ s with dev := { s.dev with phase := p, fail := fail } } : State).msi 0 5

/-- Apply the firmware policy's boot partition: its boards and its slice groups that are in service are in MODE 3, VF 0 runs
as the sole rated function over a scrubbed carve-out under a fresh key, which keeps to its window. -/
def State.bootPartition (s : State) : State :=
  let boards : Tbl Word64 := s.policy.bootBoards.foldl (fun t e =>
    if e.1 < 24 then Tbl.set t 0 e.1 (BitVec.ofNat 64 (3 * 2 ^ 28 + e.2 % 3 * 2 ^ 16)) else t) []
  let groups : Tbl Word64 := s.policy.bootGroups.foldl (fun t g =>
    if g < 16 ∧ s.dev.retiredGroups.get false g = false then Tbl.set t 0 g (BitVec.ofNat 64 (3 * 2 ^ 16)) else t) []
  let s1 : State := { s with dev := { s.dev with brdcfg := boards, brdPending := [], slices := [], sgcfg := groups }
                             fab := { s.fab with stgsize := s.policy.stagingMiB.val } }
  let (k, s2) := s1.newUid
  let s3 := s2.modFn 0 fun f => { f with
    en := true, state := .running, s2base := 0
    s2bound := BitVec.ofNat 64 (min (s.policy.bootBound * 2 ^ 30) (s2.s2limit 0)), serial := 1, key := k }
  s3.scrub 0

/-- The boot ROM's verdict on a firmware: 0, or FAIL 1 or 2. -/
def firmwareVerdict (f : Firmware) : Nat :=
  if !slhVerify slh256s Config.fusedKey (Config.firmwareMessage f.image f.policy f.version) f.sig then 1
  else if f.version < Config.rollback then 2
  else 0

/-- Phase 0 ends: the firmware that is to run is verified, a staged update in its place; an update that passes runs from now on,
one that does not pass is dropped, and boot fails (DESIGN CHOICE, log entry 91). -/
def State.verifyFirmware (s : State) : State :=
  match s.dev.staged with
  | none => if firmwareVerdict s.running = 0 then s.setPhase 1 0 else s.setPhase 15 (firmwareVerdict s.running)
  | some f =>
    if firmwareVerdict f = 0 then ({ s with dev := { s.dev with firmware := some f, staged := none } } : State).setPhase 1 0
    else ({ s with dev := { s.dev with staged := none } } : State).setPhase 15 (firmwareVerdict f)

/-- Enter the phase after the present one. -/
def State.nextPhase (s : State) : State :=
  match s.dev.phase with
  | 0 => s.verifyFirmware
  | 1 => { s with dev := { s.dev with testing := [] } }.setPhase 2 0
  | 2 =>
    let (k, s1) := s.newUid
    { s1 with dev := { s1.dev with tcshare := (s1.policy.cacheShare.val + 1) * 2 ^ 26, deviceKey := k } }.setPhase 3 0
  | 3 => s.bootPartition.setPhase 4 0
  | _ => s

/-- BOOT_PHASE_ADVANCE: boot completes a phase (`fail` 0), or fails for a reason of FAIL. -/
def execBootPhaseAdvance (fail : Nat) (s : State) : Out :=
  .next (if 3 < s.dev.phase ∨ 5 < fail then s else if fail = 0 then s.nextPhase else s.setPhase 15 fail)

/-- A package as power-on leaves it: what stands outside it, and the units that are retired for good, stay as they are. -/
def State.cold (s : State) : State :=
  { State.reset with
    agenda := s.agenda, focus := s.focus, fresh := s.fresh, uids := s.uids, host := s.host, outbox := s.outbox
    dev := { State.reset.dev with
      retiredCols := s.dev.retiredCols, retiredGroups := s.dev.retiredGroups, safe := s.dev.safe
      firmware := s.dev.firmware, staged := s.dev.staged }
    fab := { State.reset.fab with links := (s.fab.links.filter fun e => e.2.retired).map fun e => (e.1, { retired := true, state := 3 }) } }

/-- POWER_ON: the boot ROM starts at phase 0. -/
def execPowerOn (s : State) : Out := .next s.cold

/-! ### Device reset (R420) -/

/-- Reset every function that is on, with the writes of step 7. -/
def State.resetAll (s : State) : State :=
  ((List.range 32).filter fun v => (s.fn v).state != .off).foldl (fun s v => (s.startReset v).finishReset v) s

/-- The fabric links close. -/
def State.closeLinks (s : State) : State :=
  (s.fab.links.filter fun e => e.2.state != 0).foldl (fun s e => s.closeLink e.1) s

/-- A device reset: functions reset, links closed, key slots 1 to 15 and the translation cache cleared, boot from phase 0.
Device memory keeps its bytes, which no function reaches before its scrub. DEVSTAT changes phase unless boot had only begun (R414). -/
def State.deviceReset (s : State) : State :=
  let s1 := s.resetAll.closeLinks
  let s2 : State := { s1.cold with mem := s1.mem, dev := { s1.cold.dev with
      poison := s1.dev.poison, counters := s1.dev.counters, parents := s1.dev.parents, roots := s1.dev.roots
      stored := s1.dev.stored, blockTags := s1.dev.blockTags } }
  if s.dev.phase = 0 then s2 else s2.msi 0 5

/-- DEVRST: a write of 1 to bit 0 by H. -/
def execDevrst (value : Word64) (s : State) : Out := .next (if value.getLsbD 0 then s.deviceReset else s)
/-- PCIE_RESET: a PF function-level reset or a conventional reset. -/
def execPcieReset (s : State) : Out := .next s.deviceReset
/-- VENDOR_RESET_MESSAGE: the vendor-defined MCTP message (R422). -/
def execVendorResetMessage (s : State) : Out := .next s.deviceReset

/-! ### SPDM (R421): transport 0 is the PF's DOE mailbox, 1 is MCTP -/

/-- The connection of a transport. -/
def State.spdm (s : State) (tr : Nat) : Spdm := if tr = 0 then s.dev.doe else s.dev.mctp
/-- Change the connection of a transport. -/
def State.putSpdm (s : State) (tr : Nat) (x : Spdm) : State :=
  if tr = 0 then { s with dev := { s.dev with doe := x } } else { s with dev := { s.dev with mctp := x } }

/-- Answer on a transport; the DOE mailbox is silent in FAILED (R419). -/
def State.respond (s : State) (tr code : Nat) (body : List Nat) (x : Spdm) : State :=
  if 1 < tr ∨ (tr = 0 ∧ s.dev.phase = 15) then s else (s.putSpdm tr x).emit (.spdm tr code body)

/-- ERROR with a code. -/
def State.spdmError (s : State) (tr code : Nat) : State := s.respond tr 0x7F [code] (s.spdm tr)

/-- An answer that needs the algorithms settled; else ERROR UnexpectedRequest. -/
def State.attest (s : State) (tr code : Nat) (body : List Nat) : State :=
  if (s.spdm tr).algs then s.respond tr code body (s.spdm tr) else s.spdmError tr 4

/-- GET_VERSION: 1.2 and 1.3; the connection begins anew. -/
def execGetVersion (transport : Nat) (s : State) : Out :=
  .next (s.respond transport 0x04 [0x12, 0x13] { version := some 0 })

/-- GET_CAPABILITIES in a version offered. -/
def execGetCapabilities (transport version : Nat) (s : State) : Out :=
  .next <|
    if (s.spdm transport).version ≠ some 0 then s.spdmError transport 4
    else if version = 0x12 ∨ version = 0x13 then s.respond transport 0x61 [version] { version := some version, caps := true }
    else s.spdmError transport 0x41

/-- NEGOTIATE_ALGORITHMS: SHA3-384, and SLH-DSA-SHAKE-256f as an extended asymmetric algorithm under Staveth's registry entry. -/
def execNegotiateAlgorithms (transport : Nat) (s : State) : Out :=
  .next <|
    let c := s.spdm transport
    if !c.caps then s.spdmError transport 4 else s.respond transport 0x63 [384, Config.extAlgorithm] { c with algs := true }

/-- A SHA3-384 digest as a number. -/
def digest (l : List Byte) : Nat := beNat (sha3x384 l)

/-- The digest of the certificate chain of slot 0. -/
def chainDigest : Nat := digest Config.certChain

/-- GET_DIGESTS: certificate slot 0 alone holds a chain. -/
def execGetDigests (transport : Nat) (s : State) : Out := .next (s.attest transport 0x01 [0, chainDigest])
/-- GET_CERTIFICATE: the chain of slot 0; another slot is an invalid request. -/
def execGetCertificate (transport slot : Nat) (s : State) : Out :=
  .next (if slot = 0 then s.attest transport 0x02 (Config.certChain.map BitVec.toNat) else s.spdmError transport 1)

/-- The bytes that a measurement covers: registers least significant byte first (DESIGN CHOICE, log entry 98). -/
def State.measured (s : State) (i : Nat) : List Byte :=
  if i = 1 then Config.bootRom
  else if i = 2 then s.running.image
  else if i = 3 then s.running.policy ++ s.keyBytes 0
  else if i = 4 then (List.range 15).flatMap fun n => s.keyBytes (n + 1)
  else (s.topo :: ((List.range 24).map s.colsvc ++ [s.sgsvc])).flatMap fun w => leBytes 8 w.toNat

/-- A measurement, taken as the response is formed. -/
def State.measurement (s : State) (i : Nat) : Nat := digest (s.measured i)

/-- CHALLENGE: the digest, every measurement and the nonce, signed by the identity key. -/
def execChallenge (transport nonce : Nat) (s : State) : Out :=
  .next <|
    let body := nonce :: chainDigest :: (List.range 5).map fun i => s.measurement (i + 1)
    s.attest transport 0x03 (body ++ [Config.signature body])

/-- GET_MEASUREMENTS: how many there are (index 0), every one (255), or one of them. -/
def execGetMeasurements (transport index nonce : Nat) (s : State) : Out :=
  .next <|
    let l := if index = 0 then [5] else if index = 255 then (List.range 5).map fun i => s.measurement (i + 1) else [s.measurement index]
    if 5 < index ∧ index ≠ 255 then s.spdmError transport 1
    else s.attest transport 0x60 (nonce :: l ++ [Config.signature (nonce :: l)])

/-- SPDM_UNSUPPORTED_REQUEST: ERROR UnsupportedRequest. -/
def execSpdmUnsupportedRequest (transport : Nat) (s : State) : Out := .next (s.spdmError transport 7)

/-! ### The management port (R422) -/

/-- MCTP_CONTROL: the endpoint's address is set (1) or read (2), and the message types it serves are read (5); another
command is answered unsupported. -/
def execMctpControl (command arg : Nat) (s : State) : Out :=
  .next <|
    if command = 1 then { s with dev := { s.dev with mctpEid := arg % 256 } }.emit (.mctp 0 [arg % 256])
    else if command = 2 then s.emit (.mctp 0 [s.dev.mctpEid])
    else if command = 5 then s.emit (.mctp 0 [0, 1, 5, 0x7F])
    else s.emit (.mctp 5 [])

/-- PLDM_MONITORING: sensor 0 and 1 read module and package power, 2 to 4 the dies' and 5 to 12 the stacks' temperatures;
a power cap of 900 W to 1,800 W is set, which changes timing alone. -/
def execPldmMonitoring (sensor : Nat) (cap : Option Nat) (s : State) : Out :=
  .next <|
    match cap with
    | some w =>
      if 900 ≤ w ∧ w ≤ 1800 then { s with dev := { s.dev with powerCap := w } }.emit (.mctp 0 [w]) else s.emit (.mctp 2 [])
    | none => if 12 < sensor then s.emit (.mctp 2 []) else (let (x, s1) := s.takeNat; s1.emit (.mctp 0 [x]))

/-- PLDM_FIRMWARE_UPDATE: the update that has been taken in is staged, to be verified by the boot ROM at the next device reset. -/
def execPldmFirmwareUpdate (s : State) : Out :=
  .next <|
    match s.dev.received with
    | some update => { s with dev := { s.dev with received := none, staged := some update } }.emit (.mctp 0 [])
    | none => s.emit (.mctp 1 [])

/-! ### Checkpoints (R423, R424) -/

/-- CKNEED. -/
def State.ckneed (s : State) : Word64 := Config.ckNeed s.sgroups

/-- CKSTAT at the end of a command (R414 vector 4). -/
def State.endCheckpoint (s : State) (code : Nat) : State :=
  { s with dev := { s.dev with ckstat := BitVec.ofNat 64 (if code = 0 then 2 else code * 2 ^ 8 + 3) } }.msi 0 4

/-- A function is being prepared or reset. -/
def State.inTransition (s : State) (v : Nat) : Bool := (s.fn v).state == .preparing || (s.fn v).state == .resetting

/-- A save begins: every crew is stopped, and the dispatcher held. -/
def State.startSave (s : State) : State :=
  if s.dev.cklen.toNat < s.ckneed.toNat then s.endCheckpoint 1
  else if (List.range 32).any s.inTransition then s.endCheckpoint 6
  else s.crews.foldl (fun s e => s.stopTable e.1 .checkpoint) { s with dev := { s.dev with ckstat := 1 } }

/-- A restore begins. -/
def State.startRestore (s : State) : State :=
  if (List.range 31).any fun v => (s.fn (v + 1)).state != .off then s.endCheckpoint 5
  else if s.inTransition 0 then s.endCheckpoint 6
  else { s with dev := { s.dev with ckstat := 1 } }

/-- A write of CKCMD: the register holds what an accepted write gave it. -/
def State.checkpointCommand (s : State) (val : Nat) : State :=
  if val ≠ 1 ∧ val ≠ 2 then s.refuseCfg 0 1
  else if s.checkpointing then s.refuseCfg 0 8
  else
    let s1 : State := { s with dev := { s.dev with ckcmd := BitVec.ofNat 64 val } }
    if val = 1 then s1.startSave else s1.startRestore

/-- CKPT_SAVE: H writes 1 to CKCMD. -/
def execCkptSave (s : State) : Out := .next (s.hostActs fun s => s.checkpointCommand 1)
/-- CKPT_RESTORE: H writes 2 to CKCMD. -/
def execCkptRestore (s : State) : Out := .next (s.hostActs fun s => s.checkpointCommand 2)

/-- Every crew is out of its sub-core. -/
def State.allSaved (s : State) : Bool := s.crews.all fun e => e.2.place.isNone

/-- A granule is written back, and what that re-encrypts is re-encrypted to its end. -/
def State.settleGranule (s : State) (g : Nat) : State :=
  (((s.writeback g).reencrypt 1 (g / 64)).reencrypt 2 (g / 4096)).reencrypt 3 (g / 262144)

/-- Every granule that L2 holds changed is written back, so that a save finds it as stored (R404, R423). -/
def State.settleGranules (s : State) : State :=
  let l := (s.mem.map fun c => c.1 / 64).eraseDups ++ s.dev.stored.map (·.1)
  l.eraseDups.foldl (fun s g => if s.dev.stored.find? g = some (s.seal g) then s else s.settleGranule g) s

/-- No re-encryption runs (R405). -/
def State.sealed (s : State) : Bool := !(s.dev.counters.any fun e => e.2.busy) && !s.dev.parents.any fun e => e.2.busy

/-- A counter block as numbers, behind its own number. -/
def blockNumbers (e : Nat × CounterPage) : List Nat := [e.1, e.2.word.toNat]

/-- What a save writes: every granule as stored, its ciphertext and its sideband of tag and mark; the counter tree; the header of
the root counters and the wrapped keys of the functions (R423). -/
def State.checkpointImage (s : State) : List Nat :=
  (s.dev.stored.flatMap fun e =>
      e.1 :: (e.2.blocks.map BitVec.toNat ++ [e.2.tag.toNat, if s.dev.poison.get false e.1 then 1 else 0]))
    ++ (s.dev.poison.map fun e => if e.2 then e.1 else 0)
    ++ s.dev.counters.flatMap blockNumbers ++ s.dev.parents.flatMap blockNumbers
    ++ (s.dev.blockTags.flatMap fun e => [e.1, e.2.toNat])
    ++ (s.dev.roots.flatMap fun e => [e.1, e.2])
    ++ (List.range 32).map fun v => Config.wrapKeys (dataKey (s.fn v).key) (tagKey (s.fn v).key)

/-- The bytes that a save writes to host memory from CKBASE up: CKNEED of them, whose form the specification does not give. -/
def State.checkpointBytes (s : State) (image : List Nat) : List Byte := (List.range s.ckneed.toNat).map (Config.ckByte image)

/-- What a save writes, in the form that a restore gives it back. -/
def State.checkpoint (s : State) : Checkpoint :=
  { retiredCols := s.dev.retiredCols, retiredGroups := s.dev.retiredGroups, mem := s.mem, poison := s.dev.poison
    counters := s.dev.counters, parents := s.dev.parents, roots := s.dev.roots, stored := s.dev.stored, blockTags := s.dev.blockTags
    brdcfg := (List.range 24).foldl (fun t b => Tbl.set t 0 b (s.brd b)) [], sgcfg := s.dev.sgcfg
    slicelen := s.dev.slicelen, fns := s.fns, prq := s.dev.prq, hheld := s.dev.hheld, teams := s.teams, crews := s.crews
    launches := s.launches, images := s.images, sets := s.sets, image := s.checkpointImage }

/-- A restore's outcome: the state of the checkpoint is the package's again, its sets to be translated anew; the counter blocks are
stored under the device keys of this boot (R406, R423). -/
def State.restored (s : State) (c : Checkpoint) : State :=
  (c.blockTags.map (·.1)).foldl (fun s k => s.tagBlock (k % 4) (k / 4)) { s with
    mem := c.mem, fns := c.fns, teams := c.teams, crews := c.crews, launches := c.launches, images := c.images
    sets := c.sets.map fun e => (e.1, { e.2 with ready := false, fetching := none, packed := [] })
    dev := { s.dev with
      poison := c.poison, counters := c.counters, parents := c.parents, roots := c.roots, stored := c.stored
      blockTags := [], brdcfg := c.brdcfg, brdPending := []
      sgcfg := c.sgcfg, slicelen := c.slicelen, prq := c.prq, hheld := c.hheld, slices := [] } }

/-- A save writes the package's state to the safe tier. -/
def State.writeCheckpoint (s : State) : State :=
  { s with
    host := pokes s.host s.dev.ckbase.toNat (s.checkpointBytes s.checkpointImage)
    dev := { s.dev with safe := s.dev.safe.insert s.dev.ckbase.toNat s.checkpoint } }

/-- CKPT_DONE: a command ends; `err` is 0, 2 on a host-link error, or 3 when a header does not verify. A save ends once every
crew is saved and no re-encryption runs. A restore whose bytes in host memory are no longer those that the save wrote fails with
code 3 (DESIGN CHOICE, log entry 62). -/
def execCkptDone (err : Nat) (s : State) : Out :=
  .next <|
    if !s.checkpointing then s
    else if err = 2 ∨ (err = 3 ∧ s.dev.ckcmd = 2) then s.endCheckpoint err
    else if err ≠ 0 then s
    else if s.dev.ckcmd = 1 then
      if s.allSaved && s.sealed then s.settleGranules.writeCheckpoint.endCheckpoint 0
      else s
    else
      match s.dev.safe.find? s.dev.ckbase.toNat with
      | none => s.endCheckpoint 3
      | some c =>
        if peeks s.host s.dev.ckbase.toNat s.ckneed.toNat ≠ s.checkpointBytes c.image then s.endCheckpoint 3
        else if c.retiredCols = s.dev.retiredCols ∧ c.retiredGroups = s.dev.retiredGroups then (s.restored c).endCheckpoint 0
        else s.endCheckpoint 4

end Sys2Proof.Machine
end

