-- ==== Sys2Proof/Machine/CfgRegs.lean ====
section
/-! DEFINITION. The configuration windows: every register's read and write (R225, R249, R259, R315, R322, R324, R342, R348 to R356,
R364, R365, R372 to R377, R385 to R389, R410 to R423, R429 to R444). -/

namespace Sys2Proof.Machine

/-! ### Writes of a function's window -/

/-- A field that must be zero: bits `hi` to `lo`. -/
def zeroBits (v : Word64) (hi lo : Nat) : Bool := v.toNat / 2 ^ lo % 2 ^ (hi - lo + 1) == 0

/-- Write a register, or refuse the value with code 1 (R375). -/
def State.limited (s : State) (v : Nat) (ok : Bool) (f : Fn → Fn) : State := if ok then s.modFn v f else s.refuseCfg v 1

/-- HVEC of a cause: a value that breaks its form has no effect (R342). -/
def State.writeHvec (s : State) (v code : Nat) (val : Word64) : State :=
  if zeroBits val 62 32 && zeroBits val 3 0 then s.modFn v fun f => { f with hvec := f.hvec.set 0 code val } else s

/-- LTTPTR (R349). -/
def State.writeLttptr (s : State) (v : Nat) (val : Word64) : State :=
  s.limited v (zeroBits val 63 56 && zeroBits val 3 0) fun f => { f with lttptr := val }
/-- LTTCNT. -/
def State.writeLttcnt (s : State) (v : Nat) (val : Word64) : State :=
  s.limited v (decide (val.toNat ≤ 2048)) fun f => { f with lttcnt := val }

/-- A stage-1 root keeps to its form (R352). -/
def rootOk (val : Word64) : Bool := zeroBits val 63 56 && zeroBits val 11 1
/-- S1ROOT. -/
def State.writeS1root (s : State) (v : Nat) (val : Word64) : State := s.limited v (rootOk val) fun f => { f with s1root := val }
/-- S1FROOT. -/
def State.writeS1froot (s : State) (v : Nat) (val : Word64) : State := s.limited v (rootOk val) fun f => { f with s1froot := val }

/-- A ring register is zero, or names a ring of 16 to 4,096 records (R355). -/
def prqBaseOk (val : Word64) : Bool :=
  val == 0 || (zeroBits val 63 56 && zeroBits val 11 4 && decide (4 ≤ val.toNat % 16) && decide (val.toNat % 16 ≤ 12))

/-- PRQBASE of a window, or of the hypervisor's ring; records held go out as far as they can. -/
def State.writePrqbase (s : State) (v : Nat) (hyper : Bool) (val : Word64) : State :=
  if !prqBaseOk val then s.refuseCfg v 1
  else if hyper then ({ s with dev := { s.dev with hbase := val } } : State).flushRing 0 2
  else (s.modFn v fun f => { f with prqbase := val }).flushRing v 1

/-- PRQHEAD. -/
def State.writePrqhead (s : State) (v : Nat) (hyper : Bool) (val : Word64) : State :=
  if !zeroBits val 63 16 then s.refuseCfg v 1
  else if hyper then ({ s with dev := { s.dev with hhead := val } } : State).flushRing 0 2
  else (s.modFn v fun f => { f with prqhead := val }).flushRing v 1

/-- PRRESP. -/
def State.writePrresp (s : State) (v : Nat) (hyper : Bool) (val : Word64) : State :=
  if !zeroBits val 63 17 then s.refuseCfg v 1 else s.prresp v hyper val

/-- INVAL (R351). -/
def State.writeInval (s : State) (v : Nat) (val : Word64) : State :=
  if !zeroBits val 11 0 then s.refuseCfg v 1 else s.inval v val.toNat

/-- FLOG0: zero clears the log, another value has no effect (R348). -/
def State.writeFlog0 (s : State) (v : Nat) (val : Word64) : State :=
  if val = 0 then s.modFn v fun f => { f with flog0 := 0, flog1 := 0, flog2 := 0, flog3 := 0 } else s

/-- TRCTL: a reserved bit makes the write void (R365). -/
def State.writeTrctl (s : State) (v : Nat) (val : Word64) : State :=
  if zeroBits val 31 4 then (s.modFn v fun f => { f with trctl := val }).drainTrace v else s
/-- TRBASE. -/
def State.writeTrbase (s : State) (v : Nat) (val : Word64) : State :=
  if zeroBits val 63 56 && zeroBits val 11 5 && decide (8 ≤ val.toNat % 32) && decide (val.toNat % 32 ≤ 20) then
    (s.modFn v fun f => { f with trbase := val }).drainTrace v
  else s
/-- TRHEAD. -/
def State.writeTrhead (s : State) (v : Nat) (val : Word64) : State :=
  if zeroBits val 63 32 then (s.modFn v fun f => { f with trhead := val }).drainTrace v else s

/-- TCTL (R324). -/
def State.writeTctl (s : State) (v : Nat) (val : Word64) : State :=
  s.limited v (zeroBits val 63 16 && zeroBits val 7 2) fun f => { f with tctl := val }
/-- LDINJ (R315); a nonzero bit of [63:33] is refused (log entry 49). -/
def State.writeLdinj (s : State) (v : Nat) (val : Word64) : State := s.limited v (zeroBits val 63 33) fun f => { f with ldinj := val }

/-- VFCTL: EN enables or resets a function; in window 0 it has no effect; a checkpoint command refuses it (R375, R377, R399, R424). -/
def State.writeVfctl (s : State) (v : Nat) (val : Word64) : State :=
  if !(zeroBits val 63 16 && zeroBits val 7 3) then s.refuseCfg v 1
  else if s.checkpointing then s.refuseCfg v 8
  else if v = 0 then s
  else if val.getLsbD 0 then s.enable v else s.startReset v

/-- A value in GiB: bits [39:30]. -/
def gibOk (val : Word64) : Bool := zeroBits val 63 40 && zeroBits val 29 0

/-- A register that only a function which is off takes: its limits first, then its STATE (R374). -/
def State.offOnly (s : State) (v : Nat) (ok : Bool) (f : Fn → Fn) : State :=
  if !ok then s.refuseCfg v 1 else if v = 0 ∨ (s.fn v).state ≠ .off then s.refuseCfg v 2 else s.modFn v f

/-- S2BASE. -/
def State.writeS2base (s : State) (v : Nat) (val : Word64) : State := s.offOnly v (gibOk val) fun f => { f with s2base := val }
/-- S2BOUND. -/
def State.writeS2bound (s : State) (v : Nat) (val : Word64) : State := s.offOnly v (gibOk val) fun f => { f with s2bound := val }
/-- QUOTA keeps to its limits (R375). -/
def quotaOk (val : Word64) : Bool :=
  zeroBits val 63 45 && decide (val.toNat / 2 ^ 32 ≤ 4096) && zeroBits val 31 24 && decide (val.toNat / 2 ^ 16 % 256 ≤ 128)
    && zeroBits val 15 14 && decide (64 ≤ val.toNat % 2 ^ 14) && decide (val.toNat % 2 ^ 14 ≤ 8192)
/-- QUOTA. -/
def State.writeQuota (s : State) (v : Nat) (val : Word64) : State := s.offOnly v (quotaOk val) fun f => { f with quota := val }

/-- A rate register keeps to its limits (R388). -/
def rateOk (val : Word64) : Bool :=
  zeroBits val 63 24 && decide (1 ≤ rateDepth val) && zeroBits val 19 17 && zeroBits val 15 11 && decide (rateGuar val ≤ 1024)
/-- RATE of an arbiter: code 6 when the shares that the arbiter meters would pass the whole. -/
def State.writeRate (s : State) (v a : Nat) (val : Word64) : State :=
  if !rateOk val then s.refuseCfg v 1
  else if 1024 < guarSum (fun w => if w = v then val else (s.fn w).rate a) (s.metered a) then s.refuseCfg v 6
  else s.modFn v fun f => { f with rates := f.rates.set rateInit a val }

/-- STGQ (R440). -/
def State.writeStgq (s : State) (v : Nat) (val : Word64) : State :=
  let others := (List.range 32).foldl (fun n w => if w = v then n else n + (s.fn w).stgq.toNat) 0
  if !(zeroBits val 63 27 && zeroBits val 5 0) then s.refuseCfg v 1
  else if s.fab.stgsize * 2 ^ 20 < others + val.toNat then s.refuseCfg v 6
  else s.modFn v fun f => { f with stgq := val }

/-- IMGSRC (R415). -/
def State.writeImgsrc (s : State) (v : Nat) (val : Word64) : State :=
  s.limited v (zeroBits val 63 56 && zeroBits val 11 0) fun f => { f with imgsrc := val }
/-- IMGLEN: 1 byte to 64 MiB. -/
def State.writeImglen (s : State) (v : Nat) (val : Word64) : State :=
  s.limited v (decide (1 ≤ val.toNat) && decide (val.toNat ≤ 2 ^ 26)) fun f => { f with imglen := val }
/-- KEYMASK: bit 0 reads zero outside window 0. -/
def State.writeKeymask (s : State) (v : Nat) (val : Word64) : State :=
  s.limited v (zeroBits val 63 16) fun f => { f with keymask := if v = 0 then val else val &&& ~~~1 }

/-! ### Writes of window 0 -/

/-- A BRDCFG value keeps to its limits (R372). -/
def brdOk (val : Word64) : Bool :=
  let plain := decide (brdVfb val = 0) && decide (brdSla val = 0) && decide (brdSlb val = 0)
  zeroBits val 63 30 && zeroBits val 19 18 && zeroBits val 15 13 && zeroBits val 7 5 && decide (brdSplit val ≠ 3)
    && match brdMode val with
      | 1 => plain
      | 2 => decide (brdVfb val ≠ brdVfa val) && decide (1 ≤ brdSla val) && decide (1 ≤ brdSlb val)
      | _ => plain && decide (brdVfa val = 0)

/-- BRDCFG: crews that the value moves are stopped; it governs once the last of them has, and what governs until then keeps its
slices (R373). -/
def State.writeBrdcfg (s : State) (b : Nat) (val : Word64) : State :=
  if 24 ≤ b then s
  else if !brdOk val then s.refuseCfg 0 1
  else
    let old := s.brd b
    let moved := (s.boardCrews b).filter fun e => !s.crewStays val e.2
    let slices := if s.slice b = {} then s.dev.slices.erase b else s.dev.slices
    let s1 : State := { s with dev := { s.dev with
      brdcfg := s.dev.brdcfg.set 0 b old, brdPending := s.dev.brdPending.insert b val, slices := slices } }
    moved.foldl (fun s e => s.stopTable e.1 .board) s1

/-- The functions that a SGCFG write affects (R374). -/
def State.sgAffected (s : State) (old val : Word64) : List Nat :=
  (if sgMode old = 1 then [sgOwner old] else []) ++ (if sgMode val = 1 then [sgOwner val] else [])
    ++ (if sgMode old = 3 ∨ sgMode val = 3 then (List.range 32).filter s.rated else [])

/-- A SGCFG value keeps to its limits (R372). -/
def sgOk (val : Word64) : Bool :=
  zeroBits val 63 18 && zeroBits val 15 5 && decide (sgMode val ≠ 2) && (sgMode val == 1 || decide (sgOwner val = 0))

/-- SGCFG: its limits (code 1), a retired group (7), a function that is not off (2), rates that would pass the whole (6)
(R374, R388, R411). -/
def State.writeSgcfg (s : State) (g : Nat) (val : Word64) : State :=
  let s1 : State := { s with dev := { s.dev with sgcfg := s.dev.sgcfg.set 0 g val } }
  if 16 ≤ g then s
  else if !sgOk val then s.refuseCfg 0 1
  else if s.dev.retiredGroups.get false g && (sgMode val == 1 || sgMode val == 3) then s.refuseCfg 0 7
  else if (s.sgAffected (s.sg g) val).any fun v => v == 0 || (s.fn v).state != .off then s.refuseCfg 0 2
  else if (List.range 3).any fun a => decide (1024 < guarSum (fun w => (s.fn w).rate a) (s1.metered a)) then s.refuseCfg 0 6
  else s1

/-- SLICELEN (R372). -/
def State.writeSlicelen (s : State) (val : Word64) : State :=
  if zeroBits val 63 32 && decide (270000 ≤ val.toNat) then { s with dev := { s.dev with slicelen := val } } else s.refuseCfg 0 1

/-- CKBASE (R423). -/
def State.writeCkbase (s : State) (val : Word64) : State :=
  if zeroBits val 11 0 then { s with dev := { s.dev with ckbase := val } } else s.refuseCfg 0 1

/-- FABID: code 8 while some link is not closed (R429). -/
def State.writeFabid (s : State) (val : Word64) : State :=
  if !(zeroBits val 63 17 && zeroBits val 15 10) then s.refuseCfg 0 1
  else if (List.range 16).any fun k => (s.link k).state != 0 then s.refuseCfg 0 8
  else { s with fab := { s.fab with fabid := val } }

/-- PLANEMAP: a later generation, applied once earlier requests have ended (R431). -/
def State.writePlanemap (s : State) (val : Word64) : State :=
  if s.mapOk val then { s with fab := { s.fab with pendingMap := some val } } else s.refuseCfg 0 1

/-- LINK: EN opens or closes (R429). -/
def State.writeLink (s : State) (k : Nat) (val : Word64) : State :=
  if 16 ≤ k then s
  else if !zeroBits val 31 3 then s.refuseCfg 0 1
  else if val.getLsbD 2 then s.openLink k
  else if (s.link k).en then s.closeLink k
  else s

/-- TGRESOLVE (R444). -/
def State.writeTgresolve (s : State) (val : Word64) : State :=
  let op := val.toNat / 2 ^ 32 % 4
  if zeroBits val 63 34 && zeroBits val 31 31 && (op == 1 || op == 2) then s.tgresolve val else s.refuseCfg 0 1

/-- DEVRST (R420). -/
def State.writeDevrst (s : State) (val : Word64) : State := if val.getLsbD 0 then s.deviceReset else s

/-! ### Reads -/

/-- The progress record of an engine WATCH, to the team whose handler frame reports it (R364). -/
def progress (self : Option Team) (second : Bool) : Word64 :=
  match self.bind fun t => t.trap.handlers.head? with
  | none => 0
  | some f =>
    match f.trap.eng with
    | none => 0
    | some e => if second then e.prog1 else e.prog0

/-- VFCTL as it reads (R375). -/
def State.vfctl (s : State) (v : Nat) : Word64 :=
  let f := s.fn v
  let state : Nat := match f.state with
    | .off => 0
    | .preparing => 1
    | .running => 2
    | .resetting => 3
  if v = 0 then BitVec.ofNat 64 (f.cfgerr * 256 + 5) else BitVec.ofNat 64 (f.cfgerr * 256 + state * 2 + (if f.en then 1 else 0))

/-- INDOUBT (R444). -/
def State.indoubt (s : State) : Word64 :=
  match s.fab.indoubt with
  | [] => 0
  | g :: _ => BitVec.ofNat 64 (2 ^ 31 + groupBits g)

/-- LINK as it reads. -/
def Link.word (l : Link) : Word64 := BitVec.ofNat 64 (l.retries % 2 ^ 32 * 2 ^ 32 + (if l.en then 4 else 0) + l.state)

/-- A word of a sub-core's boot mailbox: zero when it holds no crew, or its board has no such sub-core (R259, R385). -/
def State.mailWord (s : State) (core sub i : Nat) : Word64 :=
  if core < 192 ∧ sub < modeSubs (brdSplit (s.brd (boardOf core))) ∧ !(s.crewsAt (core, sub)).isEmpty then
    (s.sub (core, sub)).mailbox.getD i 0
  else 0

/-- Registers of a window below offset 0x1000, as S reads its own and H any. -/
def State.readWindow (s : State) (self : Option Team) (v off : Nat) : Word64 :=
  let f := s.fn v
  if 0xC08 ≤ off ∧ off ≤ 0xCB8 then f.hvec.get 0 ((off - 0xC00) / 8)
  else if 0xE80 ≤ off ∧ off ≤ 0xEB0 then f.rate ((off - 0xE80) / 8)
  else
    match off with
    | 0xD00 => f.lttptr
    | 0xD08 => f.lttcnt
    | 0xD10 => f.s1root
    | 0xD18 => f.s1froot
    | 0xD20 => f.prqbase
    | 0xD28 => f.prqhead
    | 0xD30 => f.prqtail
    | 0xD50 => f.flog0
    | 0xD58 => f.flog1
    | 0xD60 => f.flog2
    | 0xD68 => f.flog3
    | 0xD70 => progress self false
    | 0xD78 => progress self true
    | 0xE00 => f.tctl
    | 0xE30 => f.trctl
    | 0xE38 => f.trbase
    | 0xE40 => f.trtail
    | 0xE48 => f.trhead
    | 0xE50 => s.vfctl v
    | 0xE58 => f.s2base
    | 0xE60 => f.s2bound
    | 0xE68 => BitVec.ofNat 64 (s.s2limit v)
    | 0xE70 => f.quota
    | 0xE78 => BitVec.ofNat 64 (s.savearea v)
    | 0xEC0 => f.imgsrc
    | 0xEC8 => f.imglen
    | 0xED0 => f.imgcmd
    | 0xED8 => f.imgstat
    | 0xEE0 => f.keymask
    | 0xF00 => s.topo
    | 0xF10 => if v = 0 then 0 else BitVec.ofNat 64 (f.poisoned % 2 ^ 32)
    | 0xF18 => f.stgq
    | _ => 0

/-- Registers of window 0 that only H reads. -/
def State.readDevice (s : State) (off : Nat) : Word64 :=
  if 0x1000 ≤ off ∧ off < 0x10C0 then (s.dev.brdPending.find? ((off - 0x1000) / 8)).getD (s.dev.brdcfg.get 0 ((off - 0x1000) / 8))
  else if 0x1100 ≤ off ∧ off < 0x1180 then s.sg ((off - 0x1100) / 8)
  else if 0x1300 ≤ off ∧ off < 0x13C0 then s.colsvc ((off - 0x1300) / 8)
  else if 0x1500 ≤ off ∧ off < 0x1900 then (s.keyOf ((off - 0x1500) / 64)).getD ((off - 0x1500) % 64 / 8) 0
  else if 0x1A10 ≤ off ∧ off < 0x1A90 then (s.link ((off - 0x1A10) / 8)).word
  else if 0x20000 ≤ off ∧ off < 0x2C000 then
    s.mailWord ((off - 0x20000) / 256) ((off - 0x20000) % 256 / 64) ((off - 0x20000) % 64 / 8)
  else
    match off with
    | 0xD80 => s.dev.hbase
    | 0xD88 => s.dev.hhead
    | 0xD90 => s.dev.htail
    | 0xE20 => BitVec.ofNat 64 s.dev.tcshare
    | 0xE28 => BitVec.ofNat 64 s.tcsize
    | 0x1180 => s.dev.slicelen
    | 0x1200 => s.dev.errcnt
    | 0x1208 => s.dev.errrec0
    | 0x1210 => s.dev.errrec1
    | 0x13C0 => s.sgsvc
    | 0x1400 => s.devstat
    | 0x1410 => s.dev.ckbase
    | 0x1418 => s.dev.cklen
    | 0x1420 => s.dev.ckcmd
    | 0x1428 => s.dev.ckstat
    | 0x1430 => s.ckneed
    | 0x1A00 => s.fab.fabid
    | 0x1A08 => s.planeMap
    | 0x1A90 => BitVec.ofNat 64 (s.fab.stgsize * 2 ^ 20)
    | 0x1A98 => s.indoubt
    | _ => 0

/-- A read of a configuration register (R225): zero where none is, or none that the level reads; in FAILED only DEVSTAT
answers (R419). `self` is the team that reads its own window. -/
def State.cfgRead (s : State) (atH : Bool) (self : Option Team) (v off : Nat) : Word64 :=
  if s.dev.phase = 15 ∧ ¬ (off = 0x1400 ∧ v = 0) then 0
  else if off = 0xE10 then (if atH then (s.fn v).ldinj else 0)
  else if off < 0xD80 ∨ (0xD98 < off ∧ off < 0xE20) ∨ (0xE28 < off ∧ off < 0x1000) then s.readWindow self v off
  else if atH ∧ v = 0 then s.readDevice off
  else 0

/-! ### Writes by address -/

/-- Registers of a window that S writes in its own, and H in any. -/
def State.writeWindow (s : State) (v off : Nat) (val : Word64) : State :=
  if 0xC08 ≤ off ∧ off ≤ 0xCB8 then s.writeHvec v ((off - 0xC00) / 8) val
  else
    match off with
    | 0xD00 => s.writeLttptr v val
    | 0xD08 => s.writeLttcnt v val
    | 0xD10 => s.writeS1root v val
    | 0xD18 => s.writeS1froot v val
    | 0xD20 => s.writePrqbase v false val
    | 0xD28 => s.writePrqhead v false val
    | 0xD38 => s.writePrresp v false val
    | 0xD40 => s.writeInval v val
    | 0xD50 => s.writeFlog0 v val
    | 0xE30 => s.writeTrctl v val
    | 0xE38 => s.writeTrbase v val
    | 0xE48 => s.writeTrhead v val
    | 0xEC0 => s.writeImgsrc v val
    | 0xEC8 => s.writeImglen v val
    | 0xED0 => s.imageCommand v val.toNat
    | _ => s

/-- Registers of a window that only H writes. -/
def State.writeAssigned (s : State) (v off : Nat) (val : Word64) : State :=
  if 0xE80 ≤ off ∧ off ≤ 0xEB0 then s.writeRate v ((off - 0xE80) / 8) val
  else
    match off with
    | 0xE00 => s.writeTctl v val
    | 0xE10 => s.writeLdinj v val
    | 0xE50 => s.writeVfctl v val
    | 0xE58 => s.writeS2base v val
    | 0xE60 => s.writeS2bound v val
    | 0xE70 => s.writeQuota v val
    | 0xEE0 => s.writeKeymask v val
    | 0xF18 => s.writeStgq v val
    | _ => s.writeWindow v off val

/-- Registers of window 0 that only H writes. -/
def State.writeDevice (s : State) (off : Nat) (val : Word64) : State :=
  if 0x1000 ≤ off ∧ off < 0x10C0 then s.writeBrdcfg ((off - 0x1000) / 8) val
  else if 0x1100 ≤ off ∧ off < 0x1180 then s.writeSgcfg ((off - 0x1100) / 8) val
  else if 0x1500 ≤ off ∧ off < 0x1900 then s.writeKey ((off - 0x1500) / 64) ((off - 0x1500) % 64 / 8) val
  else if 0x1A10 ≤ off ∧ off < 0x1A90 then s.writeLink ((off - 0x1A10) / 8) val
  else
    match off with
    | 0xD80 => s.writePrqbase 0 true val
    | 0xD88 => s.writePrqhead 0 true val
    | 0xD98 => s.writePrresp 0 true val
    | 0x1180 => s.writeSlicelen val
    | 0x1200 => if val = 0 then { s with dev := { s.dev with errcnt := 0 } } else s
    | 0x1408 => s.writeDevrst val
    | 0x1410 => s.writeCkbase val
    | 0x1418 => { s with dev := { s.dev with cklen := val } }
    | 0x1420 => s.checkpointCommand val.toNat
    | 0x1A00 => s.writeFabid val
    | 0x1A08 => s.writePlanemap val
    | 0x1AA0 => s.writeTgresolve val
    | _ => s.writeAssigned 0 off val

/-- A write of a configuration register (R225): nothing where none is, or none that the level writes; in FAILED only DEVRST
takes one (R419). -/
def State.cfgWrite (s : State) (atH : Bool) (v off : Nat) (val : Word64) : State :=
  if s.dev.phase = 15 ∧ ¬ (off = 0x1408 ∧ v = 0) then s
  else if !atH then s.writeWindow v off val
  else if v = 0 then s.writeDevice off val
  else s.writeAssigned v off val

/-! ### Writes as events -/

/-- CONFIG_REGISTER_WRITE: a write of 8 bytes, aligned to 8, in a configuration BAR (R375, R413); any other writes nothing. -/
def execConfigRegisterWrite (a : CfgAccess) (value : Word64) (s : State) : Out :=
  .next (if a.offset % 8 = 0 ∧ a.window < 32 then s.cfgWrite a.atH a.window a.offset value else s)

/-- PRRESP (R356). -/
def execPrresp (fn : Nat) (hyper : Bool) (value : Word64) (s : State) : Out := .next (s.hostActs fun s => s.writePrresp fn hyper value)
/-- PRQHEAD (R355). -/
def execPrqhead (fn : Nat) (hyper : Bool) (value : Word64) (s : State) : Out := .next (s.hostActs fun s => s.writePrqhead fn hyper value)
/-- PRQBASE (R355). -/
def execPrqbase (fn : Nat) (hyper : Bool) (value : Word64) (s : State) : Out := .next (s.hostActs fun s => s.writePrqbase fn hyper value)
/-- INVAL (R351). -/
def execInval (fn : Nat) (value : Word64) (s : State) : Out := .next (s.hostActs fun s => s.writeInval fn value)
/-- FLOG0 (R348). -/
def execFlog0 (fn : Nat) (value : Word64) (s : State) : Out := .next (s.hostActs fun s => s.writeFlog0 fn value)
/-- TRHEAD (R365). -/
def execTrhead (fn : Nat) (value : Word64) (s : State) : Out := .next (s.hostActs fun s => s.writeTrhead fn value)
/-- BRDCFG (R373). -/
def execBrdcfg (board : Nat) (value : Word64) (s : State) : Out := .next (s.hostActs fun s => s.writeBrdcfg board value)
/-- SGCFG (R374). -/
def execSgcfg (group : Nat) (value : Word64) (s : State) : Out := .next (s.hostActs fun s => s.writeSgcfg group value)
/-- S2BASE (R374). -/
def execS2base (fn : Nat) (value : Word64) (s : State) : Out := .next (s.hostActs fun s => s.writeS2base fn value)
/-- S2BOUND (R374). -/
def execS2bound (fn : Nat) (value : Word64) (s : State) : Out := .next (s.hostActs fun s => s.writeS2bound fn value)
/-- QUOTA (R374). -/
def execQuota (fn : Nat) (value : Word64) (s : State) : Out := .next (s.hostActs fun s => s.writeQuota fn value)
/-- RATE (R388). -/
def execRate (fn arb : Nat) (value : Word64) (s : State) : Out := .next (s.hostActs fun s => if arb < 7 then s.writeRate fn arb value else s)
/-- STGQ (R440). -/
def execStgq (fn : Nat) (value : Word64) (s : State) : Out := .next (s.hostActs fun s => s.writeStgq fn value)
/-- FABID (R429). -/
def execFabid (value : Word64) (s : State) : Out := .next (s.hostActs fun s => s.writeFabid value)
/-- PLANEMAP (R431). -/
def execPlanemap (value : Word64) (s : State) : Out := .next (s.hostActs fun s => s.writePlanemap value)
/-- LINK_ENABLE (R429). -/
def execLinkEnable (link : Nat) (value : Word64) (s : State) : Out := .next (s.hostActs fun s => s.writeLink link value)
/-- TGRESOLVE (R444). -/
def execTgresolve (value : Word64) (s : State) : Out := .next (s.hostActs fun s => s.writeTgresolve value)

end Sys2Proof.Machine
end

