-- ==== Sys2Proof/Machine/FloatAlu.lean ====
section
/-! DEFINITION. The meanings of majors 5, 6, 7, 9 and 14. -/

namespace Sys2Proof.Machine

/-- A rounded element as a register value. -/
def Rounded.word (r : Rounded) : Word × Flags := (BitVec.ofNat 32 r.bits, r.flags)

/-- One f32 source under FPMODE (R123). -/
def laneF1 (s : State) (g : Option Guard) (d a : Nat) (f : FCtl → Nat → Rounded) : Out :=
  laneVF s g d fun r l => (f (fctl r.fpmode) (r.v a l).toNat).word
/-- Two f32 sources. -/
def laneF2 (s : State) (g : Option Guard) (d a b : Nat) (f : FCtl → Nat → Nat → Rounded) : Out :=
  laneVF s g d fun r l => (f (fctl r.fpmode) (r.v a l).toNat (r.v b l).toNat).word
/-- Both 16-bit elements of two sources (R130). -/
def laneH2 (s : State) (g : Option Guard) (d a b : Nat) (f : FCtl → Nat → Nat → Rounded) : Out :=
  laneVF s g d fun r l => packed2 (f (fctl r.fpmode)) (r.v a l) (r.v b l)
/-- A compare of f32 values (R131). -/
def laneFC (s : State) (g : Option Guard) (d a b : Nat) (rel : FVal → FVal → Bool) (un : Bool) : Out :=
  lanePF s g d fun r l => fcompare rel un (fpDNI r.fpmode) (r.v a l).toNat (r.v b l).toNat

/-- The controls of a conversion with a #r literal (R88), with the lane's draw for sr (R92). -/
def cvtCtl (r : Regs) (rnd : Rnd) (l : Nat) : FCtl :=
  { dni := fpDNI r.fpmode, dno := fpDNO r.fpmode, mode := rndMode rnd r.fpmode, draw := (srNext (r.sr l)).toNat }

/-- The generators after an instruction whose active lanes draw once each under sr (R92). -/
def drawLanes (r : Regs) (rnd : Rnd) (nl : Nat) (m : Mask) (old : Regs) : Regs :=
  if rnd = .sr then r.setSrLanes nl m fun l => srNext (old.sr l) else r

/-- A conversion with a #r literal: one draw in each lane of active() under sr. -/
def laneCvt (s : State) (g : Option Guard) (d a : Nat) (rnd : Rnd) (f : FCtl → Word → Word × Flags) : Out :=
  regOp s fun t =>
    let m := t.lanes g
    let res := fun l => f (cvtCtl t.regs rnd l) (t.regs.v a l)
    drawLanes ((t.regs.setV d t.nlane m fun l => (res l).1).raise (lanesFlags t.nlane m fun l => (res l).2)) rnd t.nlane m t.regs

/-- The pair byte of a lane of pip4.pack (R134). -/
def pip4PackLane (t : Team) (m : Mask) (a : Nat) (rnd : Rnd) (l : Nat) : Word × Flags :=
  let elem (i : Nat) : Option Nat := if i < t.nlane ∧ Mask.has m i then some (t.regs.v a i).toNat else none
  let draw (i : Nat) : Nat := (srNext (t.regs.sr i)).toNat
  let i := l / 2 * 2
  (pip4Pack (rndMode rnd t.regs.fpmode) (fpDNI t.regs.fpmode) (elem i) (elem (i + 1)) (draw i) (draw (i + 1))).word

/-- fadd (R124). -/
def execFadd (g : Option Guard) (d a b : Nat) (s : State) : Out := laneF2 s g d a b (fadd .f32)

/-- fsub (R124). -/
def execFsub (g : Option Guard) (d a b : Nat) (s : State) : Out := laneF2 s g d a b (fsub .f32)

/-- fmul (R124). -/
def execFmul (g : Option Guard) (d a b : Nat) (s : State) : Out := laneF2 s g d a b (fmul .f32)

/-- ffma (R124). -/
def execFfma (g : Option Guard) (d a b : Nat) (s : State) : Out := 
  laneVF s g d fun r l => (ffma .f32 (fctl r.fpmode) (r.v a l).toNat (r.v b l).toNat (r.v d l).toNat).word

/-- fmin (R125). -/
def execFmin (g : Option Guard) (d a b : Nat) (s : State) : Out := laneF2 s g d a b (fminmax .f32 false)

/-- fmax (R125). -/
def execFmax (g : Option Guard) (d a b : Nat) (s : State) : Out := laneF2 s g d a b (fminmax .f32 true)

/-- fabs (R126). -/
def execFabs (g : Option Guard) (d a : Nat) (s : State) : Out := laneVV s g d a fun x => x &&& 0x7FFFFFFF

/-- fneg (R126). -/
def execFneg (g : Option Guard) (d a : Nat) (s : State) : Out := laneVV s g d a fun x => x ^^^ 0x80000000

/-- fdiv (R127). -/
def execFdiv (g : Option Guard) (d a b : Nat) (s : State) : Out := laneF2 s g d a b fdiv

/-- fsqrt (R127). -/
def execFsqrt (g : Option Guard) (d a : Nat) (s : State) : Out := laneF1 s g d a fsqrt

/-- frcp (R128). -/
def execFrcp (g : Option Guard) (d a : Nat) (s : State) : Out := laneF1 s g d a (fspecial 23 rcpV true)

/-- frsq (R128). -/
def execFrsq (g : Option Guard) (d a : Nat) (s : State) : Out := laneF1 s g d a (fspecial 23 rsqV true)

/-- fexp2 (R128). -/
def execFexp2 (g : Option Guard) (d a : Nat) (s : State) : Out := laneF1 s g d a (fspecial 22 exp2V false)

/-- flog2 (R128). -/
def execFlog2 (g : Option Guard) (d a : Nat) (s : State) : Out := laneF1 s g d a (fspecial 22 log2V true)

/-- fsin (R128). -/
def execFsin (g : Option Guard) (d a : Nat) (s : State) : Out := laneF1 s g d a (fspecial 22 sinV false)

/-- fcos (R128). -/
def execFcos (g : Option Guard) (d a : Nat) (s : State) : Out := laneF1 s g d a (fspecial 22 cosV false)

/-- ftanh (R128). -/
def execFtanh (g : Option Guard) (d a : Nat) (s : State) : Out := laneF1 s g d a (fspecial 22 tanhV false)

/-- frnd (R129). -/
def execFrnd (g : Option Guard) (d a : Nat) (rnd : Rnd) (s : State) : Out := 
  laneVF s g d fun r l => (frnd (cvtCtl r rnd l) (r.v a l).toNat).word

/-- hadd.f16 (R130). -/
def execHaddF16 (g : Option Guard) (d a b : Nat) (s : State) : Out := laneH2 s g d a b (fadd .f16)

/-- hmul.f16 (R130). -/
def execHmulF16 (g : Option Guard) (d a b : Nat) (s : State) : Out := laneH2 s g d a b (fmul .f16)

/-- hfma.f16 (R130). -/
def execHfmaF16 (g : Option Guard) (d a b : Nat) (s : State) : Out := 
  laneVF s g d fun r l => packed3 (ffma .f16 (fctl r.fpmode)) (r.v a l) (r.v b l) (r.v d l)

/-- hadd.bf16 (R130). -/
def execHaddBf16 (g : Option Guard) (d a b : Nat) (s : State) : Out := laneH2 s g d a b (fadd .bf16)

/-- hmul.bf16 (R130). -/
def execHmulBf16 (g : Option Guard) (d a b : Nat) (s : State) : Out := laneH2 s g d a b (fmul .bf16)

/-- hfma.bf16 (R130). -/
def execHfmaBf16 (g : Option Guard) (d a b : Nat) (s : State) : Out := 
  laneVF s g d fun r l => packed3 (ffma .bf16 (fctl r.fpmode)) (r.v a l) (r.v b l) (r.v d l)

/-- hmin.f16 (R130). -/
def execHminF16 (g : Option Guard) (d a b : Nat) (s : State) : Out := laneH2 s g d a b (fminmax .f16 false)

/-- hmax.f16 (R130). -/
def execHmaxF16 (g : Option Guard) (d a b : Nat) (s : State) : Out := laneH2 s g d a b (fminmax .f16 true)

/-- fcmp.eq (R131). -/
def execFcmpEq (g : Option Guard) (d a b : Nat) (s : State) : Out := laneFC s g d a b equalV false

/-- fcmp.ne (R131). -/
def execFcmpNe (g : Option Guard) (d a b : Nat) (s : State) : Out := laneFC s g d a b (fun x y => !equalV x y) true

/-- fcmp.lt (R131). -/
def execFcmpLt (g : Option Guard) (d a b : Nat) (s : State) : Out := laneFC s g d a b lessV false

/-- fcmp.le (R131). -/
def execFcmpLe (g : Option Guard) (d a b : Nat) (s : State) : Out := laneFC s g d a b (fun x y => !lessV y x) false

/-- fcmp.gt (R131). -/
def execFcmpGt (g : Option Guard) (d a b : Nat) (s : State) : Out := laneFC s g d a b (fun x y => lessV y x) false

/-- fcmp.ge (R131). -/
def execFcmpGe (g : Option Guard) (d a b : Nat) (s : State) : Out := laneFC s g d a b (fun x y => !lessV x y) false

/-- fcmp.un (R131). -/
def execFcmpUn (g : Option Guard) (d a b : Nat) (s : State) : Out := laneFC s g d a b (fun _ _ => false) true

/-- fcmp.or (R131). -/
def execFcmpOr (g : Option Guard) (d a b : Nat) (s : State) : Out := laneFC s g d a b (fun _ _ => true) false

/-- cvt.f32.i32 (R132). -/
def execCvtF32I32 (g : Option Guard) (d a : Nat) (rnd : Rnd) (s : State) : Out := laneCvt s g d a rnd fun c x => (cvtIntF32 c x.toInt).word

/-- cvt.f32.n32 (R132). -/
def execCvtF32N32 (g : Option Guard) (d a : Nat) (rnd : Rnd) (s : State) : Out := laneCvt s g d a rnd fun c x => (cvtIntF32 c x.toNat).word

/-- cvt.i32.f32 (R132). -/
def execCvtI32F32 (g : Option Guard) (d a : Nat) (rnd : Rnd) (s : State) : Out := 
  laneCvt s g d a rnd fun c x => cvtF32Int (-2 ^ 31) (2 ^ 31 - 1) c x.toNat

/-- cvt.n32.f32 (R132). -/
def execCvtN32F32 (g : Option Guard) (d a : Nat) (rnd : Rnd) (s : State) : Out := 
  laneCvt s g d a rnd fun c x => cvtF32Int 0 (2 ^ 32 - 1) c x.toNat

/-- cvt.f16.f32 (R133). -/
def execCvtF16F32 (g : Option Guard) (d a : Nat) (rnd : Rnd) (s : State) : Out := laneCvt s g d a rnd fun c x => (cvtFmt .f32 .f16 c x.toNat).word

/-- cvt.f32.f16 (R133). -/
def execCvtF32F16 (g : Option Guard) (d a : Nat) (s : State) : Out := laneF1 s g d a fun c x => cvtFmt .f16 .f32 c (x % 65536)

/-- cvt.bf16.f32 (R133). -/
def execCvtBf16F32 (g : Option Guard) (d a : Nat) (rnd : Rnd) (s : State) : Out := laneCvt s g d a rnd fun c x => (cvtFmt .f32 .bf16 c x.toNat).word

/-- cvt.f32.bf16 (R133). -/
def execCvtF32Bf16 (g : Option Guard) (d a : Nat) (s : State) : Out := laneF1 s g d a fun c x => cvtFmt .bf16 .f32 c (x % 65536)

/-- cvt.f8a.f32 (R133). -/
def execCvtF8aF32 (g : Option Guard) (d a : Nat) (rnd : Rnd) (s : State) : Out := laneCvt s g d a rnd fun c x => (cvtFmt .f32 .f8a c x.toNat).word

/-- cvt.f32.f8a (R133). -/
def execCvtF32F8a (g : Option Guard) (d a : Nat) (s : State) : Out := laneF1 s g d a fun c x => cvtFmt .f8a .f32 c (x % 256)

/-- cvt.f8b.f32 (R133). -/
def execCvtF8bF32 (g : Option Guard) (d a : Nat) (rnd : Rnd) (s : State) : Out := laneCvt s g d a rnd fun c x => (cvtFmt .f32 .f8b c x.toNat).word

/-- cvt.f32.f8b (R133). -/
def execCvtF32F8b (g : Option Guard) (d a : Nat) (s : State) : Out := laneF1 s g d a fun c x => cvtFmt .f8b .f32 c (x % 256)

/-- pip4.pack (R134). -/
def execPip4Pack (g : Option Guard) (d a : Nat) (rnd : Rnd) (s : State) : Out := 
  regOp s fun t =>
    let m := t.lanes g
    drawLanes ((t.regs.setV d t.nlane m fun l => (pip4PackLane t m a rnd l).1).raise
      (lanesFlags t.nlane m fun l => (pip4PackLane t m a rnd l).2)) rnd t.nlane m t.regs

/-- pip4.unpack (R135). -/
def execPip4Unpack (g : Option Guard) (d a : Nat) (s : State) : Out := 
  laneV s g d fun r l =>
    let u := pip4Decode 0 ((r.v a l).toNat % 256)
    BitVec.ofNat 32 (intF32 (if l % 2 = 0 then u.1 else u.2))

/-- scale.blk (R136). -/
def execScaleBlk (g : Option Guard) (d a b : Nat) (s : State) : Out := laneF2 s g d a b scaleBlk

end Sys2Proof.Machine
end

