-- ==== Sys2Proof/Machine/IntAlu.lean ====
section
/-! DEFINITION. The meanings of majors 0 to 4, 8 and 10 to 13, but for rdsp and wrsp. -/

namespace Sys2Proof.Machine

/-- nop (R21, R103). -/
def execNop (s : State) : Out := regOp s fun t => t.regs

/-- mov (R103). -/
def execMov (g : Option Guard) (d a : Nat) (s : State) : Out := laneVV s g d a fun x => x

/-- movi (R103). -/
def execMovi (g : Option Guard) (d : Nat) (imm : Word) (s : State) : Out := laneV s g d fun _ _ => imm

/-- sel (R103). -/
def execSel (g : Option Guard) (d a b : Nat) (s : State) : Out := 
  laneV s g d fun r l => if Mask.has (r.p b) l then r.v a l else r.v d l

/-- laneid (R103). -/
def execLaneid (g : Option Guard) (d : Nat) (s : State) : Out := laneV s g d fun _ l => BitVec.ofNat 32 l

/-- add.i32 (R107). -/
def execAddI32 (g : Option Guard) (d a b : Nat) (s : State) : Out := laneVVV s g d a b (· + ·)

/-- sub.i32 (R107). -/
def execSubI32 (g : Option Guard) (d a b : Nat) (s : State) : Out := laneVVV s g d a b (· - ·)

/-- min.i32 (R107). -/
def execMinI32 (g : Option Guard) (d a b : Nat) (s : State) : Out := laneVVV s g d a b minS

/-- min.n32 (R107). -/
def execMinN32 (g : Option Guard) (d a b : Nat) (s : State) : Out := laneVVV s g d a b minU

/-- max.i32 (R107). -/
def execMaxI32 (g : Option Guard) (d a b : Nat) (s : State) : Out := laneVVV s g d a b maxS

/-- max.n32 (R107). -/
def execMaxN32 (g : Option Guard) (d a b : Nat) (s : State) : Out := laneVVV s g d a b maxU

/-- and.b32 (R107). -/
def execAndB32 (g : Option Guard) (d a b : Nat) (s : State) : Out := laneVVV s g d a b (· &&& ·)

/-- or.b32 (R107). -/
def execOrB32 (g : Option Guard) (d a b : Nat) (s : State) : Out := laneVVV s g d a b (· ||| ·)

/-- xor.b32 (R107). -/
def execXorB32 (g : Option Guard) (d a b : Nat) (s : State) : Out := laneVVV s g d a b (· ^^^ ·)

/-- andn.b32 (R107). -/
def execAndnB32 (g : Option Guard) (d a b : Nat) (s : State) : Out := laneVVV s g d a b fun x y => x &&& ~~~y

/-- abs.i32 (R107). -/
def execAbsI32 (g : Option Guard) (d a : Nat) (s : State) : Out := laneVV s g d a absI

/-- neg.i32 (R107). -/
def execNegI32 (g : Option Guard) (d a : Nat) (s : State) : Out := laneVV s g d a fun x => -x

/-- adds.i32 (R108). -/
def execAddsI32 (g : Option Guard) (d a b : Nat) (s : State) : Out := laneVVVF s g d a b addsI

/-- subs.i32 (R108). -/
def execSubsI32 (g : Option Guard) (d a b : Nat) (s : State) : Out := laneVVVF s g d a b subsI

/-- adds.n32 (R108). -/
def execAddsN32 (g : Option Guard) (d a b : Nat) (s : State) : Out := laneVVVF s g d a b addsN

/-- subs.n32 (R108). -/
def execSubsN32 (g : Option Guard) (d a b : Nat) (s : State) : Out := laneVVVF s g d a b subsN

/-- addi.i32 (R107). -/
def execAddiI32 (g : Option Guard) (d a : Nat) (imm : Word) (s : State) : Out := laneVV s g d a fun x => x + imm

/-- andi.b32 (R107). -/
def execAndiB32 (g : Option Guard) (d a : Nat) (imm : Word) (s : State) : Out := laneVV s g d a fun x => x &&& imm

/-- ori.b32 (R107). -/
def execOriB32 (g : Option Guard) (d a : Nat) (imm : Word) (s : State) : Out := laneVV s g d a fun x => x ||| imm

/-- xori.b32 (R107). -/
def execXoriB32 (g : Option Guard) (d a : Nat) (imm : Word) (s : State) : Out := laneVV s g d a fun x => x ^^^ imm

/-- mini.i32 (R107). -/
def execMiniI32 (g : Option Guard) (d a : Nat) (imm : Word) (s : State) : Out := laneVV s g d a fun x => minS x imm

/-- maxi.i32 (R107). -/
def execMaxiI32 (g : Option Guard) (d a : Nat) (imm : Word) (s : State) : Out := laneVV s g d a fun x => maxS x imm

/-- shl.b32 (R109). -/
def execShlB32 (g : Option Guard) (d a b : Nat) (s : State) : Out := laneVVV s g d a b fun x y => shlFull x y.toNat

/-- shr.n32 (R109). -/
def execShrN32 (g : Option Guard) (d a b : Nat) (s : State) : Out := laneVVV s g d a b fun x y => shrFull x y.toNat

/-- shr.i32 (R109). -/
def execShrI32 (g : Option Guard) (d a b : Nat) (s : State) : Out := laneVVV s g d a b fun x y => sarFull x y.toNat

/-- shli.b32 (R109). -/
def execShliB32 (g : Option Guard) (d a : Nat) (imm : Word) (s : State) : Out := laneVV s g d a fun x => shlFull x imm.toNat

/-- shri.n32 (R109). -/
def execShriN32 (g : Option Guard) (d a : Nat) (imm : Word) (s : State) : Out := laneVV s g d a fun x => shrFull x imm.toNat

/-- shri.i32 (R109). -/
def execShriI32 (g : Option Guard) (d a : Nat) (imm : Word) (s : State) : Out := laneVV s g d a fun x => sarFull x imm.toNat

/-- bfe.n32 (R110). -/
def execBfeN32 (g : Option Guard) (d a b : Nat) (s : State) : Out := laneVVV s g d a b bfeN

/-- bfe.i32 (R110). -/
def execBfeI32 (g : Option Guard) (d a b : Nat) (s : State) : Out := laneVVV s g d a b bfeI

/-- bfi.b32 (R110). -/
def execBfiB32 (g : Option Guard) (d a b : Nat) (s : State) : Out := laneIO s g d a b bfi

/-- popc.b32 (R111). -/
def execPopcB32 (g : Option Guard) (d a : Nat) (s : State) : Out := laneVV s g d a popc

/-- clz.b32 (R111). -/
def execClzB32 (g : Option Guard) (d a : Nat) (s : State) : Out := laneVV s g d a clz

/-- brev.b32 (R111). -/
def execBrevB32 (g : Option Guard) (d a : Nat) (s : State) : Out := laneVV s g d a brev

/-- prmt.b32: the selector is the old destination (R112). -/
def execPrmtB32 (g : Option Guard) (d a b : Nat) (s : State) : Out := laneIO s g d a b prmt

/-- mul.i32 (R113). -/
def execMulI32 (g : Option Guard) (d a b : Nat) (s : State) : Out := laneVVV s g d a b (· * ·)

/-- mulhi.i32 (R113). -/
def execMulhiI32 (g : Option Guard) (d a b : Nat) (s : State) : Out := laneVVV s g d a b mulhiI

/-- mulhi.n32 (R113). -/
def execMulhiN32 (g : Option Guard) (d a b : Nat) (s : State) : Out := laneVVV s g d a b mulhiN

/-- mad.i32 (R113). -/
def execMadI32 (g : Option Guard) (d a b : Nat) (s : State) : Out := laneIO s g d a b fun acc x y => x * y + acc

/-- div.i32 (R114). -/
def execDivI32 (g : Option Guard) (d a b : Nat) (s : State) : Out := laneVVVF s g d a b divI

/-- div.n32 (R114). -/
def execDivN32 (g : Option Guard) (d a b : Nat) (s : State) : Out := laneVVVF s g d a b divN

/-- rem.i32 (R114). -/
def execRemI32 (g : Option Guard) (d a b : Nat) (s : State) : Out := laneVVVF s g d a b remI

/-- rem.n32 (R114). -/
def execRemN32 (g : Option Guard) (d a b : Nat) (s : State) : Out := laneVVVF s g d a b remN

/-- cmp.eq.i32 (R115). -/
def execCmpEqI32 (g : Option Guard) (d a b : Nat) (s : State) : Out := lanePVV s g d a b fun x y => x == y

/-- cmp.ne.i32 (R115). -/
def execCmpNeI32 (g : Option Guard) (d a b : Nat) (s : State) : Out := lanePVV s g d a b fun x y => x != y

/-- cmp.lt.i32 (R115). -/
def execCmpLtI32 (g : Option Guard) (d a b : Nat) (s : State) : Out := lanePVV s g d a b fun x y => x.slt y

/-- cmp.le.i32 (R115). -/
def execCmpLeI32 (g : Option Guard) (d a b : Nat) (s : State) : Out := lanePVV s g d a b fun x y => x.sle y

/-- cmp.gt.i32 (R115). -/
def execCmpGtI32 (g : Option Guard) (d a b : Nat) (s : State) : Out := lanePVV s g d a b fun x y => y.slt x

/-- cmp.ge.i32 (R115). -/
def execCmpGeI32 (g : Option Guard) (d a b : Nat) (s : State) : Out := lanePVV s g d a b fun x y => y.sle x

/-- cmp.lt.n32 (R115). -/
def execCmpLtN32 (g : Option Guard) (d a b : Nat) (s : State) : Out := lanePVV s g d a b fun x y => x.ult y

/-- cmp.le.n32 (R115). -/
def execCmpLeN32 (g : Option Guard) (d a b : Nat) (s : State) : Out := lanePVV s g d a b fun x y => x.ule y

/-- cmp.gt.n32 (R115). -/
def execCmpGtN32 (g : Option Guard) (d a b : Nat) (s : State) : Out := lanePVV s g d a b fun x y => y.ult x

/-- cmp.ge.n32 (R115). -/
def execCmpGeN32 (g : Option Guard) (d a b : Nat) (s : State) : Out := lanePVV s g d a b fun x y => y.ule x

/-- pand (R116). -/
def execPand (g : Option Guard) (d a b : Nat) (s : State) : Out := lanePPP s g d a b fun x y => x && y

/-- por (R116). -/
def execPor (g : Option Guard) (d a b : Nat) (s : State) : Out := lanePPP s g d a b fun x y => x || y

/-- pxor (R116). -/
def execPxor (g : Option Guard) (d a b : Nat) (s : State) : Out := lanePPP s g d a b fun x y => x != y

/-- pandn (R116). -/
def execPandn (g : Option Guard) (d a b : Nat) (s : State) : Out := lanePPP s g d a b fun x y => x && !y

/-- pnot (R116). -/
def execPnot (g : Option Guard) (d a : Nat) (s : State) : Out := laneP s g d fun r l => !Mask.has (r.p a) l

/-- pmov (R116). -/
def execPmov (g : Option Guard) (d a : Nat) (s : State) : Out := laneP s g d fun r l => Mask.has (r.p a) l

/-- pset (R116). -/
def execPset (g : Option Guard) (d : Nat) (val : Bool) (s : State) : Out := laneP s g d fun _ _ => val

/-- vote.any (R101, R117). -/
def execVoteAny (g : Option Guard) (d a : Nat) (s : State) : Out := 
  laneTeam s g fun t m _ => t.regs.setQ d ((lanesBelow t.nlane).any fun l => Mask.has m l && Mask.has (t.regs.p a) l)

/-- vote.all (R101, R117). -/
def execVoteAll (g : Option Guard) (d a : Nat) (s : State) : Out := 
  laneTeam s g fun t m _ => t.regs.setQ d ((lanesBelow t.nlane).all fun l => !Mask.has m l || Mask.has (t.regs.p a) l)

/-- ballot (R101, R117). -/
def execBallot (g : Option Guard) (d a : Nat) (group : Nat) (s : State) : Out := 
  laneTeam s g fun t m _ => t.regs.setS d (maskWord (m &&& t.regs.p a &&& maskOf t.nlane fun _ => true) group)

/-- pcnt (R101, R117). -/
def execPcnt (g : Option Guard) (d a : Nat) (s : State) : Out := 
  laneTeam s g fun t m _ => t.regs.setS d (BitVec.ofNat 32 (countLanes t.nlane (m &&& t.regs.p a)))

/-- add.i64 (R118). -/
def execAddI64 (g : Option Guard) (d a b : Nat) (s : State) : Out := laneWWW s g d a b (· + ·)

/-- sub.i64 (R118). -/
def execSubI64 (g : Option Guard) (d a b : Nat) (s : State) : Out := laneWWW s g d a b (· - ·)

/-- mul.i64 (R118). -/
def execMulI64 (g : Option Guard) (d a b : Nat) (s : State) : Out := laneWWW s g d a b (· * ·)

/-- shl.b64 (R118). -/
def execShlB64 (g : Option Guard) (d a b : Nat) (s : State) : Out := laneWWW s g d a b fun x y => shlFull x y.toNat

/-- shr.n64 (R118). -/
def execShrN64 (g : Option Guard) (d a b : Nat) (s : State) : Out := laneWWW s g d a b fun x y => shrFull x y.toNat

/-- shr.i64 (R118). -/
def execShrI64 (g : Option Guard) (d a b : Nat) (s : State) : Out := laneWWW s g d a b fun x y => sarFull x y.toNat

/-- and.b64 (R118). -/
def execAndB64 (g : Option Guard) (d a b : Nat) (s : State) : Out := laneWWW s g d a b (· &&& ·)

/-- or.b64 (R118). -/
def execOrB64 (g : Option Guard) (d a b : Nat) (s : State) : Out := laneWWW s g d a b (· ||| ·)

/-- xor.b64 (R118). -/
def execXorB64 (g : Option Guard) (d a b : Nat) (s : State) : Out := laneWWW s g d a b (· ^^^ ·)

/-- cmp.eq.i64 (R118). -/
def execCmpEqI64 (g : Option Guard) (d a b : Nat) (s : State) : Out := lanePWW s g d a b fun x y => x == y

/-- cmp.lt.i64 (R118). -/
def execCmpLtI64 (g : Option Guard) (d a b : Nat) (s : State) : Out := lanePWW s g d a b fun x y => x.slt y

/-- cmp.lt.n64 (R118). -/
def execCmpLtN64 (g : Option Guard) (d a b : Nat) (s : State) : Out := lanePWW s g d a b fun x y => x.ult y

/-- sxt.i64 (R118). -/
def execSxtI64 (g : Option Guard) (d a : Nat) (s : State) : Out := laneW s g d fun r l => (r.v a l).signExtend 64

/-- zxt.n64 (R118). -/
def execZxtN64 (g : Option Guard) (d a : Nat) (s : State) : Out := laneW s g d fun r l => (r.v a l).setWidth 64

/-- trunc.b32 (R118). -/
def execTruncB32 (g : Option Guard) (d a : Nat) (s : State) : Out := laneV s g d fun r l => (r.w a l).setWidth 32

/-- sadd (R119). -/
def execSadd (g : Option Guard) (d a b : Nat) (s : State) : Out := uniSSS s g d a b (· + ·)

/-- ssub (R119). -/
def execSsub (g : Option Guard) (d a b : Nat) (s : State) : Out := uniSSS s g d a b (· - ·)

/-- smul (R119). -/
def execSmul (g : Option Guard) (d a b : Nat) (s : State) : Out := uniSSS s g d a b (· * ·)

/-- sand (R119). -/
def execSand (g : Option Guard) (d a b : Nat) (s : State) : Out := uniSSS s g d a b (· &&& ·)

/-- sor (R119). -/
def execSor (g : Option Guard) (d a b : Nat) (s : State) : Out := uniSSS s g d a b (· ||| ·)

/-- sxor (R119). -/
def execSxor (g : Option Guard) (d a b : Nat) (s : State) : Out := uniSSS s g d a b (· ^^^ ·)

/-- sshl (R119). -/
def execSshl (g : Option Guard) (d a b : Nat) (s : State) : Out := uniSSS s g d a b fun x y => shlFull x y.toNat

/-- sshr (R119). -/
def execSshr (g : Option Guard) (d a b : Nat) (s : State) : Out := uniSSS s g d a b fun x y => shrFull x y.toNat

/-- sminI32 (R119). -/
def execSminI32 (g : Option Guard) (d a b : Nat) (s : State) : Out := uniSSS s g d a b minS

/-- smaxI32 (R119). -/
def execSmaxI32 (g : Option Guard) (d a b : Nat) (s : State) : Out := uniSSS s g d a b maxS

/-- scmp.eq (R119). -/
def execScmpEq (g : Option Guard) (d a b : Nat) (s : State) : Out := uniQSS s g d a b fun x y => x == y

/-- scmp.lt (R119). -/
def execScmpLt (g : Option Guard) (d a b : Nat) (s : State) : Out := uniQSS s g d a b fun x y => x.slt y

/-- xadd (R119). -/
def execXadd (g : Option Guard) (d a b : Nat) (s : State) : Out := uniXXX s g d a b (· + ·)

/-- xsub (R119). -/
def execXsub (g : Option Guard) (d a b : Nat) (s : State) : Out := uniXXX s g d a b (· - ·)

/-- xshl (R119). -/
def execXshl (g : Option Guard) (d a b : Nat) (s : State) : Out := uniXXX s g d a b fun x y => shlFull x y.toNat

/-- xcmp.lt (R119). -/
def execXcmpLt (g : Option Guard) (d a b : Nat) (s : State) : Out := regOpIf s g fun t => t.regs.setQ d ((t.regs.x a).slt (t.regs.x b))

/-- smovi (R120). -/
def execSmovi (g : Option Guard) (d : Nat) (imm : Word) (s : State) : Out := regOpIf s g fun t => t.regs.setS d imm

/-- xmovi (R120). -/
def execXmovi (g : Option Guard) (d : Nat) (imm : Word) (s : State) : Out := regOpIf s g fun t => t.regs.setX d (imm.signExtend 64)

/-- xmovhi (R120). -/
def execXmovhi (g : Option Guard) (d : Nat) (imm : Word) (s : State) : Out := 
  regOpIf s g fun t => t.regs.setX d (imm ++ (t.regs.x d).setWidth 32)

/-- s2v (R121). -/
def execS2v (g : Option Guard) (d a : Nat) (s : State) : Out := laneV s g d fun r _ => r.s a

/-- v2s (R101, R121). -/
def execV2s (g : Option Guard) (d a : Nat) (s : State) : Out := laneTeam s g fun t _ m => t.regs.setS d (t.regs.v a m)

/-- x2w (R121). -/
def execX2w (g : Option Guard) (d a : Nat) (s : State) : Out := laneW s g d fun r _ => r.x a

/-- w2x (R101, R121). -/
def execW2x (g : Option Guard) (d a : Nat) (s : State) : Out := laneTeam s g fun t _ m => t.regs.setX d (t.regs.w a m)

end Sys2Proof.Machine
end

