-- ==== Sys2Proof/Machine/Lanes.lean ====
section
/-! DEFINITION. The meanings of major 15: shuffles, broadcasts, reductions and scans (R138 to R142). -/

namespace Sys2Proof.Machine

/-- The first lane of a lane's scope (R138). -/
def scopeBase (team : Bool) (l : Nat) : Nat := if team then 0 else l / 32 * 32
/-- The lanes a scope spans, before NLANE bounds it. -/
def scopeWidth (team : Bool) (nl : Nat) : Nat := if team then nl else 32
/-- The lanes of active() in a lane's scope, rising. -/
def scopeLanes (team : Bool) (nl : Nat) (m : Mask) (l : Nat) : List Nat :=
  (lanesBelow nl).filter fun i => Mask.has m i && scopeBase team i == scopeBase team l

/-- A shuffle: each lane receives the source that a position names, or keeps its own v[A] (R139). -/
def shuffle (s : State) (g : Option Guard) (d a : Nat) (team : Bool) (pos : Regs → Nat → Nat → Option Nat) : Out :=
  regOp s fun t =>
    let m := t.lanes g
    t.regs.setV d t.nlane m fun l =>
      let base := scopeBase team l
      match pos t.regs l (l - base) with
      | none => t.regs.v a l
      | some p =>
        if p < scopeWidth team t.nlane ∧ base + p < t.nlane ∧ Mask.has m (base + p) then t.regs.v a (base + p)
        else t.regs.v a l

/-- A reduction: every lane of active() in a scope receives one value computed over them in rising order (R140). -/
def reduce (s : State) (g : Option Guard) (d a : Nat) (team : Bool) (f : Word → List Word → Word × Flags) : Out :=
  regOp s fun t =>
    let m := t.lanes g
    let val := fun l =>
      match (scopeLanes team t.nlane m l).map (t.regs.v a) with
      | [] => (0, 0)
      | x :: xs => f x xs
    (t.regs.setV d t.nlane m fun l => (val l).1).raise (lanesFlags t.nlane m fun l => (val l).2)

/-- shfl.idx: the position is the lane's own old v[D] (R139). -/
def execShflIdx (g : Option Guard) (d a : Nat) (team : Bool) (s : State) : Out :=
  shuffle s g d a team fun r l _ => some (r.v d l).toNat

/-- shfl.up (R139). -/
def execShflUp (g : Option Guard) (d a : Nat) (team : Bool) (k : Nat) (s : State) : Out :=
  shuffle s g d a team fun _ _ p => if k ≤ p then some (p - k) else none

/-- shfl.dn (R139). -/
def execShflDn (g : Option Guard) (d a : Nat) (team : Bool) (k : Nat) (s : State) : Out :=
  shuffle s g d a team fun _ _ p => some (p + k)

/-- shfl.xor (R139). -/
def execShflXor (g : Option Guard) (d a : Nat) (team : Bool) (k : Nat) (s : State) : Out :=
  shuffle s g d a team fun _ _ p => some (p ^^^ k)

/-- bcast.l (R139). -/
def execBcastL (g : Option Guard) (d a : Nat) (team : Bool) (k : Nat) (s : State) : Out :=
  shuffle s g d a team fun _ _ _ => some k

/-- red.add.i32 (R140). -/
def execRedAddI32 (g : Option Guard) (d a : Nat) (team : Bool) (s : State) : Out :=
  reduce s g d a team fun x xs => (xs.foldl (· + ·) x, 0)

/-- red.min.i32 (R140). -/
def execRedMinI32 (g : Option Guard) (d a : Nat) (team : Bool) (s : State) : Out :=
  reduce s g d a team fun x xs => (xs.foldl minS x, 0)

/-- red.min.n32 (R140). -/
def execRedMinN32 (g : Option Guard) (d a : Nat) (team : Bool) (s : State) : Out :=
  reduce s g d a team fun x xs => (xs.foldl minU x, 0)

/-- red.max.i32 (R140). -/
def execRedMaxI32 (g : Option Guard) (d a : Nat) (team : Bool) (s : State) : Out :=
  reduce s g d a team fun x xs => (xs.foldl maxS x, 0)

/-- One step of red.fadd: the fadd of R124, with the flags so far. -/
def faddStep (c : FCtl) (acc : Nat × Flags) (x : Word) : Nat × Flags :=
  ((fadd .f32 c acc.1 x.toNat).bits, acc.2 ||| (fadd .f32 c acc.1 x.toNat).flags)

/-- red.fadd: from −0, adding each lane in rising order (R140). -/
def execRedFadd (g : Option Guard) (d a : Nat) (team : Bool) (s : State) : Out :=
  regOp s fun t =>
    let m := t.lanes g
    let val := fun l => ((scopeLanes team t.nlane m l).map (t.regs.v a)).foldl (faddStep (fctl t.regs.fpmode)) (0x80000000, 0)
    (t.regs.setV d t.nlane m fun l => BitVec.ofNat 32 (val l).1).raise (lanesFlags t.nlane m fun l => (val l).2)

/-- scan.add.i32 (R141). -/
def execScanAddI32 (g : Option Guard) (d a : Nat) (team : Bool) (s : State) : Out :=
  regOp s fun t =>
    let m := t.lanes g
    t.regs.setV d t.nlane m fun l =>
      (((scopeLanes team t.nlane m l).filter fun i => decide (i ≤ l)).map (t.regs.v a)).foldl (· + ·) 0

end Sys2Proof.Machine
end

