-- ==== Sys2Proof/Machine/Memory.lean ====
section
/-! DEFINITION. The meanings of majors 16 to 18 but for probe: each is one use of the shared operations of MemOps. -/

namespace Sys2Proof.Machine

/-- ld.b8 (R148). -/
def execLdB8 (g : Option Guard) (t xb vo : Nat) (disp : Word) (s : State) : Out := loadOp s g t xb vo disp 0

/-- st.b8 (R148). -/
def execStB8 (g : Option Guard) (t xb vo : Nat) (disp : Word) (s : State) : Out := storeOp s g t xb vo disp 0

/-- ld.b16 (R148). -/
def execLdB16 (g : Option Guard) (t xb vo : Nat) (disp : Word) (s : State) : Out := loadOp s g t xb vo disp 1

/-- st.b16 (R148). -/
def execStB16 (g : Option Guard) (t xb vo : Nat) (disp : Word) (s : State) : Out := storeOp s g t xb vo disp 1

/-- ld.b32 (R148). -/
def execLdB32 (g : Option Guard) (t xb vo : Nat) (disp : Word) (s : State) : Out := loadOp s g t xb vo disp 2

/-- st.b32 (R148). -/
def execStB32 (g : Option Guard) (t xb vo : Nat) (disp : Word) (s : State) : Out := storeOp s g t xb vo disp 2

/-- ld.b64 (R148). -/
def execLdB64 (g : Option Guard) (t xb vo : Nat) (disp : Word) (s : State) : Out := loadOp s g t xb vo disp 3

/-- st.b64 (R148). -/
def execStB64 (g : Option Guard) (t xb vo : Nat) (disp : Word) (s : State) : Out := storeOp s g t xb vo disp 3

/-- ld.b128 (R148). -/
def execLdB128 (g : Option Guard) (t xb vo : Nat) (disp : Word) (s : State) : Out := loadOp s g t xb vo disp 4

/-- st.b128 (R148). -/
def execStB128 (g : Option Guard) (t xb vo : Nat) (disp : Word) (s : State) : Out := storeOp s g t xb vo disp 4

/-- lds.b32 (R150). -/
def execLdsB32 (g : Option Guard) (t xb : Nat) (disp : Word) (s : State) : Out := loadUni s g xb disp 2 fun r v => r.setS t (BitVec.ofNat 32 v)

/-- lds.b64 (R150). -/
def execLdsB64 (g : Option Guard) (t xb : Nat) (disp : Word) (s : State) : Out := loadUni s g xb disp 3 fun r v => r.setX t (BitVec.ofNat 64 v)

/-- sts.b32 (R150). -/
def execStsB32 (g : Option Guard) (t xb : Nat) (disp : Word) (s : State) : Out := storeUni s g xb disp 2 fun r => (r.s t).toNat

/-- sts.b64 (R150). -/
def execStsB64 (g : Option Guard) (t xb : Nat) (disp : Word) (s : State) : Out := storeUni s g xb disp 3 fun r => (r.x t).toNat

/-- atom.add.i32 (R153 to R155). -/
def execAtomAddI32 (t xb vo : Nat) (order : Order) (scope : Scope) (sc nr : Bool) (s : State) : Out := 
  atomOp s .addI32 t xb vo order scope sc nr

/-- atom.add.f32 (R153 to R155). -/
def execAtomAddF32 (t xb vo : Nat) (order : Order) (scope : Scope) (sc nr : Bool) (s : State) : Out := 
  atomOp s .addF32 t xb vo order scope sc nr

/-- atom.min.i32 (R153 to R155). -/
def execAtomMinI32 (t xb vo : Nat) (order : Order) (scope : Scope) (sc nr : Bool) (s : State) : Out := 
  atomOp s .minI32 t xb vo order scope sc nr

/-- atom.min.n32 (R153 to R155). -/
def execAtomMinN32 (t xb vo : Nat) (order : Order) (scope : Scope) (sc nr : Bool) (s : State) : Out := 
  atomOp s .minN32 t xb vo order scope sc nr

/-- atom.max.i32 (R153 to R155). -/
def execAtomMaxI32 (t xb vo : Nat) (order : Order) (scope : Scope) (sc nr : Bool) (s : State) : Out := 
  atomOp s .maxI32 t xb vo order scope sc nr

/-- atom.max.n32 (R153 to R155). -/
def execAtomMaxN32 (t xb vo : Nat) (order : Order) (scope : Scope) (sc nr : Bool) (s : State) : Out := 
  atomOp s .maxN32 t xb vo order scope sc nr

/-- atom.and (R153 to R155). -/
def execAtomAnd (t xb vo : Nat) (order : Order) (scope : Scope) (sc nr : Bool) (s : State) : Out := 
  atomOp s .and t xb vo order scope sc nr

/-- atom.or (R153 to R155). -/
def execAtomOr (t xb vo : Nat) (order : Order) (scope : Scope) (sc nr : Bool) (s : State) : Out := 
  atomOp s .or t xb vo order scope sc nr

/-- atom.xor (R153 to R155). -/
def execAtomXor (t xb vo : Nat) (order : Order) (scope : Scope) (sc nr : Bool) (s : State) : Out := 
  atomOp s .xor t xb vo order scope sc nr

/-- atom.xchg (R153 to R155). -/
def execAtomXchg (t xb vo : Nat) (order : Order) (scope : Scope) (sc nr : Bool) (s : State) : Out := 
  atomOp s .xchg t xb vo order scope sc nr

/-- atom.cas (R153 to R155). -/
def execAtomCas (t xb vo : Nat) (order : Order) (scope : Scope) (sc nr : Bool) (s : State) : Out := 
  atomOp s .cas t xb vo order scope sc nr

/-- atom.add.i64 (R153 to R155). -/
def execAtomAddI64 (t xb vo : Nat) (order : Order) (scope : Scope) (sc nr : Bool) (s : State) : Out := 
  atomOp s .addI64 t xb vo order scope sc nr

/-- atom.cas.i64 (R153 to R155). -/
def execAtomCasI64 (t xb vo : Nat) (order : Order) (scope : Scope) (sc nr : Bool) (s : State) : Out := 
  atomOp s .casI64 t xb vo order scope sc nr

/-- ld.acq (R153 to R155). -/
def execLdAcq (t xb vo : Nat) (order : Order) (scope : Scope) (sc nr : Bool) (s : State) : Out := 
  atomOp s .ldAcq t xb vo order scope sc nr

/-- st.rel (R153 to R155). -/
def execStRel (t xb vo : Nat) (order : Order) (scope : Scope) (sc nr : Bool) (s : State) : Out := 
  atomOp s .stRel t xb vo order scope sc nr

/-- atom.inc.n32 (R153 to R155). -/
def execAtomIncN32 (t xb vo : Nat) (order : Order) (scope : Scope) (sc nr : Bool) (s : State) : Out := 
  atomOp s .incN32 t xb vo order scope sc nr

end Sys2Proof.Machine
end

