-- ==== Sys2Proof/Machine/System.lean ====
section
/-! DEFINITION. The meanings of major 29, and of rdsp and wrsp (R41, R56, R58, R105, R106, R220 to R226, R345, R346, R364, R368,
R369). -/

namespace Sys2Proof.Machine

/-! ### Special registers (R56, R105, R106, R345) -/

/-- The trap state that the special registers name: frame d − 1 at depth d, the most recent trap outside handlers (R345). -/
def Team.trapNow (t : Team) : TrapState :=
  match t.trap.handlers with
  | [] => t.trap.last
  | f :: _ => f.trap

/-- Change it: a handler's write stays with its frame, and the most recent trap stays as it was delivered (log entry 103). -/
def Team.modTrapNow (t : Team) (f : TrapState → TrapState) : Team :=
  match t.trap.handlers with
  | [] => { t with trap := { t.trap with last := f t.trap.last } }
  | h :: l => { t with trap := { t.trap with handlers := { h with trap := f h.trap } :: l } }

/-- The code of a special register. -/
def spCode : SpReg → Nat
  | .team => 0x00 | .crew => 0x01 | .table => 0x02 | .nteam => 0x03 | .nlane => 0x04 | .ncrew => 0x05 | .launch => 0x06
  | .argbase => 0x07 | .scrbase => 0x08 | .cycles => 0x09 | .nflags => 0x0A | .fpmode => 0x0B | .srseed => 0x0C | .bank => 0x0D
  | .priv => 0x0E | .tcause => 0x10 | .tvpc => 0x11 | .taddr => 0x12 | .tinfo => 0x13 | .tdone _ => 0x14 | .vf => 0x20
  | .core => 0x21 | .split => 0x22

/-- The level that a read needs: 0 U, 1 S, 2 H. -/
def spReadLevel : SpReg → Nat
  | .tcause | .tvpc | .taddr | .tinfo | .tdone _ | .vf => 1
  | .core => 2
  | .team | .crew | .table | .nteam | .nlane | .ncrew | .launch | .argbase | .scrbase | .cycles | .nflags | .fpmode | .srseed
  | .bank | .priv | .split => 0

/-- The level that a write needs. -/
def spWriteLevel : SpReg → Nat
  | .tcause | .tvpc | .taddr | .tinfo | .tdone _ => 1
  | .cycles => 2
  | .team | .crew | .table | .nteam | .nlane | .ncrew | .launch | .argbase | .scrbase | .nflags | .fpmode | .srseed
  | .bank | .priv | .vf | .core | .split => 0

/-- Groups of 32 lanes in a team (R232). -/
def Team.maskGroups (t : Team) : Nat := (t.nlane + 31) / 32

/-- The crew of a team. -/
def State.crewOf (s : State) (t : Team) : Option Crew := s.crews.find? t.crew

/-- The value of a uniform special register other than CYCLES. -/
def State.spValue (s : State) (t : Team) (r : SpReg) : Word64 :=
  let n (k : Nat) : Word64 := BitVec.ofNat 64 k
  let cr (f : Crew → Nat) : Word64 := n (((s.crewOf t).map f).getD 0)
  let la (f : Launch → Word64) : Word64 := ((s.launchOf t).map f).getD 0
  match r with
  | .team => n t.index
  | .crew => cr Crew.index
  | .table => cr fun c => c.table.getD 0
  | .nteam => cr Crew.nteam
  | .nlane => n t.nlane
  | .ncrew => la fun l => n l.pkt.ncrew
  | .launch => la Launch.serial
  | .argbase => la fun l => l.pkt.argbase
  | .scrbase => n scrBase
  | .nflags => t.regs.nflags.setWidth 64
  | .fpmode => t.regs.fpmode.setWidth 64
  | .bank => n (match t.ctl.bank with
      | .a => 0
      | .b => 1)
  | .priv => n t.ctl.priv.rank
  | .tcause => t.trapNow.cause.setWidth 64
  | .tvpc => t.trapNow.vpc
  | .taddr => t.trapNow.addr
  | .tinfo => t.trapNow.info.setWidth 64
  | .tdone g => if g < t.maskGroups then (maskWord t.trapNow.done g).setWidth 64 else 0
  | .vf => n (s.fnOf t)
  | .core => n (((s.placeOf t).map (·.1)).getD 0)
  | .split => cr Crew.split
  | .cycles | .srseed => 0

/-- A special register whose value an x register takes. -/
def spWide : SpReg → Bool
  | .launch | .argbase | .scrbase | .cycles | .tvpc | .taddr => true
  | .team | .crew | .table | .nteam | .nlane | .ncrew | .nflags | .fpmode | .srseed | .bank | .priv | .tcause | .tinfo
  | .tdone _ | .vf | .core | .split => false

/-- Write a value to x[d] or s[d]. -/
def Regs.setSp (r : Regs) (wide : Bool) (d : Nat) (v : Word64) : Regs :=
  if wide then r.setX d v else r.setS d (v.setWidth 32)

/-- rdsp (R105). -/
def execRdsp (g : Option Guard) (d : Nat) (r : SpReg) (s : State) : Out :=
  withTeam s fun uid t =>
    if t.ctl.priv.rank < spReadLevel r then s.raise uid (privTrap (spCode r) (spReadLevel r) 0 0)
    else
      match r with
      | .srseed => s.putTeam uid { t with regs := t.regs.setV d t.nlane (t.lanes g) t.regs.sr }.advance
      | .cycles =>
        if guardHolds t.regs g then
          let (c, s1) := s.tickCore (s.coreOf t)
          s1.putTeam uid { t with regs := t.regs.setX d c }.advance
        else s.putTeam uid t.advance
      | r =>
        s.putTeam uid (if guardHolds t.regs g then { t with regs := t.regs.setSp (spWide r) d (s.spValue t r) } else t).advance

/-- A write of CYCLES: the core's count, and every team there logs its next marker anew (R106). -/
def State.setCycles (s : State) (core : Nat) (v : Word64) : State :=
  let there (e : Nat × Team) : Nat × Team :=
    if (s.placeOf e.2).map (·.1) = some core then (e.1, { e.2 with link := { e.2.link with resync := true } }) else e
  { s with cycles := s.cycles.set 0 core v, teams := s.teams.map there }

/-- The team after a write of a special register other than CYCLES and SRSEED. -/
def Team.setSp (t : Team) (r : SpReg) (v : Word64) : Team :=
  match r with
  | .nflags => { t with regs := { t.regs with nflags := v.setWidth 32 &&& 0x1FF } }
  | .fpmode => { t with regs := { t.regs with fpmode := v.setWidth 32 &&& 0xF } }
  | .tcause => t.modTrapNow fun x => { x with cause := v.setWidth 32 &&& 0xFF }
  | .tvpc => t.modTrapNow fun x => { x with vpc := v }
  | .taddr => t.modTrapNow fun x => { x with addr := v }
  | .tinfo => t.modTrapNow fun x => { x with info := v.setWidth 32 }
  | .tdone g => if g < t.maskGroups then t.modTrapNow fun x => { x with done := setMaskWord x.done g (v.setWidth 32) } else t
  | .cycles | .srseed | .team | .crew | .table | .nteam | .nlane | .ncrew | .launch | .argbase | .scrbase | .bank | .priv | .vf
  | .core | .split => t

/-- wrsp (R106). -/
def execWrsp (g : Option Guard) (a : Nat) (r : SpReg) (s : State) : Out :=
  withTeam s fun uid t =>
    if t.ctl.priv.rank < spWriteLevel r then s.raise uid (privTrap (spCode r) (spWriteLevel r) 0 0)
    else
      match r with
      | .srseed => s.putTeam uid { t with regs := t.regs.setSrLanes t.nlane (t.lanes g) (t.regs.v a) }.advance
      | .cycles =>
        if guardHolds t.regs g then (s.putTeam uid t.advance).setCycles (s.coreOf t) (t.regs.x a)
        else s.putTeam uid t.advance
      | r =>
        let v := if spWide r then t.regs.x a else (t.regs.s a).setWidth 64
        s.putTeam uid (if guardHolds t.regs g then t.setSp r v else t).advance

/-! ### trap, brkpt, tret, halt (R220, R221, R226, R338, R345, R346) -/

/-- trap. -/
def execTrap (g : Option Guard) (imm : Word) (s : State) : Out := uniOp s g fun uid _ => s.raise uid { cause := .swtrap, info := imm }
/-- brkpt. -/
def execBrkpt (g : Option Guard) (imm : Word) (s : State) : Out := uniOp s g fun uid _ => s.raise uid { cause := .brkpt, info := imm }

/-- The suspended operation that a frame reported goes on; the unit at which it stopped is exempt once if the frame's TCAUSE
is still WATCH (R338). -/
def Engines.resume (e : Engines) (op : EngRef) (watch : Bool) : Engines :=
  match op with
  | .copy id => e.modCopy id fun o => { o with susp := none, exempt := if watch then some o.progress else none }
  | .matrix n => e.modMat n fun m => { m with susp := none, exempt := if watch then some m.progress else none }
  | .stamp id => e.modStamp id fun m => { m with susp := none, exempt := watch }

/-- A team as a tret leaves it: the frame popped and what it saved restored (R346). -/
def Team.leave (t : Team) (f : TrapFrame) (rest : List TrapFrame) : Team :=
  let watch := f.trap.cause == BitVec.ofNat 32 Cause.watch.code
  let after := f.trap.cause == BitVec.ofNat 32 Cause.brkpt.code || f.trap.cause == BitVec.ofNat 32 Cause.swtrap.code
  { t with
    trap := { t.trap with handlers := rest }
    ctl := { t.ctl with
      pc := if after then f.trap.vpc.toNat + 4 else f.trap.vpc.toNat
      bank := f.bank, active := f.active, frames := f.frames, returns := f.returns, priv := f.priv, barrier := f.barrier
      skip := if after then 0 else f.trap.done
      arrived := !after && f.arrived == some f.trap.vpc.toNat
      exempt := if watch then f.exempt else none }
    eng := match f.trap.eng with
      | some e => t.eng.resume e.op watch
      | none => t.eng }

/-- Where a frame resumes lies in the overlay that its BANK holds, or held until it was reclaimed (R346, R210). -/
def State.frameOk (s : State) (t : Team) (f : TrapFrame) : Bool :=
  (s.lostOverlay t f.bank f.trap.vpc.toNat).isSome ||
    match s.overlayIn t f.bank with
    | some n => s.inOverlay t n f.trap.vpc.toNat
    | none => false

/-- tret. -/
def execTret (s : State) : Out :=
  withTeam s fun uid t =>
    if t.ctl.priv.rank < 1 then s.raise uid (privTrap 0 1 29 0)
    else
      match t.trap.handlers with
      | [] => s.raise uid { cause := .handlerDepth, info := 1 }
      | f :: rest =>
        if f.trap.vpc.toNat % 4 ≠ 0 then s.raise uid (transferTrap 5 f.trap.vpc)
        else if !s.frameOk t f then s.raise uid (ovlTrap .ovlMiss f.bank (overlayOf f.trap.vpc.toNat) 3 f.trap.vpc)
        else (s.traceTeam t 3 t.ctl.pc (BitVec.ofNat 64 rest.length)).putTeam uid (t.leave f rest)

/-- halt. -/
def execHalt (s : State) : Out :=
  withTeam s fun uid t =>
    if t.ctl.priv.rank < 1 then s.raise uid (privTrap 0 1 29 0)
    else
      match s.crewOf t with
      | some c => s.haltLaunch c.launch (some uid)
      | none => s

/-! ### mark (R222, R365 to R368) -/

/-- The drift of a marker at cycle count `c` and expected count `e` from the last one logged: zero with RESYNC, else what has
passed on the core against what the translator expected, saturated (R368). -/
def Team.drift (t : Team) (c e : Word64) : Word :=
  if t.link.resync then 0
  else
    let d := ((c.toNat : Int) - t.link.lastMark.1.toNat) - ((e.toNat : Int) - t.link.lastMark.2.toNat)
    BitVec.ofInt 32 (max (-2 ^ 31) (min (2 ^ 31 - 1) d))

/-- DATA of a marker record. -/
def markData (drift imm : Word) (resync : Bool) : Word64 :=
  BitVec.ofNat 64 (drift.toNat * 2 ^ 32 + imm.toNat % 2 ^ 31 * 2 + (if resync then 1 else 0))

/-- A marker that is logged, at cycle count `c` and with expected count `e`: interlocks follow where DETAIL is on and the drift
passes THRESH. -/
def Team.logMark (t : Team) (f : Fn) (c e : Word64) : Team :=
  { t with link := { t.link with
      resync := false
      lastMark := (c, e)
      detail := f.detail && decide (f.trctl.toNat / 2 ^ 32 < (t.drift c e).toInt.natAbs) } }

/-- mark: its record bears the core's cycle count, and the expected count, which the translator assigns, is a free value. While
EN or MARKS is 0 it logs nothing, and the next marker logged measures from the last one logged (log entry 104). -/
def execMark (g : Option Guard) (imm : Word) (s : State) : Out :=
  uniOp s g fun uid t =>
    let f := s.fn (s.fnOf t)
    if f.tracing && f.marks then
      let (e, s1) := s.takeWord64
      let (c, s2) := s1.tickCore (s.coreOf t)
      (s2.traceAt t 1 t.ctl.pc (markData (t.drift c e) imm t.link.resync) c).putTeam uid (t.logMark f c e).advance
    else s.putTeam uid { t with link := { t.link with detail := false } }.advance

/-! ### Watchpoints (R223) -/

/-- The access of an instruction's own record read. -/
def recordAccess (a : Word64) (log2 : Nat) : Access := { addr := a.toNat, size := 2 ^ log2, log2 := log2, rd := true, wr := false, uni := true }

/-- The uniform read of a record whose traps keep the layout of R147. -/
def withUniRecord (s : State) (uid : Nat) (a : Word64) (log2 : Nat) (use : State → Nat → State) : State :=
  match s.fetchLane uid (recordAccess a log2) (.load (2 ^ log2)) false (fun s p => s.loadNat p (2 ^ log2)) use with
  | .done s' => s'
  | .trap tr => s.raise uid tr
  | .wait s' => s'.modTeam uid Team.waits

/-- The watchpoint that a record describes, none when a field breaks its limits. -/
def watchOf (r : Nat) : Option Watch :=
  let base := field r 0 8
  let len := field r 8 8
  let ctl := field r 16 4
  let arr := field r 20 2
  if 1 ≤ len ∧ len ≤ 2 ^ 48 ∧ base + len ≤ 2 ^ 64 ∧ ctl < 16 ∧ ctl / 2 % 4 ≠ 0 ∧ (ctl % 2 = 1 ∨ arr = 0) ∧ field r 22 8 = 0 ∧ field r 30 2 = 0 then
    some { base := base, length := len, array := if ctl % 2 = 1 then some (arr % 256, arr / 256) else none
           read := ctl.testBit 1, write := ctl.testBit 2, engine := ctl.testBit 3 }
  else none

/-- Engine operations in flight are no longer watched by a watchpoint that is armed anew or disarmed (R223, R338). -/
def Engines.unwatch (e : Engines) (n : Nat) : Engines :=
  let copy (o : CopyOp) : CopyOp := { o with watches := o.watches.erase n }
  { e with
    open_ := e.open_.map copy
    closed := e.closed.map fun b => { b with ops := b.ops.map copy }
    gathers := e.gathers.map copy
    mats := e.mats.map fun m => { m with watches := m.watches.erase n }
    stamps := e.stamps.map fun m => { m with watches := m.watches.erase n } }

/-- Arm watchpoint `n`. -/
def Team.arm (t : Team) (n : Nat) (w : Watch) : Team :=
  { t with eng := t.eng.unwatch n, link := { t.link with watches := t.link.watches.insert n w } }

/-- The last checks of wpt.set: n and the fields, then the array's handle, then the range of elements. -/
def Team.watchCheck (t : Team) (n : Word) (r : Nat) : Except Trap Watch :=
  match watchOf r with
  | none => .error (recordTrap 1)
  | some w =>
    if 15 < n.toNat then .error (recordTrap 1)
    else
      match w.array with
      | none => .ok w
      | some _ =>
        match t.arrayAt (BitVec.ofNat 16 (field r 20 2)) 1 with
        | .error tr => .error tr
        | .ok (_, arr) => if t.arrayLen arr < w.base + w.length then .error (matTrap .accOob 3 1 0) else .ok w

/-- wpt.set. -/
def execWptSet (g : Option Guard) (a b : Nat) (s : State) : Out :=
  uniOp s g fun uid t =>
    withUniRecord s uid (t.regs.x b) 5 fun s r =>
      match (s.teamD uid).watchCheck (t.regs.s a) r with
      | .error tr => s.raise uid tr
      | .ok w => s.modTeam uid fun u => (u.arm (t.regs.s a).toNat w).advance

/-- wpt.clr. -/
def execWptClr (g : Option Guard) (a : Nat) (s : State) : Out :=
  uniOp s g fun uid t =>
    let n := (t.regs.s a).toNat
    if 15 < n then s.raise uid (recordTrap 1)
    else s.putTeam uid { t with eng := t.eng.unwatch n, link := { t.link with watches := t.link.watches.erase n } }.advance

/-! ### Counters (R224, R369, R370) -/

/-- The counters of a team and its function as a read finds them: TBUNDLE, TPARK and those of the L2 have gone on by a free
amount since they were last read, VINTERF only where the function shares its slices (R370). -/
def State.countOn (s : State) (uid v i n : Nat) : State :=
  let team (f : Links → Links) : State := s.modTeam uid fun t => { t with link := f t.link }
  match i with
  | 0x00 => team fun l => { l with bundles := countedOn l.bundles n }
  | 0x01 => team fun l => { l with parked := countedOn l.parked n }
  | 0x10 => s.modFn v fun f => { f with l2hit := countedOn f.l2hit n }
  | 0x11 => s.modFn v fun f => { f with l2miss := countedOn f.l2miss n }
  | 0x12 => s.modFn v fun f => { f with l2evict := countedOn f.l2evict n }
  | 0x13 => if s.rated v then s.modFn v fun f => { f with vinterf := countedOn f.vinterf n } else s
  | _ => s

/-- A performance counter by its index (R369). -/
def State.counter (s : State) (t : Team) (v i : Nat) : Word64 :=
  match i with
  | 0x00 => t.link.bundles
  | 0x01 => t.link.parked
  | 0x02 => t.link.rollbacks
  | 0x03 => t.link.aliases
  | 0x04 => t.link.skips
  | 0x05 => t.link.replays
  | 0x10 => (s.fn v).l2hit
  | 0x11 => (s.fn v).l2miss
  | 0x12 => (s.fn v).l2evict
  | 0x13 => (s.fn v).vinterf
  | 0x14 => (s.fn v).vperturb
  | 0x15 => (s.fn v).vtrlost
  | 0x16 => (s.fn v).vprq
  | _ => 0

/-- perf.rd. -/
def execPerfRd (g : Option Guard) (d a : Nat) (s : State) : Out :=
  uniOp s g fun uid t =>
    let v := s.fnOf t
    let i := (t.regs.s a).toNat
    let (n, s0) := s.takeNat
    let s1 := s0.countOn uid v i n
    s1.modTeam uid fun u => { u with regs := u.regs.setX d (s1.counter u v i) }.advance

/-! ### Configuration registers (R225) -/

/-- The address check of cfg.rd and cfg.wr, after privilege. -/
def Team.cfgCheck (t : Team) (a : Word64) (wr : Bool) : Option Trap :=
  let n := a.toNat
  if n / 2 ^ 37 ≠ 0 then some (privTrap 0 3 29 a)
  else if n / 2 ^ 32 ≠ 0 ∧ t.ctl.priv ≠ .h then some (privTrap 0 2 29 a)
  else if n % 8 ≠ 0 then some { cause := .align, addr := a, info := memInfo 0 true wr 3 0 0 }
  else none

/-- The window that an address names: the team's own at S. -/
def State.cfgWindow (s : State) (t : Team) (a : Word64) : Nat := if t.ctl.priv = .h then a.toNat / 2 ^ 32 % 32 else s.fnOf t

/-- cfg.rd. -/
def execCfgRd (g : Option Guard) (d a : Nat) (s : State) : Out :=
  withTeam s fun uid t =>
    let x := t.regs.x a
    if t.ctl.priv.rank < 1 then s.raise uid (privTrap 0 1 29 x)
    else if !guardHolds t.regs g then s.putTeam uid t.advance
    else
      match t.cfgCheck x false with
      | some tr => s.raise uid tr
      | none =>
        let w := s.cfgWindow t x
        let self := if w = s.fnOf t then some t else none
        s.putTeam uid { t with regs := t.regs.setX d (s.cfgRead (t.ctl.priv == Priv.h) self w (x.toNat % 2 ^ 32)) }.advance

/-- cfg.wr. -/
def execCfgWr (g : Option Guard) (a b : Nat) (s : State) : Out :=
  withTeam s fun uid t =>
    let x := t.regs.x a
    if t.ctl.priv.rank < 1 then s.raise uid (privTrap 0 1 29 x)
    else if !guardHolds t.regs g then s.putTeam uid t.advance
    else
      match t.cfgCheck x true with
      | some tr => s.raise uid tr
      | none => (s.putTeam uid t.advance).cfgWrite (t.ctl.priv == Priv.h) (s.cfgWindow t x) (x.toNat % 2 ^ 32) (t.regs.x b)

end Sys2Proof.Machine
end

