-- ==== Sys2Proof/Machine/Dispatch.lean ====
section
/-! DEFINITION. One arm per instruction: the direct call of its meaning, or a rejection by name. -/

namespace Sys2Proof.Machine

def exec (i : Instr) (s : State) : Host.Outcome State Fault Refusal :=
  match i with
  -- major 0 (R42)
  | .nop => Sys2Proof.Machine.execNop s
  | .mov g d a => Sys2Proof.Machine.execMov g d a s
  | .movi g d imm => Sys2Proof.Machine.execMovi g d imm s
  | .sel g d a b => Sys2Proof.Machine.execSel g d a b s
  | .laneid g d => Sys2Proof.Machine.execLaneid g d s
  | .rdsp g d r => Sys2Proof.Machine.execRdsp g d r s
  | .wrsp g a r => Sys2Proof.Machine.execWrsp g a r s
  -- major 1 (R42)
  | .addI32 g d a b => Sys2Proof.Machine.execAddI32 g d a b s
  | .subI32 g d a b => Sys2Proof.Machine.execSubI32 g d a b s
  | .minI32 g d a b => Sys2Proof.Machine.execMinI32 g d a b s
  | .minN32 g d a b => Sys2Proof.Machine.execMinN32 g d a b s
  | .maxI32 g d a b => Sys2Proof.Machine.execMaxI32 g d a b s
  | .maxN32 g d a b => Sys2Proof.Machine.execMaxN32 g d a b s
  | .andB32 g d a b => Sys2Proof.Machine.execAndB32 g d a b s
  | .orB32 g d a b => Sys2Proof.Machine.execOrB32 g d a b s
  | .xorB32 g d a b => Sys2Proof.Machine.execXorB32 g d a b s
  | .andnB32 g d a b => Sys2Proof.Machine.execAndnB32 g d a b s
  | .absI32 g d a => Sys2Proof.Machine.execAbsI32 g d a s
  | .negI32 g d a => Sys2Proof.Machine.execNegI32 g d a s
  | .addsI32 g d a b => Sys2Proof.Machine.execAddsI32 g d a b s
  | .subsI32 g d a b => Sys2Proof.Machine.execSubsI32 g d a b s
  | .addsN32 g d a b => Sys2Proof.Machine.execAddsN32 g d a b s
  | .subsN32 g d a b => Sys2Proof.Machine.execSubsN32 g d a b s
  -- major 2 (R42)
  | .addiI32 g d a imm => Sys2Proof.Machine.execAddiI32 g d a imm s
  | .andiB32 g d a imm => Sys2Proof.Machine.execAndiB32 g d a imm s
  | .oriB32 g d a imm => Sys2Proof.Machine.execOriB32 g d a imm s
  | .xoriB32 g d a imm => Sys2Proof.Machine.execXoriB32 g d a imm s
  | .miniI32 g d a imm => Sys2Proof.Machine.execMiniI32 g d a imm s
  | .maxiI32 g d a imm => Sys2Proof.Machine.execMaxiI32 g d a imm s
  -- major 3 (R42)
  | .shlB32 g d a b => Sys2Proof.Machine.execShlB32 g d a b s
  | .shrN32 g d a b => Sys2Proof.Machine.execShrN32 g d a b s
  | .shrI32 g d a b => Sys2Proof.Machine.execShrI32 g d a b s
  | .shliB32 g d a imm => Sys2Proof.Machine.execShliB32 g d a imm s
  | .shriN32 g d a imm => Sys2Proof.Machine.execShriN32 g d a imm s
  | .shriI32 g d a imm => Sys2Proof.Machine.execShriI32 g d a imm s
  | .bfeN32 g d a b => Sys2Proof.Machine.execBfeN32 g d a b s
  | .bfeI32 g d a b => Sys2Proof.Machine.execBfeI32 g d a b s
  | .bfiB32 g d a b => Sys2Proof.Machine.execBfiB32 g d a b s
  | .popcB32 g d a => Sys2Proof.Machine.execPopcB32 g d a s
  | .clzB32 g d a => Sys2Proof.Machine.execClzB32 g d a s
  | .brevB32 g d a => Sys2Proof.Machine.execBrevB32 g d a s
  | .prmtB32 g d a b => Sys2Proof.Machine.execPrmtB32 g d a b s
  -- major 4 (R42)
  | .mulI32 g d a b => Sys2Proof.Machine.execMulI32 g d a b s
  | .mulhiI32 g d a b => Sys2Proof.Machine.execMulhiI32 g d a b s
  | .mulhiN32 g d a b => Sys2Proof.Machine.execMulhiN32 g d a b s
  | .madI32 g d a b => Sys2Proof.Machine.execMadI32 g d a b s
  | .divI32 g d a b => Sys2Proof.Machine.execDivI32 g d a b s
  | .divN32 g d a b => Sys2Proof.Machine.execDivN32 g d a b s
  | .remI32 g d a b => Sys2Proof.Machine.execRemI32 g d a b s
  | .remN32 g d a b => Sys2Proof.Machine.execRemN32 g d a b s
  -- major 5 (R43)
  | .fadd g d a b => Sys2Proof.Machine.execFadd g d a b s
  | .fsub g d a b => Sys2Proof.Machine.execFsub g d a b s
  | .fmul g d a b => Sys2Proof.Machine.execFmul g d a b s
  | .ffma g d a b => Sys2Proof.Machine.execFfma g d a b s
  | .fmin g d a b => Sys2Proof.Machine.execFmin g d a b s
  | .fmax g d a b => Sys2Proof.Machine.execFmax g d a b s
  | .fabs g d a => Sys2Proof.Machine.execFabs g d a s
  | .fneg g d a => Sys2Proof.Machine.execFneg g d a s
  -- major 6 (R43)
  | .fdiv g d a b => Sys2Proof.Machine.execFdiv g d a b s
  | .fsqrt g d a => Sys2Proof.Machine.execFsqrt g d a s
  | .frcp g d a => Sys2Proof.Machine.execFrcp g d a s
  | .frsq g d a => Sys2Proof.Machine.execFrsq g d a s
  | .fexp2 g d a => Sys2Proof.Machine.execFexp2 g d a s
  | .flog2 g d a => Sys2Proof.Machine.execFlog2 g d a s
  | .fsin g d a => Sys2Proof.Machine.execFsin g d a s
  | .fcos g d a => Sys2Proof.Machine.execFcos g d a s
  | .ftanh g d a => Sys2Proof.Machine.execFtanh g d a s
  | .frnd g d a rnd => Sys2Proof.Machine.execFrnd g d a rnd s
  -- major 7 (R43)
  | .haddF16 g d a b => Sys2Proof.Machine.execHaddF16 g d a b s
  | .hmulF16 g d a b => Sys2Proof.Machine.execHmulF16 g d a b s
  | .hfmaF16 g d a b => Sys2Proof.Machine.execHfmaF16 g d a b s
  | .hminF16 g d a b => Sys2Proof.Machine.execHminF16 g d a b s
  | .hmaxF16 g d a b => Sys2Proof.Machine.execHmaxF16 g d a b s
  | .haddBf16 g d a b => Sys2Proof.Machine.execHaddBf16 g d a b s
  | .hmulBf16 g d a b => Sys2Proof.Machine.execHmulBf16 g d a b s
  | .hfmaBf16 g d a b => Sys2Proof.Machine.execHfmaBf16 g d a b s
  -- major 8 (R43)
  | .cmpEqI32 g d a b => Sys2Proof.Machine.execCmpEqI32 g d a b s
  | .cmpNeI32 g d a b => Sys2Proof.Machine.execCmpNeI32 g d a b s
  | .cmpLtI32 g d a b => Sys2Proof.Machine.execCmpLtI32 g d a b s
  | .cmpLeI32 g d a b => Sys2Proof.Machine.execCmpLeI32 g d a b s
  | .cmpGtI32 g d a b => Sys2Proof.Machine.execCmpGtI32 g d a b s
  | .cmpGeI32 g d a b => Sys2Proof.Machine.execCmpGeI32 g d a b s
  | .cmpLtN32 g d a b => Sys2Proof.Machine.execCmpLtN32 g d a b s
  | .cmpLeN32 g d a b => Sys2Proof.Machine.execCmpLeN32 g d a b s
  | .cmpGtN32 g d a b => Sys2Proof.Machine.execCmpGtN32 g d a b s
  | .cmpGeN32 g d a b => Sys2Proof.Machine.execCmpGeN32 g d a b s
  -- major 9 (R43)
  | .fcmpEq g d a b => Sys2Proof.Machine.execFcmpEq g d a b s
  | .fcmpNe g d a b => Sys2Proof.Machine.execFcmpNe g d a b s
  | .fcmpLt g d a b => Sys2Proof.Machine.execFcmpLt g d a b s
  | .fcmpLe g d a b => Sys2Proof.Machine.execFcmpLe g d a b s
  | .fcmpGt g d a b => Sys2Proof.Machine.execFcmpGt g d a b s
  | .fcmpGe g d a b => Sys2Proof.Machine.execFcmpGe g d a b s
  | .fcmpUn g d a b => Sys2Proof.Machine.execFcmpUn g d a b s
  | .fcmpOr g d a b => Sys2Proof.Machine.execFcmpOr g d a b s
  -- major 10 (R44)
  | .pand g d a b => Sys2Proof.Machine.execPand g d a b s
  | .por g d a b => Sys2Proof.Machine.execPor g d a b s
  | .pxor g d a b => Sys2Proof.Machine.execPxor g d a b s
  | .pandn g d a b => Sys2Proof.Machine.execPandn g d a b s
  | .pnot g d a => Sys2Proof.Machine.execPnot g d a s
  | .pmov g d a => Sys2Proof.Machine.execPmov g d a s
  | .pset g d val => Sys2Proof.Machine.execPset g d val s
  | .voteAny g d a => Sys2Proof.Machine.execVoteAny g d a s
  | .voteAll g d a => Sys2Proof.Machine.execVoteAll g d a s
  | .ballot g d a group => Sys2Proof.Machine.execBallot g d a group s
  | .pcnt g d a => Sys2Proof.Machine.execPcnt g d a s
  -- major 11 (R44)
  | .addI64 g d a b => Sys2Proof.Machine.execAddI64 g d a b s
  | .subI64 g d a b => Sys2Proof.Machine.execSubI64 g d a b s
  | .mulI64 g d a b => Sys2Proof.Machine.execMulI64 g d a b s
  | .shlB64 g d a b => Sys2Proof.Machine.execShlB64 g d a b s
  | .shrN64 g d a b => Sys2Proof.Machine.execShrN64 g d a b s
  | .shrI64 g d a b => Sys2Proof.Machine.execShrI64 g d a b s
  | .andB64 g d a b => Sys2Proof.Machine.execAndB64 g d a b s
  | .orB64 g d a b => Sys2Proof.Machine.execOrB64 g d a b s
  | .xorB64 g d a b => Sys2Proof.Machine.execXorB64 g d a b s
  | .cmpEqI64 g d a b => Sys2Proof.Machine.execCmpEqI64 g d a b s
  | .cmpLtI64 g d a b => Sys2Proof.Machine.execCmpLtI64 g d a b s
  | .cmpLtN64 g d a b => Sys2Proof.Machine.execCmpLtN64 g d a b s
  | .sxtI64 g d a => Sys2Proof.Machine.execSxtI64 g d a s
  | .zxtN64 g d a => Sys2Proof.Machine.execZxtN64 g d a s
  | .truncB32 g d a => Sys2Proof.Machine.execTruncB32 g d a s
  -- major 12 (R44)
  | .sadd g d a b => Sys2Proof.Machine.execSadd g d a b s
  | .ssub g d a b => Sys2Proof.Machine.execSsub g d a b s
  | .smul g d a b => Sys2Proof.Machine.execSmul g d a b s
  | .sand g d a b => Sys2Proof.Machine.execSand g d a b s
  | .sor g d a b => Sys2Proof.Machine.execSor g d a b s
  | .sxor g d a b => Sys2Proof.Machine.execSxor g d a b s
  | .sshl g d a b => Sys2Proof.Machine.execSshl g d a b s
  | .sshr g d a b => Sys2Proof.Machine.execSshr g d a b s
  | .sminI32 g d a b => Sys2Proof.Machine.execSminI32 g d a b s
  | .smaxI32 g d a b => Sys2Proof.Machine.execSmaxI32 g d a b s
  | .scmpEq g d a b => Sys2Proof.Machine.execScmpEq g d a b s
  | .scmpLt g d a b => Sys2Proof.Machine.execScmpLt g d a b s
  | .xadd g d a b => Sys2Proof.Machine.execXadd g d a b s
  | .xsub g d a b => Sys2Proof.Machine.execXsub g d a b s
  | .xshl g d a b => Sys2Proof.Machine.execXshl g d a b s
  | .xcmpLt g d a b => Sys2Proof.Machine.execXcmpLt g d a b s
  -- major 13 (R44)
  | .smovi g d imm => Sys2Proof.Machine.execSmovi g d imm s
  | .xmovi g d imm => Sys2Proof.Machine.execXmovi g d imm s
  | .xmovhi g d imm => Sys2Proof.Machine.execXmovhi g d imm s
  | .s2v g d a => Sys2Proof.Machine.execS2v g d a s
  | .v2s g d a => Sys2Proof.Machine.execV2s g d a s
  | .x2w g d a => Sys2Proof.Machine.execX2w g d a s
  | .w2x g d a => Sys2Proof.Machine.execW2x g d a s
  -- major 14 (R44)
  | .cvtF32I32 g d a rnd => Sys2Proof.Machine.execCvtF32I32 g d a rnd s
  | .cvtI32F32 g d a rnd => Sys2Proof.Machine.execCvtI32F32 g d a rnd s
  | .cvtF32N32 g d a rnd => Sys2Proof.Machine.execCvtF32N32 g d a rnd s
  | .cvtN32F32 g d a rnd => Sys2Proof.Machine.execCvtN32F32 g d a rnd s
  | .cvtF16F32 g d a rnd => Sys2Proof.Machine.execCvtF16F32 g d a rnd s
  | .cvtBf16F32 g d a rnd => Sys2Proof.Machine.execCvtBf16F32 g d a rnd s
  | .cvtF8aF32 g d a rnd => Sys2Proof.Machine.execCvtF8aF32 g d a rnd s
  | .cvtF8bF32 g d a rnd => Sys2Proof.Machine.execCvtF8bF32 g d a rnd s
  | .pip4Pack g d a rnd => Sys2Proof.Machine.execPip4Pack g d a rnd s
  | .cvtF32F16 g d a => Sys2Proof.Machine.execCvtF32F16 g d a s
  | .cvtF32Bf16 g d a => Sys2Proof.Machine.execCvtF32Bf16 g d a s
  | .cvtF32F8a g d a => Sys2Proof.Machine.execCvtF32F8a g d a s
  | .cvtF32F8b g d a => Sys2Proof.Machine.execCvtF32F8b g d a s
  | .pip4Unpack g d a => Sys2Proof.Machine.execPip4Unpack g d a s
  | .scaleBlk g d a b => Sys2Proof.Machine.execScaleBlk g d a b s
  -- major 15 (R45)
  | .shflIdx g d a team => Sys2Proof.Machine.execShflIdx g d a team s
  | .shflUp g d a team k => Sys2Proof.Machine.execShflUp g d a team k s
  | .shflDn g d a team k => Sys2Proof.Machine.execShflDn g d a team k s
  | .shflXor g d a team k => Sys2Proof.Machine.execShflXor g d a team k s
  | .redAddI32 g d a team => Sys2Proof.Machine.execRedAddI32 g d a team s
  | .redMinI32 g d a team => Sys2Proof.Machine.execRedMinI32 g d a team s
  | .redMinN32 g d a team => Sys2Proof.Machine.execRedMinN32 g d a team s
  | .redMaxI32 g d a team => Sys2Proof.Machine.execRedMaxI32 g d a team s
  | .redFadd g d a team => Sys2Proof.Machine.execRedFadd g d a team s
  | .scanAddI32 g d a team => Sys2Proof.Machine.execScanAddI32 g d a team s
  | .bcastL g d a team k => Sys2Proof.Machine.execBcastL g d a team k s
  -- major 16 (R46)
  | .ldB8 g t xb vo disp => Sys2Proof.Machine.execLdB8 g t xb vo disp s
  | .ldB16 g t xb vo disp => Sys2Proof.Machine.execLdB16 g t xb vo disp s
  | .ldB32 g t xb vo disp => Sys2Proof.Machine.execLdB32 g t xb vo disp s
  | .ldB64 g t xb vo disp => Sys2Proof.Machine.execLdB64 g t xb vo disp s
  | .ldB128 g t xb vo disp => Sys2Proof.Machine.execLdB128 g t xb vo disp s
  | .ldsB32 g t xb disp => Sys2Proof.Machine.execLdsB32 g t xb disp s
  | .ldsB64 g t xb disp => Sys2Proof.Machine.execLdsB64 g t xb disp s
  | .probe g t xb vo disp => Sys2Proof.Machine.execProbe g t xb vo disp s
  -- major 17 (R46)
  | .stB8 g t xb vo disp => Sys2Proof.Machine.execStB8 g t xb vo disp s
  | .stB16 g t xb vo disp => Sys2Proof.Machine.execStB16 g t xb vo disp s
  | .stB32 g t xb vo disp => Sys2Proof.Machine.execStB32 g t xb vo disp s
  | .stB64 g t xb vo disp => Sys2Proof.Machine.execStB64 g t xb vo disp s
  | .stB128 g t xb vo disp => Sys2Proof.Machine.execStB128 g t xb vo disp s
  | .stsB32 g t xb disp => Sys2Proof.Machine.execStsB32 g t xb disp s
  | .stsB64 g t xb disp => Sys2Proof.Machine.execStsB64 g t xb disp s
  -- major 18 (R47)
  | .atomAddI32 t xb vo order scope sc nr => Sys2Proof.Machine.execAtomAddI32 t xb vo order scope sc nr s
  | .atomAddF32 t xb vo order scope sc nr => Sys2Proof.Machine.execAtomAddF32 t xb vo order scope sc nr s
  | .atomMinI32 t xb vo order scope sc nr => Sys2Proof.Machine.execAtomMinI32 t xb vo order scope sc nr s
  | .atomMinN32 t xb vo order scope sc nr => Sys2Proof.Machine.execAtomMinN32 t xb vo order scope sc nr s
  | .atomMaxI32 t xb vo order scope sc nr => Sys2Proof.Machine.execAtomMaxI32 t xb vo order scope sc nr s
  | .atomMaxN32 t xb vo order scope sc nr => Sys2Proof.Machine.execAtomMaxN32 t xb vo order scope sc nr s
  | .atomAnd t xb vo order scope sc nr => Sys2Proof.Machine.execAtomAnd t xb vo order scope sc nr s
  | .atomOr t xb vo order scope sc nr => Sys2Proof.Machine.execAtomOr t xb vo order scope sc nr s
  | .atomXor t xb vo order scope sc nr => Sys2Proof.Machine.execAtomXor t xb vo order scope sc nr s
  | .atomXchg t xb vo order scope sc nr => Sys2Proof.Machine.execAtomXchg t xb vo order scope sc nr s
  | .atomCas t xb vo order scope sc nr => Sys2Proof.Machine.execAtomCas t xb vo order scope sc nr s
  | .atomAddI64 t xb vo order scope sc nr => Sys2Proof.Machine.execAtomAddI64 t xb vo order scope sc nr s
  | .atomCasI64 t xb vo order scope sc nr => Sys2Proof.Machine.execAtomCasI64 t xb vo order scope sc nr s
  | .ldAcq t xb vo order scope sc nr => Sys2Proof.Machine.execLdAcq t xb vo order scope sc nr s
  | .stRel t xb vo order scope sc nr => Sys2Proof.Machine.execStRel t xb vo order scope sc nr s
  | .atomIncN32 t xb vo order scope sc nr => Sys2Proof.Machine.execAtomIncN32 t xb vo order scope sc nr s
  -- major 19 (R49)
  | .fence g scope order sc => Sys2Proof.Machine.execFence g scope order sc s
  | .barArrive g a b => Sys2Proof.Machine.execBarArrive g a b s
  | .barWait g a => Sys2Proof.Machine.execBarWait g a s
  | .barSync g a b => Sys2Proof.Machine.execBarSync g a b s
  | .mon g a => Sys2Proof.Machine.execMon g a s
  | .mwait g => Sys2Proof.Machine.execMwait g s
  | .waitc g cls n => Sys2Proof.Machine.execWaitc g cls n s
  | .waitb g a => Sys2Proof.Machine.execWaitb g a s
  | .yield g => Sys2Proof.Machine.execYield g s
  | .nflagMerge g a => Sys2Proof.Machine.execNflagMerge g a s
  -- major 20 (R50)
  | .cpG2s g a => Sys2Proof.Machine.execCpG2s g a s
  | .cpS2g g a => Sys2Proof.Machine.execCpS2g g a s
  | .cpG2g g a => Sys2Proof.Machine.execCpG2g g a s
  | .cpTile g a => Sys2Proof.Machine.execCpTile g a s
  | .cpRed g a => Sys2Proof.Machine.execCpRed g a s
  | .cpGather g a b => Sys2Proof.Machine.execCpGather g a b s
  | .cpClose g d => Sys2Proof.Machine.execCpClose g d s
  | .cpStamp g a scope => Sys2Proof.Machine.execCpStamp g a scope s
  -- major 21 (R50)
  | .trkOpen g d a b => Sys2Proof.Machine.execTrkOpen g d a b s
  | .trkWfill g a b => Sys2Proof.Machine.execTrkWfill g a b s
  | .trkWfree g a b => Sys2Proof.Machine.execTrkWfree g a b s
  | .trkAdvP g a b => Sys2Proof.Machine.execTrkAdvP g a b s
  | .trkAdvC g a b => Sys2Proof.Machine.execTrkAdvC g a b s
  | .trkClose g a => Sys2Proof.Machine.execTrkClose g a s
  | .trkState g d a => Sys2Proof.Machine.execTrkState g d a s
  -- major 22 (R50)
  | .obRsv g d a => Sys2Proof.Machine.execObRsv g d a s
  | .obRel g a => Sys2Proof.Machine.execObRel g a s
  | .obFill g a b => Sys2Proof.Machine.execObFill g a b s
  | .obInfo g d a => Sys2Proof.Machine.execObInfo g d a s
  -- major 23 (R50)
  | .unfCfg g a => Sys2Proof.Machine.execUnfCfg g a s
  | .mma g d a b => Sys2Proof.Machine.execMma g d a b s
  | .mmaZ g d a b => Sys2Proof.Machine.execMmaZ g d a b s
  | .accAlloc g d a => Sys2Proof.Machine.execAccAlloc g d a s
  | .accFree g a => Sys2Proof.Machine.execAccFree g a s
  -- major 24 (R50)
  | .accRd g d a b => Sys2Proof.Machine.execAccRd g d a b s
  | .accWr g d a b => Sys2Proof.Machine.execAccWr g d a b s
  | .accZero g a => Sys2Proof.Machine.execAccZero g a s
  | .accSt g d a b => Sys2Proof.Machine.execAccSt g d a b s
  | .accPatch g d a b => Sys2Proof.Machine.execAccPatch g d a b s
  | .accFlags g d a => Sys2Proof.Machine.execAccFlags g d a s
  -- major 25 (R51)
  | .bra c off => Sys2Proof.Machine.execBra c off s
  | .bru c off => Sys2Proof.Machine.execBru c off s
  | .dvg c off => Sys2Proof.Machine.execDvg c off s
  | .cnv => Sys2Proof.Machine.execCnv s
  | .brk c => Sys2Proof.Machine.execBrk c s
  | .call c off => Sys2Proof.Machine.execCall c off s
  | .extRet => Sys2Proof.Machine.execExtRet s
  | .extExit => Sys2Proof.Machine.execExtExit s
  | .extCalli a => Sys2Proof.Machine.execExtCalli a s
  | .extJmpi a => Sys2Proof.Machine.execExtJmpi a s
  -- major 26 (R52)
  | .ovld g d a bank => Sys2Proof.Machine.execOvld g d a bank s
  | .ovwait g d a => Sys2Proof.Machine.execOvwait g d a s
  | .ifence g => Sys2Proof.Machine.execIfence g s
  | .bswap g a => Sys2Proof.Machine.execBswap g a s
  | .calt g a b => Sys2Proof.Machine.execCalt g a b s
  | .ovrel g a => Sys2Proof.Machine.execOvrel g a s
  -- major 27 (R52)
  | .lch g d a => Sys2Proof.Machine.execLch g d a s
  | .cjoin g a => Sys2Proof.Machine.execCjoin g a s
  | .lstat g d a => Sys2Proof.Machine.execLstat g d a s
  -- major 28 (R53)
  | .tgOpen g h => Sys2Proof.Machine.execTgOpen g h s
  | .tstB32 g t xb vo h => Sys2Proof.Machine.execTstB32 g t xb vo h s
  | .tstB64 g t xb vo h => Sys2Proof.Machine.execTstB64 g t xb vo h s
  | .tstB128 g t xb vo h => Sys2Proof.Machine.execTstB128 g t xb vo h s
  | .tgCommit g h => Sys2Proof.Machine.execTgCommit g h s
  | .tgAbort g h => Sys2Proof.Machine.execTgAbort g h s
  | .tgWait g t h => Sys2Proof.Machine.execTgWait g t h s
  -- major 29 (R52)
  | .trap g imm => Sys2Proof.Machine.execTrap g imm s
  | .tret => Sys2Proof.Machine.execTret s
  | .brkpt g imm => Sys2Proof.Machine.execBrkpt g imm s
  | .mark g imm => Sys2Proof.Machine.execMark g imm s
  | .wptSet g a b => Sys2Proof.Machine.execWptSet g a b s
  | .wptClr g a => Sys2Proof.Machine.execWptClr g a s
  | .perfRd g d a => Sys2Proof.Machine.execPerfRd g d a s
  | .cfgRd g d a => Sys2Proof.Machine.execCfgRd g d a s
  | .cfgWr g a b => Sys2Proof.Machine.execCfgWr g a b s
  | .halt => Sys2Proof.Machine.execHalt s
  -- events
  | .illegalEncoding slot reason => Sys2Proof.Machine.execIllegalEncoding slot reason s
  | .deliveryLoadDone core sub half ok => Sys2Proof.Machine.execDeliveryLoadDone core sub half ok s
  | .parkWake uid => Sys2Proof.Machine.execParkWake uid s
  | .trkAdvanceApply uid slot => Sys2Proof.Machine.execTrkAdvanceApply uid slot s
  | .mmaComplete uid seq => Sys2Proof.Machine.execMmaComplete uid seq s
  | .accStComplete uid seq => Sys2Proof.Machine.execAccStComplete uid seq s
  | .batchComplete uid op => Sys2Proof.Machine.execBatchComplete uid op s
  | .gatherComplete uid id => Sys2Proof.Machine.execGatherComplete uid id s
  | .stampWrite uid => Sys2Proof.Machine.execStampWrite uid s
  | .cpredSegmentApply uid id k => Sys2Proof.Machine.execCpredSegmentApply uid id k s
  | .copyAbandon uid id elem part => Sys2Proof.Machine.execCopyAbandon uid id elem part s
  | .engineWatchSuspend uid kind id => Sys2Proof.Machine.execEngineWatchSuspend uid kind id s
  | .teamRetire uid => Sys2Proof.Machine.execTeamRetire uid s
  | .quantumExpiry core sub => Sys2Proof.Machine.execQuantumExpiry core sub s
  | .preemptRequest crew why => Sys2Proof.Machine.execPreemptRequest crew why s
  | .crewSaveDone crew => Sys2Proof.Machine.execCrewSaveDone crew s
  | .crewRestore crew subs => Sys2Proof.Machine.execCrewRestore crew subs s
  | .launchWindowWrite fn offset bytes => Sys2Proof.Machine.execLaunchWindowWrite fn offset bytes s
  | .launchReady launch => Sys2Proof.Machine.execLaunchReady launch s
  | .crewPlace launch core sub => Sys2Proof.Machine.execCrewPlace launch core sub s
  | .tablePlace launch board subs => Sys2Proof.Machine.execTablePlace launch board subs s
  | .entryFillDone core sub ok => Sys2Proof.Machine.execEntryFillDone core sub ok s
  | .launchComplete launch => Sys2Proof.Machine.execLaunchComplete launch s
  | .overlayLoadStart core sub half => Sys2Proof.Machine.execOverlayLoadStart core sub half s
  | .overlayLoadDone core sub half ok => Sys2Proof.Machine.execOverlayLoadDone core sub half ok s
  | .forcedReclaim core sub half => Sys2Proof.Machine.execForcedReclaim core sub half s
  | .translationDone work => Sys2Proof.Machine.execTranslationDone work s
  | .reoptSetComplete fn work => Sys2Proof.Machine.execReoptSetComplete fn work s
  | .regionRollback uid kind => Sys2Proof.Machine.execRegionRollback uid kind s
  | .prqEntryGrant => Sys2Proof.Machine.execPrqEntryGrant s
  | .prresp fn hyper value => Sys2Proof.Machine.execPrresp fn hyper value s
  | .probeReplay uid => Sys2Proof.Machine.execProbeReplay uid s
  | .prqhead fn hyper value => Sys2Proof.Machine.execPrqhead fn hyper value s
  | .prqbase fn hyper value => Sys2Proof.Machine.execPrqbase fn hyper value s
  | .inval fn value => Sys2Proof.Machine.execInval fn value s
  | .flog0 fn value => Sys2Proof.Machine.execFlog0 fn value s
  | .trhead fn value => Sys2Proof.Machine.execTrhead fn value s
  | .brdcfg board value => Sys2Proof.Machine.execBrdcfg board value s
  | .sgcfg group value => Sys2Proof.Machine.execSgcfg group value s
  | .s2base fn value => Sys2Proof.Machine.execS2base fn value s
  | .s2bound fn value => Sys2Proof.Machine.execS2bound fn value s
  | .quota fn value => Sys2Proof.Machine.execQuota fn value s
  | .vfEnable fn => Sys2Proof.Machine.execVfEnable fn s
  | .vfScrubDone fn => Sys2Proof.Machine.execVfScrubDone fn s
  | .vfReset fn => Sys2Proof.Machine.execVfReset fn s
  | .vfResetDone fn => Sys2Proof.Machine.execVfResetDone fn s
  | .vfFlr fn => Sys2Proof.Machine.execVfFlr fn s
  | .sliceExpiry board => Sys2Proof.Machine.execSliceExpiry board s
  | .sliceStart board => Sys2Proof.Machine.execSliceStart board s
  | .rate fn arb value => Sys2Proof.Machine.execRate fn arb value s
  | .bucketRefill arb inst => Sys2Proof.Machine.execBucketRefill arb inst s
  | .imgLoad fn => Sys2Proof.Machine.execImgLoad fn s
  | .imgLoadDone load => Sys2Proof.Machine.execImgLoadDone load s
  | .imgUnload fn image => Sys2Proof.Machine.execImgUnload fn image s
  | .imgUnloadDone fn => Sys2Proof.Machine.execImgUnloadDone fn s
  | .keySlotWrite slot first rest => Sys2Proof.Machine.execKeySlotWrite slot first rest s
  | .powerOn => Sys2Proof.Machine.execPowerOn s
  | .bootPhaseAdvance fail => Sys2Proof.Machine.execBootPhaseAdvance fail s
  | .devrst value => Sys2Proof.Machine.execDevrst value s
  | .pcieReset => Sys2Proof.Machine.execPcieReset s
  | .getVersion transport => Sys2Proof.Machine.execGetVersion transport s
  | .getCapabilities transport version => Sys2Proof.Machine.execGetCapabilities transport version s
  | .negotiateAlgorithms transport => Sys2Proof.Machine.execNegotiateAlgorithms transport s
  | .getDigests transport => Sys2Proof.Machine.execGetDigests transport s
  | .getCertificate transport slot => Sys2Proof.Machine.execGetCertificate transport slot s
  | .challenge transport nonce => Sys2Proof.Machine.execChallenge transport nonce s
  | .getMeasurements transport index nonce => Sys2Proof.Machine.execGetMeasurements transport index nonce s
  | .spdmUnsupportedRequest transport => Sys2Proof.Machine.execSpdmUnsupportedRequest transport s
  | .mctpControl command arg => Sys2Proof.Machine.execMctpControl command arg s
  | .pldmMonitoring sensor cap => Sys2Proof.Machine.execPldmMonitoring sensor cap s
  | .pldmFirmwareUpdate => Sys2Proof.Machine.execPldmFirmwareUpdate s
  | .vendorResetMessage => Sys2Proof.Machine.execVendorResetMessage s
  | .ckptSave => Sys2Proof.Machine.execCkptSave s
  | .ckptRestore => Sys2Proof.Machine.execCkptRestore s
  | .ckptDone err => Sys2Proof.Machine.execCkptDone err s
  | .errorDetect unit num cls place => Sys2Proof.Machine.execErrorDetect unit num cls place s
  | .selfTestDone unit num lasting share => Sys2Proof.Machine.execSelfTestDone unit num lasting share s
  | .errcnt value => Sys2Proof.Machine.execErrcnt value s
  | .l2Writeback granule => Sys2Proof.Machine.execL2Writeback granule s
  | .reencryptDone level num => Sys2Proof.Machine.execReencryptDone level num s
  | .fabid value => Sys2Proof.Machine.execFabid value s
  | .planemap value => Sys2Proof.Machine.execPlanemap value s
  | .planemapApply => Sys2Proof.Machine.execPlanemapApply s
  | .linkEnable link value => Sys2Proof.Machine.execLinkEnable link value s
  | .linkUp link nodes => Sys2Proof.Machine.execLinkUp link nodes s
  | .linkDown link => Sys2Proof.Machine.execLinkDown link s
  | .flitReceive link flit room => Sys2Proof.Machine.execFlitReceive link flit room s
  | .nackReceive link seq => Sys2Proof.Machine.execNackReceive link seq s
  | .planeWaitTimeout id => Sys2Proof.Machine.execPlaneWaitTimeout id s
  | .fabricRequestReceive port fn id raddr op release => Sys2Proof.Machine.execFabricRequestReceive port fn id raddr op release s
  | .fabricResponseReceive id answer => Sys2Proof.Machine.execFabricResponseReceive id answer s
  | .fabricReleasePerform node id => Sys2Proof.Machine.execFabricReleasePerform node id s
  | .releaseCountTimeout node id => Sys2Proof.Machine.execReleaseCountTimeout node id s
  | .streamReset fn node base => Sys2Proof.Machine.execStreamReset fn node base s
  | .stgq fn value => Sys2Proof.Machine.execStgq fn value s
  | .stagedStoreReceive gid src raddr data => Sys2Proof.Machine.execStagedStoreReceive gid src raddr data s
  | .prepare gid src count dests => Sys2Proof.Machine.execPrepare gid src count dests s
  | .ready gid src => Sys2Proof.Machine.execReady gid src s
  | .refuse gid src reason => Sys2Proof.Machine.execRefuse gid src reason s
  | .commit gid => Sys2Proof.Machine.execCommit gid s
  | .abort gid => Sys2Proof.Machine.execAbort gid s
  | .acknowledge gid src reset => Sys2Proof.Machine.execAcknowledge gid src reset s
  | .forget gid => Sys2Proof.Machine.execForget gid s
  | .query gid src => Sys2Proof.Machine.execQuery gid src s
  | .queryAnswer gid src committed => Sys2Proof.Machine.execQueryAnswer gid src committed s
  | .tgresolve value => Sys2Proof.Machine.execTgresolve value s
  | .nodeLost node => Sys2Proof.Machine.execNodeLost node s
  | .peerFetchRequest node fn imgid split xver domain => Sys2Proof.Machine.execPeerFetchRequest node fn imgid split xver domain s
  | .peerFetchReceive fn node imgid split xver domain sent => Sys2Proof.Machine.execPeerFetchReceive fn node imgid split xver domain sent s
  | .configRegisterWrite a value => Sys2Proof.Machine.execConfigRegisterWrite a value s
  | .peerFetchTimeout set => Sys2Proof.Machine.execPeerFetchTimeout set s

end Sys2Proof.Machine
end

