-- ==== Sys2Proof/Machine/World.lean ====
section
/-! DEFINITION. What happens beside the events of the opcode table: host accesses of the BARs and of host memory, MSI-X masks, the
I3C address, and the times at which engine operations read (R301, R305, R312, R413, R414, R422). -/

namespace Sys2Proof.Machine

/-! ### BARs (R413) -/

/-- What an access of a BAR reaches. -/
inductive BarTarget where
  | config (a : CfgAccess)
  | launch (fn offset : Nat)
deriving DecidableEq, Repr

/-- A configuration window of 64 KiB, or of 256 KiB for window 0, or a launch window, among the bytes that a BAR spans. -/
def barTarget (fn bar offset : Nat) : Option BarTarget :=
  if fn = 0 then
    match bar with
    | 0 => if offset < 2 ^ 18 then some (.config { atH := true, window := 0, offset := offset }) else none
    | 2 => if offset < 2 ^ 12 then some (.launch 0 offset) else none
    | 4 =>
      if 1 ≤ offset / 2 ^ 16 ∧ offset < 2 ^ 21 then
        some (.config { atH := true, window := offset / 2 ^ 16, offset := offset % 2 ^ 16 })
      else none
    | _ => none
  else if fn < 32 then
    match bar with
    | 0 => if offset < 2 ^ 16 then some (.config { atH := false, window := fn, offset := offset }) else none
    | 2 => if offset < 2 ^ 12 then some (.launch fn offset) else none
    | _ => none
  else none

/-- What a host read of `size` bytes delivers: 8 bytes, aligned to 8, of a register; any other access reads zero. -/
def State.barValue (s : State) (fn bar offset size : Nat) : Word64 :=
  if size ≠ 8 ∨ offset % 8 ≠ 0 then 0
  else
    match barTarget fn bar offset with
    | some (.config a) => s.cfgRead a.atH none a.window a.offset
    | some (.launch v off) => if s.dev.phase = 15 then 0 else s.windowRead v off
    | none => 0

/-- A host write of a BAR: a configuration register takes 8 bytes, aligned to 8; a launch window its packets. -/
def State.barWrite (s : State) (fn bar offset : Nat) (bytes : List Byte) : State :=
  match barTarget fn bar offset with
  | some (.config a) =>
    if bytes.length = 8 ∧ offset % 8 = 0 then s.cfgWrite a.atH a.window a.offset (BitVec.ofNat 64 (leNat bytes)) else s
  | some (.launch v off) => s.hostActs fun s => s.windowWrite v off bytes
  | none => s

/-! ### When an engine operation reads (R189, R264, R312) -/

/-- An operation reads some of its sources as they stand now. -/
def resnapUnits (crew : Nat) : List (Place × Nat) → SourceSnap × State → SourceSnap × State
  | [], x => x
  | (p, n) :: l, (sn, s) =>
    let (b, s1) := s.takeBool
    resnapUnits crew l (if b then s1.resnap crew sn p n else (sn, s1))

/-- The bytes of a range as units of which each is read at one time: its elements, or pairs of Pip4, and its scales (R189). -/
def RangeObj.units (r : RangeObj) (crew : Nat) : List (Place × Nat) :=
  let n := if formatBits r.format = 16 then 2 else 1
  (List.range (r.length / n)).map fun i => (.window crew (r.base + n * i), n)

/-- The units that a matrix operation reads. -/
def MatKind.units (crew : Nat) : MatKind → List (Place × Nat)
  | .mma _ ra rb _ _ _ _ => ra.units crew ++ rb.units crew
  | .accSt .. => []

/-- An engine operation reads at this time such of its sources as it chooses: elements of a copy, fill or gather, or of the operand
ranges of a matrix operation. -/
def State.engineRead (s : State) (uid : Nat) (op : EngRef) : State :=
  match s.engineTeam uid with
  | none => s
  | some t =>
    match op with
    | .copy id =>
      match List.find? (fun o : CopyOp => o.id == id) t.eng.flying with
      | none => s
      | some o =>
        let src := (o.elems.map (·.1)).filter fun p => !p.remote
        let (sn, s1) := resnapUnits t.crew (src.map fun p => (p, o.desc.elem)) (o.snap, s)
        s1.modTeam uid fun t => { t with eng := t.eng.modCopy id fun o => { o with snap := sn } }
    | .matrix seq =>
      match List.find? (fun m : MatOp => m.seq == seq) t.eng.mats with
      | some m =>
        let (sn, s1) := resnapUnits t.crew (m.kind.units t.crew) (m.snap, s)
        s1.modTeam uid fun t => { t with eng := t.eng.modMat seq fun m => { m with snap := sn } }
      | none => s
    | .stamp _ => s

/-! ### All of them -/

/-- What the world beside the opcode table brings. -/
def State.worldAct (s : State) : WorldAct → State
  | .barRead fn bar offset size => s.emit (.barData fn bar offset (s.barValue fn bar offset size))
  | .barWrite fn bar offset bytes => s.barWrite fn bar offset bytes
  | .store addr bytes => s.writeBytes (.host addr) bytes
  | .load addr n =>
    let (l, s1) := s.loadBytes (.host addr) n
    s1.emit (.hostData addr l)
  | .maskVector fn vector on => s.maskVector fn vector on
  | .takeFirmware update => { s with dev := { s.dev with received := some update } }
  | .assignAddress addr => { s with dev := { s.dev with i3cAddr := some addr } }
  | .breakBefore uid lane =>
    s.modTeam uid fun t => { t with ctl := { t.ctl with breaks := lane :: t.ctl.breaks.filter (· != lane) } }
  | .engineRead uid op => s.engineRead uid op

end Sys2Proof.Machine
end

