-- ==== Sys2Proof/Machine/Step.lean ====
section
/-! DEFINITION. One step of the package, and the state whose next step runs a given word. -/

namespace Sys2Proof.Machine

/-- A sub-core issues: the instruction that its selected context fetches is performed, or nothing is (R261). -/
noncomputable def State.issueStep (s : State) (p : Nat × Nat) : Out :=
  match (s.safePointAt p).issue p with
  | (s1, some i) => exec i s1
  | (s1, none) => .next s1

/-- What the agenda brings next, or, when it is empty, an issue at `focus` (log entry 2). -/
noncomputable def State.act (s : State) : Out :=
  match s.agenda with
  | [] => s.issueStep s.focus
  | .issue core sub :: l => { s with agenda := l }.issueStep (core, sub)
  | .event i :: l => exec i { s with agenda := l, self := none }
  | .message m :: l => .next ({ s with agenda := l }.deliverMessage m)
  | .world a :: l => .next ({ s with agenda := l }.worldAct a)

/-- One step: what is due happens, and the selectors of the sub-cores follow (R261). -/
noncomputable def step (s : State) : Host.Outcome State Fault Refusal := reselected s.act

/-- The state whose next step fetches and runs the word `w` of `nbits` bits (log entry 3). -/
def State.withFetchWord (s : State) (nbits w : Nat) : State := s.loadWord (w % 2 ^ nbits % 2 ^ 32)

end Sys2Proof.Machine
end

