-- ==== Sys2Proof/Safety.lean ====
section
/-! DEFINITION. The terms in which the statements are made: who issues, what an instruction leaves as it was, and what a
safe state is. -/

namespace Sys2Proof.Machine

/-- Team `t`, of number `uid`, is the one whose slot is being performed. -/
def Issuing (s : State) (uid : Nat) (t : Team) : Prop := s.self = some uid ∧ Tbl.find? s.teams uid = some t

/-- Lane `l` is one of the lanes in which a slot with this guard is performed: active() of R14. -/
def Team.performs (t : Team) (g : Option Guard) (l : Nat) : Prop := l < t.nlane ∧ Mask.has (t.lanes g) l = true

/-- The state after a slot that only changes its team's registers and then goes to the next slot. -/
def afterRegs (s : State) (uid : Nat) (t : Team) (r : Regs) : State := s.putTeam uid { t with regs := r }.advance

/-- `r` is `old` but for flags that the performed lanes raised (R93, R94). -/
def RaisesLanes (t : Team) (g : Option Guard) (flag : Nat → Flags) (r : Regs) : Prop :=
  ∀ b, r.nflags.getLsbD b = true ↔ t.regs.nflags.getLsbD b = true ∨ ∃ l, t.performs g l ∧ (flag l).getLsbD b = true

/-- `r` is the team's registers but for v[d] in the performed lanes and the flags they raised. -/
structure WritesV (t : Team) (g : Option Guard) (d : Nat) (val : Nat → Word) (flag : Nat → Flags) (r : Regs) : Prop where
  written : ∀ l, l < 1024 → t.performs g l → r.v d l = val l
  kept : ∀ n l, l < 1024 → ¬ (n = d ∧ t.performs g l) → r.v n l = t.regs.v n l
  flags : RaisesLanes t g flag r
  rest : { r with vt := t.regs.vt, nflags := t.regs.nflags } = t.regs

/-- As `WritesV`, for w[d]. -/
structure WritesW (t : Team) (g : Option Guard) (d : Nat) (val : Nat → Word64) (r : Regs) : Prop where
  written : ∀ l, l < 1024 → t.performs g l → r.w d l = val l
  kept : ∀ n l, l < 1024 → ¬ (n = d ∧ t.performs g l) → r.w n l = t.regs.w n l
  rest : { r with wt := t.regs.wt } = t.regs

/-- As `WritesV`, for p[d]; p0 keeps reading true (R22). -/
structure WritesP (t : Team) (g : Option Guard) (d : Nat) (val : Nat → Bool) (flag : Nat → Flags) (r : Regs) : Prop where
  written : d ≠ 0 → ∀ l, l < 1024 → t.performs g l → Mask.has (r.p d) l = val l
  kept : ∀ n l, l < t.nlane → l < 1024 → ¬ (n = d ∧ t.performs g l) → Mask.has (r.p n) l = Mask.has (t.regs.p n) l
  hardwired : r.p 0 = BitVec.allOnes 1024
  flags : RaisesLanes t g flag r
  rest : { r with pt := t.regs.pt, nflags := t.regs.nflags } = t.regs

/-- `r` is the team's registers but for s[d]. -/
structure WritesS (old : Regs) (d : Nat) (val : Word) (r : Regs) : Prop where
  written : r.s d = val
  kept : ∀ n, n ≠ d → r.s n = old.s n
  rest : { r with st := old.st } = old

/-- `r` is the team's registers but for x[d]. -/
structure WritesX (old : Regs) (d : Nat) (val : Word64) (r : Regs) : Prop where
  written : r.x d = val
  kept : ∀ n, n ≠ d → r.x n = old.x n
  rest : { r with xt := old.xt } = old

/-- `r` is the team's registers but for q[d]; q0 keeps reading true (R22). -/
structure WritesQ (old : Regs) (d : Nat) (val : Bool) (r : Regs) : Prop where
  written : d ≠ 0 → r.q d = val
  kept : ∀ n, n ≠ d → r.q n = old.q n
  hardwired : r.q 0 = true
  rest : { r with qs := old.qs } = old

/-- A lane instruction that writes v[d] in each performed lane, raises the lanes' flags, and does nothing else but go to the
next slot; it completes whatever the state and operands. -/
def LaneV (i : Instr) (g : Option Guard) (d : Nat) (val : Regs → Nat → Word) (flag : Regs → Nat → Flags := fun _ _ => 0) : Prop :=
  ∀ s uid t, Issuing s uid t → ∃ r, WritesV t g d (val t.regs) (flag t.regs) r ∧ exec i s = .next (afterRegs s uid t r)

/-- As `LaneV`, with the result and the flags of a lane given together. -/
def LaneVF (i : Instr) (g : Option Guard) (d : Nat) (val : Regs → Nat → Word × Flags) : Prop :=
  LaneV i g d (fun r l => (val r l).1) (fun r l => (val r l).2)

/-- As `LaneV`, for an instruction whose result and flags depend on the team's lanes. -/
def TeamV (i : Instr) (g : Option Guard) (d : Nat) (val : Team → Nat → Word) (flag : Team → Nat → Flags := fun _ _ => 0) : Prop :=
  ∀ s uid t, Issuing s uid t → ∃ r, WritesV t g d (val t) (flag t) r ∧ exec i s = .next (afterRegs s uid t r)

/-- As `LaneV`, for w[d]. -/
def LaneW (i : Instr) (g : Option Guard) (d : Nat) (val : Regs → Nat → Word64) : Prop :=
  ∀ s uid t, Issuing s uid t → ∃ r, WritesW t g d (val t.regs) r ∧ exec i s = .next (afterRegs s uid t r)

/-- As `LaneV`, for p[d]. -/
def LaneP (i : Instr) (g : Option Guard) (d : Nat) (val : Regs → Nat → Bool) (flag : Regs → Nat → Flags := fun _ _ => 0) : Prop :=
  ∀ s uid t, Issuing s uid t → ∃ r, WritesP t g d (val t.regs) (flag t.regs) r ∧ exec i s = .next (afterRegs s uid t r)

/-- A uniform instruction that writes s[d]; with a false guard it only goes to the next slot (R31). -/
def UniS (i : Instr) (g : Option Guard) (d : Nat) (val : Regs → Word) : Prop :=
  ∀ s uid t, Issuing s uid t → ∃ r, exec i s = .next (afterRegs s uid t r) ∧
    (guardHolds t.regs g = true → WritesS t.regs d (val t.regs) r) ∧ (guardHolds t.regs g = false → r = t.regs)

/-- As `UniS`, for x[d]. -/
def UniX (i : Instr) (g : Option Guard) (d : Nat) (val : Regs → Word64) : Prop :=
  ∀ s uid t, Issuing s uid t → ∃ r, exec i s = .next (afterRegs s uid t r) ∧
    (guardHolds t.regs g = true → WritesX t.regs d (val t.regs) r) ∧ (guardHolds t.regs g = false → r = t.regs)

/-- As `UniS`, for q[d], a register of the encoding's range. -/
def UniQ (i : Instr) (g : Option Guard) (d : Nat) (val : Regs → Bool) : Prop :=
  d < 8 → ∀ s uid t, Issuing s uid t → ∃ r, exec i s = .next (afterRegs s uid t r) ∧
    (guardHolds t.regs g = true → WritesQ t.regs d (val t.regs) r) ∧ (guardHolds t.regs g = false → r = t.regs)

/-- No lane performs the slot: active() is empty. -/
def Team.performsNone (t : Team) (g : Option Guard) : Prop := ∀ l, ¬ t.performs g l

/-- Lane `l` is the lowest that performs the slot. -/
def Team.lowest (t : Team) (g : Option Guard) (l : Nat) : Prop := t.performs g l ∧ ∀ k, k < l → ¬ t.performs g k

/-- The lanes that perform a slot, rising. -/
def Team.performers (t : Team) (g : Option Guard) : List Nat := (List.range t.nlane).filter fun l => Mask.has (t.lanes g) l

/-- A lane instruction with a uniform destination: it changes no register when active() is empty (R101), and otherwise writes
its one register; it completes whatever the state and operands. -/
def TeamUni (i : Instr) (g : Option Guard) (writes : Team → Regs → Prop) : Prop :=
  ∀ s uid t, Issuing s uid t → ∃ r, exec i s = .next (afterRegs s uid t r) ∧
    (t.performsNone g → r = t.regs) ∧ (¬ t.performsNone g → writes t r)

/-- A conversion with a rounding literal: as `WritesV`, and under sr the generator of every performed lane, and of no other,
takes one step (R92). -/
structure WritesCvt (t : Team) (g : Option Guard) (d : Nat) (rnd : Rnd) (val : Nat → Word) (flag : Nat → Flags) (r : Regs) :
    Prop where
  written : ∀ l, l < 1024 → t.performs g l → r.v d l = val l
  kept : ∀ n l, l < 1024 → ¬ (n = d ∧ t.performs g l) → r.v n l = t.regs.v n l
  flags : RaisesLanes t g flag r
  drawn : ∀ l, rnd = .sr → t.performs g l → r.sr l = srStore (srNext (t.regs.sr l))
  undrawn : ∀ l, ¬ (rnd = .sr ∧ t.performs g l) → r.sr l = t.regs.sr l
  rest : { r with vt := t.regs.vt, nflags := t.regs.nflags, srt := t.regs.srt } = t.regs

/-- A conversion completes whatever the state and operands. -/
def TeamCvt (i : Instr) (g : Option Guard) (d : Nat) (rnd : Rnd) (val : Team → Nat → Word × Flags) : Prop :=
  ∀ s uid t, Issuing s uid t → ∃ r, WritesCvt t g d rnd (fun l => (val t l).1) (fun l => (val t l).2) r ∧
    exec i s = .next (afterRegs s uid t r)

/-! ### Numbers (R80, R81, R87, R89) -/

/-- The number that the bits of a finite f32 stand for (R80). -/
def f32Num (b : Nat) : Option ℚ :=
  let e : Nat := b / 2 ^ 23 % 2 ^ 8
  let m : Nat := b % 2 ^ 23
  let mag : ℚ := if e = 0 then m * 2 ^ (-149 : Int) else (m + 2 ^ 23) * 2 ^ ((e : Int) - 150)
  if e = 255 then none else some (if b / 2 ^ 31 % 2 = 1 then -mag else mag)

/-- The bits of an f32 are a NaN's, or a signalling NaN's (R81). -/
def f32Nan (b : Nat) : Prop := 0x7F800000 < b % 2 ^ 31
/-- The bits of an f32 are a signalling NaN's (R81). -/
def f32Snan (b : Nat) : Prop := f32Nan b ∧ b % 2 ^ 23 < 2 ^ 22

/-- `r` is the f32 to which the exact number `x` rounds under RNE, with its flags (R87, R89): its magnitude is the multiple of the
unit in the last place of `x` that is nearest to `x`, the even one on a tie; from half a unit past the largest finite value on it
is infinite. NX is raised when it differs from `x`, UF when it also rounds below the smallest normal value, OF with NX when it is
infinite, and nothing else. -/
structure RoundsF32 (x : ℚ) (r : Rounded) : Prop where
  finite : |x| < (2 ^ 25 - 1) * 2 ^ 103 → ∃ (q : Nat) (t : Int) (y : ℚ),
    (-149 ≤ t ∧ |x| < 2 ^ (t + 24) ∧ (t = -149 ∨ 2 ^ (t + 23) ≤ |x|)) ∧
    |(|x| - q * 2 ^ t)| ≤ 2 ^ (t - 1) ∧ (|(|x| - q * 2 ^ t)| = 2 ^ (t - 1) → q % 2 = 0) ∧
    f32Num r.bits = some y ∧ |y| = q * 2 ^ t ∧ r.bits < 2 ^ 32 ∧ (x ≠ 0 → (2 ^ 31 ≤ r.bits ↔ x < 0)) ∧
    (∀ i, r.flags.getLsbD i = true ↔ y ≠ x ∧ (i = 4 ∨ (i = 3 ∧ |x| < 2 ^ (-126 : Int) - 2 ^ (-151 : Int))))
  overflow : (2 ^ 25 - 1) * 2 ^ 103 ≤ |x| →
    r.bits = (if x < 0 then 0xFF800000 else 0x7F800000) ∧ r.flags = flagOF ||| flagNX

/-! ### Memory -/

/-- A byte of storage of the package. -/
inductive Cell where
  | scratch (crew off : Nat)
  | window (crew off : Nat)
  | device (key : Nat)
  | host (a : Nat)
deriving DecidableEq, Repr

/-- The byte of storage that a place names, none for a byte of another node or one that nothing backs. -/
def State.cell (s : State) : Place → Option Cell
  | .scratch c o => if (Tbl.find? s.crews c).isSome then some (.scratch c o) else none
  | .window c o => if (Tbl.find? s.crews c).isSome then some (.window c o) else none
  | .gpa f a => (s.stage2 f a).map Cell.device
  | .host a => some (.host a)
  | .fabric _ _ => none

/-- A place lies in the record of an open track, whose bytes are unspecified once software has overwritten them (R183). -/
def State.inRecord (s : State) (p : Place) : Prop :=
  ∃ c o cr e k, p = .scratch c o ∧ Tbl.find? s.crews c = some cr ∧ e ∈ cr.tracks ∧ e.2.obj = some k ∧
    k.addr.toNat - scrBase ≤ o ∧ o < k.addr.toNat - scrBase + 16

/-- The access that lane `l` of a load, store or atomic makes (R26, R143). -/
def laneAccess (t : Team) (xb vo : Nat) (disp : Word) (log2 : Nat) (rd wr : Bool) (l : Nat) : Access :=
  { addr := t.ea xb vo disp (2 ^ log2) l, size := 2 ^ log2, log2 := log2, rd := rd, wr := wr, lane := l }

/-- The access that a uniform load or store makes (R150). -/
def uniMemAccess (t : Team) (xb : Nat) (disp : Word) (log2 : Nat) (rd wr : Bool) : Access :=
  { addr := t.eaUni xb disp (2 ^ log2), size := 2 ^ log2, log2 := log2, rd := rd, wr := wr, uni := true }

/-- An access passes the checks of R146 and acts on `p`, in this package, whose slice group no test and whose channel or host link
no arbiter withholds (R392, R409); a write beyond the scratchpad follows no fence whose fabric writes are outstanding (R307). -/
structure Acts (s : State) (t : Team) (x : Access) (p : Place) : Prop where
  checked : s.checkAccess t x = .ok p
  here : p.remote = false
  plain : inFabric x.addr = false
  serves : s.placeWaits (s.fnOf t) p = false
  unfenced : x.wr = true → p.inScratch = false → t.fenced = false

/-- An access acts on `p`, and what it reads there is determined: no destination of a copy in flight (R282), no overwritten record
of a track (R183). -/
structure Reaches (s : State) (t : Team) (x : Access) (p : Place) : Prop extends Acts s t x p where
  settled : x.rd = true → ∀ i, i < x.size → s.inFlight (p.add i) = false

/-- No answer of another node waits for the team, and none is asked for; its access has not begun, and nothing comes between its
lanes (R153). -/
structure Unasked (s : State) (uid : Nat) (t : Team) : Prop where
  answers : t.link.answers = []
  unasked : ∀ l, s.asked uid l = false
  unbegun : t.ctl.under = none
  unbroken : t.ctl.breaks = []

/-- A team with some lanes alone active. -/
def Team.only (t : Team) (m : Mask) : Team := { t with ctl := { t.ctl with active := t.ctl.active &&& m } }

/-- A team with the lanes taken away that a tret has it skip (R158). -/
def Team.left (t : Team) : Team := t.only (~~~t.ctl.skip)

/-- Nothing of an earlier performance of the slot is left: no lane is to be skipped, no barrier arrival stands, no answer of
another node waits, and none is asked for. -/
structure Fresh (s : State) (uid : Nat) (t : Team) : Prop extends Unasked s uid t where
  skip : t.ctl.skip = 0
  arrived : t.ctl.arrived = false

/-- `r` is the team's registers but for v[d] to v[d + 3] in the performed lanes, which hold a 128-bit value each. -/
structure WritesQuad (t : Team) (g : Option Guard) (d : Nat) (val : Nat → Nat) (r : Regs) : Prop where
  written : ∀ k l, k < 4 → l < 1024 → t.performs g l → r.v (d + k) l = BitVec.ofNat 32 (val l / 2 ^ (32 * k))
  kept : ∀ n l, l < 1024 → ¬ (d ≤ n ∧ n < d + 4 ∧ t.performs g l) → r.v n l = t.regs.v n l
  rest : { r with vt := t.regs.vt } = t.regs

/-- A lane's read obtains a value: from the bytes here, or from the answer of the node that it asked. -/
def Obtains (s : State) (uid : Nat) (t : Team) (x : Access) (v : Nat) : Prop :=
  (∃ b, t.answer x.lane = some (.data b) ∧ v = leNat b) ∨
    (t.answer x.lane = none ∧ s.asked uid x.lane = false ∧ ∃ p, Reaches s t x p ∧ v = s.readNat p x.size)

/-- A team after an access: its answers are forgotten, one that began with a lane at a fabric address is counted (R165), and the
next slot follows. -/
def Team.ended (t : Team) : Team :=
  let u : Team := { t with link := { t.link with answers := [] } }
  match t.ctl.under with
  | some (op, true) => (u.countFabric op).advance
  | _ => u.advance

/-- A lane load, performed in the lanes that no tret has it skip: when every performed lane obtains its value, the load
completes, `result` says what it leaves in the registers, and no byte of memory and nothing else changes. -/
def LaneLoad (i : Instr) (g : Option Guard) (xb vo : Nat) (disp : Word) (log2 : Nat)
    (result : Team → (Nat → Nat) → Regs → Prop) : Prop :=
  ∀ s uid t (val : Nat → Nat), Issuing s uid t → t.ctl.breaks = [] →
    (t.ctl.under = none → ∀ l, t.left.performs g l → inFabric (t.ea xb vo disp (2 ^ log2) l) = false) →
    (∀ l, t.left.performs g l → Obtains s uid t (laneAccess t xb vo disp log2 true false l) (val l)) →
    ∃ r, result t.left val r ∧ exec i s = .next (s.putTeam uid ({ t with regs := r } : Team).ended)

/-- A uniform load: under a true guard it obtains its one value, under a false one it only goes to the next slot. -/
def UniLoad (i : Instr) (g : Option Guard) (xb : Nat) (disp : Word) (log2 : Nat) (result : Regs → Nat → Regs → Prop) : Prop :=
  ∀ s uid t v, Issuing s uid t → t.ctl.breaks = [] →
    (guardHolds t.regs g = true → (t.ctl.under.map Prod.snd).getD false = inFabric (t.eaUni xb disp (2 ^ log2)) →
      Obtains s uid t (uniMemAccess t xb disp log2 true false) v →
      ∃ r, result t.regs v r ∧ exec i s = .next (s.putTeam uid ({ t with regs := r } : Team).ended)) ∧
    (guardHolds t.regs g = false → exec i s = .next (afterRegs s uid t t.regs))

/-- The state in which a team waits, at its instruction, for another node: `op` has been asked of the node and address for one of
its lanes, under the number of the access; no byte of memory here, and of the team nothing else, is touched. -/
structure Waits (s : State) (uid : Nat) (t : Team) (node raddr lane : Nat) (op : RemoteOp) (release : Bool) (done : Mask)
    (s' : State) : Prop where
  state : s' = ((s.accessOp t true).2.request (s.fnOf t) uid node raddr op (.access lane) release).modTeam uid
    fun t => t.waitsAt (s.accessOp t true).1 done
  memory : ∀ q, s'.byteAt q = s.byteAt q
  team : Tbl.find? s'.teams uid = some (t.waitsAt (s.accessOp t true).1 done)

/-- An access that begins at a fabric address passes its checks and names bytes of another node; the fabric counter has room. -/
structure Asks (s : State) (uid : Nat) (t : Team) (x : Access) (node raddr : Nat) : Prop extends Unasked s uid t where
  checked : s.checkAccess t x = .ok (.fabric node raddr)
  far : inFabric x.addr = true
  room : t.eng.fabric.length < 8191

/-- A lane load whose first performed lane names bytes of another node asks for them, and waits (R157, R299). -/
def LaneLoadAsks (i : Instr) (g : Option Guard) (xb vo : Nat) (disp : Word) (log2 : Nat) : Prop :=
  ∀ s uid t l node raddr, Issuing s uid t → t.left.lowest g l → Asks s uid t (laneAccess t xb vo disp log2 true false l) node raddr →
    ∃ s', exec i s = .next s' ∧ Waits s uid t node raddr l (.load (2 ^ log2)) false t.ctl.skip s'

/-- One lane of a store at its place: here, or by a request under the number of the access that the team does not wait for. Where
a lower lane names the same address, a free value says whether this lane's value stands (R149). -/
def storeLane (uid op addr log2 : Nat) (p : Place) (again : Bool) (v : Nat) (s : State) : State :=
  let x := if again then s.takeBool else (true, s)
  if x.1 = true then
    match p with
    | .fabric n r =>
      ((x.2.request (x.2.fnOf (x.2.teamD uid)) uid n r (.store (leBytes (2 ^ log2) v)) (.write op (BitVec.ofNat 64 addr) log2)
        (x.2.teamD uid).released).modTeam uid fun t => t.addFabric op)
    | p => x.2.writeNat p (2 ^ log2) v
  else x.2

/-- A write passes its checks: its bytes are here and nothing withholds them, or they are another node's. -/
def Lands (s : State) (t : Team) (x : Access) (p : Place) : Prop :=
  Acts s t x p ∨ (s.checkAccess t x = .ok p ∧ p.remote = true ∧ inFabric x.addr = true)

/-- The fabric operations that a team's release fence names have been issued. -/
def Team.fenceOk (t : Team) : Bool := t.link.fence.all fun n => decide (n ≤ t.eng.fabIssued)

/-- A store that begins has no fabric lane, or the fabric counter has room for it; after a release fence no failure of a fabric
write stands recorded (R165, R437, R438). -/
def MayStore (t : Team) (fabric : Bool) : Prop :=
  t.ctl.under = none ∧ t.ctl.breaks = [] ∧
    (fabric = true → t.eng.fabric.length < 8191 ∧ t.fenceOk = true ∧ (t.released = true → t.link.fabricFault = none))

/-- A lane store, performed in the lanes that no tret has it skip: when every performed lane's write lands, the store completes,
each lane's value written at the place its address leads to or sent there, and every other byte of memory as it was; where several
lanes name one address here, the bytes hold one of their values (R149). -/
def LaneStore (i : Instr) (g : Option Guard) (xb vo : Nat) (disp : Word) (log2 : Nat) (val : Regs → Nat → Nat) : Prop :=
  ∀ s uid t (pl : Nat → Place), Issuing s uid t →
    let lanes := t.left.performers g
    let ea := fun l => t.ea xb vo disp (2 ^ log2) l
    let fabric := lanes.any fun l => inFabric (ea l)
    MayStore t fabric → (∀ l, t.left.performs g l → Lands s t (laneAccess t xb vo disp log2 false true l) (pl l)) →
    let op := (s.accessOp t fabric).1
    let s' := (endAccess uid op.1 fabric (lanes.foldl (fun s l =>
      storeLane uid op.1 (ea l) log2 (pl l) (lanes.any fun k => decide (k < l) && ea k == ea l) (val t.regs l) s)
      (s.accessOp t fabric).2)).modTeam uid Team.advance
    exec i s = .next s' ∧
    (∀ q, (∀ l, t.left.performs g l → ∀ i, i < 2 ^ log2 → s.cell ((pl l).add i) = none ∨ s.cell ((pl l).add i) ≠ s.cell q) →
      s'.byteAt q = s.byteAt q) ∧
    (∃ t', Tbl.find? s'.teams uid = some t' ∧ t'.regs = t.regs ∧ t'.ctl = t.advance.ctl ∧ t'.trap = t.trap ∧
      (fabric = false → t'.eng = t.eng)) ∧
    (∀ l, t.left.performs g l →
      (∀ i j, i < 2 ^ log2 → j < 2 ^ log2 → s.cell ((pl l).add i) ≠ none ∧ (i ≠ j → s.cell ((pl l).add i) ≠ s.cell ((pl l).add j))) →
      (∀ k, t.left.performs g k → ea k ≠ ea l → ∀ i j, i < 2 ^ log2 → j < 2 ^ log2 → s.cell ((pl k).add i) ≠ s.cell ((pl l).add j)) →
      ∃ k, t.left.performs g k ∧ ea k = ea l ∧ s'.readNat (pl l) (2 ^ log2) = val t.regs k % 2 ^ (8 * 2 ^ log2))

/-- A uniform store. -/
def UniStore (i : Instr) (g : Option Guard) (xb : Nat) (disp : Word) (log2 : Nat) (val : Regs → Nat) : Prop :=
  ∀ s uid t p, Issuing s uid t →
    let addr := t.eaUni xb disp (2 ^ log2)
    let fabric := inFabric addr
    let op := (s.accessOp t fabric).1
    (guardHolds t.regs g = true → MayStore t fabric → Lands s t (uniMemAccess t xb disp log2 false true) p →
      let s' := (endAccess uid op.1 fabric (storeLane uid op.1 addr log2 p false (val t.regs) (s.accessOp t fabric).2)).modTeam uid
        Team.advance
      exec i s = .next s' ∧
      (∀ q, (∀ i, i < 2 ^ log2 → s.cell (p.add i) = none ∨ s.cell (p.add i) ≠ s.cell q) → s'.byteAt q = s.byteAt q) ∧
      ∃ t', Tbl.find? s'.teams uid = some t' ∧ t'.regs = t.regs ∧ t'.ctl = t.advance.ctl ∧ t'.trap = t.trap ∧
        (fabric = false → t'.eng = t.eng)) ∧
    (guardHolds t.regs g = false → exec i s = .next (afterRegs s uid t t.regs))

/-- One lane of an atomic: the location here takes the new value if there is one, or the node asked has answered with the old one;
the team's NFLAGS take the flags, and the destination the old value when the atomic returns it (R153). -/
def atomLane (op : AtomOp) (T : Nat) (returns : Bool) (uid : Nat) (regs : Regs) (pl : Nat → Place) (s : State) (l : Nat) : State :=
  let a := atomArg regs op T l
  let x : Nat × State :=
    match (s.teamD uid).answer l with
    | some (.data b) => (leNat b, s)
    | _ =>
      let y := if op = .stRel then (0, s) else s.loadNat (pl l) (atomSize op)
      match atomNew op (BitVec.ofNat 64 y.1) a (atomArg regs op (T + 1) l) with
      | some n => (y.1, y.2.writeNat (pl l) (atomSize op) n.toNat)
      | none => y
  x.2.modTeam uid fun t =>
    let r := t.regs.raise (atomFlags op (BitVec.ofNat 64 x.1) a)
    { t with regs := if returns = true then r.loadLane T t.nlane (atomSize op) l x.1 else r }

/-- The access that lane `l` of an atomic makes: a cas is taken as the write that it may be. -/
def atomAccessAt (op : AtomOp) (t : Team) (xb vo l : Nat) : Access :=
  laneAccess t xb vo 0 (atomSize op).log2 (op != .stRel) (atomWrites op) l

/-- A location of an atomic lies beyond the scratchpad, where its scope acts (R155, R305). -/
def Team.beyond (t : Team) (xb vo size : Nat) : Prop := ∃ l, t.performs none l ∧ inLocal (t.ea xb vo 0 size l) = false

/-- An atomic, in the active lanes that no tret has it skip: when every such lane's access acts on its bytes here, or has its answer
without a watchpoint's depending on it, and, for a release or an SC operation, no fabric write has failed or is outstanding (R155,
R311, R437, R438), the lanes' read-modify-writes are performed in rising order, each on what the lanes below it left. -/
def LaneAtomic (i : Instr) (op : AtomOp) (T xb vo : Nat) (order : Order) (scope : Scope) (sc returns : Bool) : Prop :=
  ∀ s uid t (pl : Nat → Place), Issuing s uid t → t.ctl.breaks = [] →
    (t.ctl.under = none → (∀ l, t.left.performs none l → inFabric (t.ea xb vo 0 (atomSize op) l) = false) ∧
      (scope = .fabric → (order = .release ∨ order = .acqRel ∨ sc = true) → t.beyond xb vo (atomSize op) → t.link.fabricFault = none) ∧
      (sc = true → t.fabricBusy = false)) →
    (∀ l, t.left.performs none l →
      ((∃ b, t.answer l = some (.data b)) ∧ ∀ w, (s.atomAccess op t w (t.ea xb vo 0 (atomSize op) l) l).judged = none) ∨
      (t.answer l = none ∧ s.asked uid l = false ∧ Acts s t (atomAccessAt op t xb vo l) (pl l) ∧
        (scope = .fabric → (order = .release ∨ order = .acqRel ∨ sc = true) → (pl l).inScratch = false → t.fabricBusy = false))) →
    exec i s = .next (((t.left.performers none).foldl (atomLane op T returns uid t.regs pl) s).modTeam uid Team.ended)

/-- An atomic whose first performed lane names bytes of another node asks that node to perform it, and waits; with a recorded
failure of a fabric write, or an SC operation while fabric writes are outstanding, it does not begin (R157, R311, R437). A cas that
meets a watchpoint if it writes is judged first by the value alone (R362). -/
def LaneAtomicAsks (i : Instr) (op : AtomOp) (T xb vo : Nat) (order : Order) (scope : Scope) (sc : Bool) : Prop :=
  ∀ s uid t l node raddr, Issuing s uid t → t.left.lowest none l →
    let a := atomArg t.regs op T l
    let x := s.atomAccess op t a (t.ea xb vo 0 (atomSize op) l) l
    Asks s uid t x node raddr → t.link.fabricFault = none → (sc = true → t.fabricBusy = false) →
    ∃ s', exec i s = .next s' ∧
      Waits s uid t node raddr l (if x.judged.isSome = true then .load (atomSize op) else .atom op a (atomArg t.regs op (T + 1) l))
        (decide (scope = .fabric) && (decide (order = .release) || decide (order = .acqRel) || sc) || (atomWrites op && t.released)) t.ctl.skip s'

/-- An atomic whose first performed lane meets an armed watchpoint, in an enabled direction and with no failed cas of its location
taken as a write, traps with WATCH and does nothing else (R362, R363). -/
def LaneAtomicWatched (i : Instr) (op : AtomOp) (T xb vo : Nat) (order : Order) (scope : Scope) (sc : Bool) : Prop :=
  ∀ s uid t l p n, Issuing s uid t → Unasked s uid t → t.left.lowest none l →
    let x := s.atomAccess op t (atomArg t.regs op T l) (t.ea xb vo 0 (atomSize op) l) l
    (∀ k, t.left.performs none k → inFabric (t.ea xb vo 0 (atomSize op) k) = false) → x.addr % x.size = 0 → s.resolve t x.addr x.size x.wr = .ok p → t.watchOn x = some n →
    (scope = .fabric → (order = .release ∨ order = .acqRel ∨ sc = true) → t.beyond xb vo (atomSize op) → t.link.fabricFault = none) →
    (sc = true → t.fabricBusy = false) →
    exec i s = .next (s.raise uid { x.trap .watch n 0 with done := t.ctl.skip })

/-! ### Uniform instructions on the state -/

/-- A team issues a uniform instruction for the first time, with its guard true. -/
structure Ready (s : State) (uid : Nat) (t : Team) (g : Option Guard) : Prop where
  issuing : Issuing s uid t
  fresh : Fresh s uid t
  runnable : t.status = .runnable
  holds : guardHolds t.regs g = true

/-- The uniform access of `2 ^ log2` bytes at `a` that an instruction makes itself. -/
def ownAccess (a : Word64) (log2 : Nat) (wr : Bool) : Access :=
  { addr := a.toNat, size := 2 ^ log2, log2 := log2, rd := true, wr := wr, uni := true }

/-- With a false guard an instruction only goes to the next slot (R31). -/
def Skips (i : Instr) (g : Option Guard) : Prop :=
  ∀ s uid t, Issuing s uid t → guardHolds t.regs g = false → exec i s = .next (afterRegs s uid t t.regs)

/-- The instruction completes with the stated state whenever its guard is true and the stated condition holds. -/
def Completes (i : Instr) (g : Option Guard) (when_ : State → Nat → Team → Prop) (then_ : State → Nat → Team → State) : Prop :=
  ∀ s uid t, Ready s uid t g → when_ s uid t → exec i s = .next (then_ s uid t)

/-! ### A safe state -/

/-- A crew's scratchpad and operand-buffer window have their canonical form. -/
def Crew.memOk (c : Crew) : Bool := Memory.wf c.scratch && Memory.wf c.window

/-- Every memory that the state holds has its canonical form: device and host memory, the storage of every crew, and the
copies of both that a checkpoint keeps. -/
def State.memOk (s : State) : Bool :=
  Memory.wf s.mem && Memory.wf s.host && (s.crews.all fun e => e.2.memOk) &&
    s.dev.safe.all fun e => Memory.wf e.2.mem && e.2.crews.all fun c => c.2.memOk

/-- The live and freed slots of a pool bear generations from 1 to 255 (R24). -/
def Pool.genOk {α : Type} (p : Pool α) : Bool := p.all fun e => decide (0 < e.2.gen ∧ e.2.gen < 256)

/-- A pool lists each slot once, with a generation that a handle can name. -/
def Pool.ok {α : Type} (p : Pool α) : Bool := Tbl.sortedFrom 0 p && Pool.genOk p

/-- A register file in canonical form, in which nothing stands for the hard-wired p0 and q0 (R22), and FPMODE holds its four bits
alone (R90). -/
def Regs.ok (r : Regs) : Bool :=
  Tbl.wf 0 r.vt && Tbl.wf 0 r.wt && Tbl.wf 0 r.st && Tbl.wf 0 r.xt && Tbl.wf 0 r.pt && Tbl.wf 0 r.ha && Tbl.wf 0 r.hk
    && Tbl.wf 0 r.ho && Tbl.wf 0 r.hy && Tbl.wf 0 r.hh && Tbl.sortedFrom 0 r.srt
    && (Tbl.find? r.pt 0).isNone && !r.qs.getLsbD 0 && decide (r.fpmode.toNat < 16)

/-- TCAUSE holds a code of eight bits (R345). -/
def TrapState.ok (x : TrapState) : Bool := decide (x.cause.toNat < 256)

/-- What a handler's frame saves keeps the limits of the stacks of divergence frames and of returns (R202, R203). -/
def TrapFrame.ok (f : TrapFrame) : Bool := f.trap.ok && decide (f.frames.length ≤ 32 ∧ f.returns.length ≤ 64)

/-- A team keeps the limits that the specification gives it: at most 32 divergence frames, 64 returns, and two handlers, one while a
delivery waits for its overlay (R202, R203, R343, R344); its registers and pools are as they must be, and its latest release fence
names fabric operations that it has issued (R438). -/
def Team.ok (t : Team) : Bool :=
  t.regs.ok && Pool.ok t.eng.arrays && Pool.ok t.link.tokens && Pool.ok t.link.groups
    && decide (t.ctl.frames.length ≤ 32 ∧ t.ctl.returns.length ≤ 64)
    && t.trap.last.ok && (t.trap.handlers.all TrapFrame.ok) && decide (t.trap.handlers.length ≤ 2)
    && (t.link.delivery.all fun x => x.ok && decide (t.trap.handlers.length ≤ 1)) && t.fenceOk

/-- A crew's tracks and operand ranges stand in pools as they must. -/
def Crew.poolsOk (c : Crew) : Bool := Pool.ok c.tracks && Pool.ok c.ranges

/-- Every team and crew is as it must be, and so are those that a checkpoint keeps. -/
def State.teamsOk (s : State) : Bool :=
  (s.teams.all fun e => e.2.ok) && (s.crews.all fun e => e.2.poolsOk) &&
    s.dev.safe.all fun e => (e.2.teams.all fun t => t.2.ok) && e.2.crews.all fun c => c.2.poolsOk

end Sys2Proof.Machine
end

