-- ==== Sys2Proof/Certificates/Slice0/Obligations.lean ====
section
/-! DEFINITION. The statements for the provers. -/

open Sys2Proof Sys2Proof.Machine

/-! ### Lane arithmetic (majors 0 to 11) -/

/-- The moves and the integer instructions of majors 0 to 2 (R99, R103, R107, R108): v[D] takes the stated value in every lane
of active(), the saturating four raise SAT where they clamp and the others raise nothing, every other lane and register is
unchanged, and the team goes to the next slot. -/
def Obligations.LaneIntegerResults : Prop :=
  ∀ (g : Option Guard) (d a b : Nat) (imm : Word),
    LaneV (.mov g d a) g d (fun r l => r.v a l) ∧
    LaneV (.movi g d imm) g d (fun _ _ => imm) ∧
    LaneV (.sel g d a b) g d (fun r l => if Mask.has (r.p b) l then r.v a l else r.v d l) ∧
    LaneV (.laneid g d) g d (fun _ l => BitVec.ofNat 32 l) ∧
    LaneV (.addI32 g d a b) g d (fun r l => BitVec.ofNat 32 ((r.v a l).toNat + (r.v b l).toNat)) ∧
    LaneV (.subI32 g d a b) g d (fun r l => BitVec.ofInt 32 ((r.v a l).toNat - (r.v b l).toNat)) ∧
    LaneV (.minI32 g d a b) g d (fun r l => if (r.v a l).toInt ≤ (r.v b l).toInt then r.v a l else r.v b l) ∧
    LaneV (.minN32 g d a b) g d (fun r l => if (r.v a l).toNat ≤ (r.v b l).toNat then r.v a l else r.v b l) ∧
    LaneV (.maxI32 g d a b) g d (fun r l => if (r.v a l).toInt ≤ (r.v b l).toInt then r.v b l else r.v a l) ∧
    LaneV (.maxN32 g d a b) g d (fun r l => if (r.v a l).toNat ≤ (r.v b l).toNat then r.v b l else r.v a l) ∧
    LaneV (.andB32 g d a b) g d (fun r l => r.v a l &&& r.v b l) ∧
    LaneV (.orB32 g d a b) g d (fun r l => r.v a l ||| r.v b l) ∧
    LaneV (.xorB32 g d a b) g d (fun r l => r.v a l ^^^ r.v b l) ∧
    LaneV (.andnB32 g d a b) g d (fun r l => r.v a l &&& ~~~(r.v b l)) ∧
    LaneV (.absI32 g d a) g d (fun r l => BitVec.ofNat 32 (r.v a l).toInt.natAbs) ∧
    LaneV (.negI32 g d a) g d (fun r l => BitVec.ofInt 32 (-(r.v a l).toInt)) ∧
    LaneV (.addiI32 g d a imm) g d (fun r l => BitVec.ofNat 32 ((r.v a l).toNat + imm.toNat)) ∧
    LaneV (.andiB32 g d a imm) g d (fun r l => r.v a l &&& imm) ∧
    LaneV (.oriB32 g d a imm) g d (fun r l => r.v a l ||| imm) ∧
    LaneV (.xoriB32 g d a imm) g d (fun r l => r.v a l ^^^ imm) ∧
    LaneV (.miniI32 g d a imm) g d (fun r l => if (r.v a l).toInt ≤ imm.toInt then r.v a l else imm) ∧
    LaneV (.maxiI32 g d a imm) g d (fun r l => if (r.v a l).toInt ≤ imm.toInt then imm else r.v a l) ∧
    LaneV (.addsI32 g d a b) g d
      (fun r l => BitVec.ofInt 32 (max (-2 ^ 31) (min (2 ^ 31 - 1) ((r.v a l).toInt + (r.v b l).toInt))))
      (fun r l => flagIf (decide ((r.v a l).toInt + (r.v b l).toInt < -2 ^ 31 ∨ 2 ^ 31 ≤ (r.v a l).toInt + (r.v b l).toInt))
        flagSAT) ∧
    LaneV (.subsI32 g d a b) g d
      (fun r l => BitVec.ofInt 32 (max (-2 ^ 31) (min (2 ^ 31 - 1) ((r.v a l).toInt - (r.v b l).toInt))))
      (fun r l => flagIf (decide ((r.v a l).toInt - (r.v b l).toInt < -2 ^ 31 ∨ 2 ^ 31 ≤ (r.v a l).toInt - (r.v b l).toInt))
        flagSAT) ∧
    LaneV (.addsN32 g d a b) g d
      (fun r l => BitVec.ofNat 32 (min (2 ^ 32 - 1) ((r.v a l).toNat + (r.v b l).toNat)))
      (fun r l => flagIf (decide (2 ^ 32 ≤ (r.v a l).toNat + (r.v b l).toNat)) flagSAT) ∧
    LaneV (.subsN32 g d a b) g d
      (fun r l => BitVec.ofNat 32 ((r.v a l).toNat - (r.v b l).toNat))
      (fun r l => flagIf (decide ((r.v a l).toNat < (r.v b l).toNat)) flagSAT)

/-- The shifts and bit-field instructions of major 3 (R109 to R112): a shift count is never reduced; bfe and bfi work without
width limit on the field that the descriptor names. -/
def Obligations.LaneShiftsAndFields : Prop :=
  ∀ (g : Option Guard) (d a b : Nat) (imm : Word),
    let pos : Regs → Nat → Nat := fun r l => (r.v b l).toNat % 256
    let len : Regs → Nat → Nat := fun r l => min ((r.v b l).toNat / 256 % 256) 32
    LaneV (.shlB32 g d a b) g d (fun r l => BitVec.ofNat 32 ((r.v a l).toNat * 2 ^ (r.v b l).toNat)) ∧
    LaneV (.shrN32 g d a b) g d (fun r l => BitVec.ofNat 32 ((r.v a l).toNat / 2 ^ (r.v b l).toNat)) ∧
    LaneV (.shrI32 g d a b) g d (fun r l => BitVec.ofInt 32 ((r.v a l).toInt / 2 ^ (r.v b l).toNat)) ∧
    LaneV (.shliB32 g d a imm) g d (fun r l => BitVec.ofNat 32 ((r.v a l).toNat * 2 ^ imm.toNat)) ∧
    LaneV (.shriN32 g d a imm) g d (fun r l => BitVec.ofNat 32 ((r.v a l).toNat / 2 ^ imm.toNat)) ∧
    LaneV (.shriI32 g d a imm) g d (fun r l => BitVec.ofInt 32 ((r.v a l).toInt / 2 ^ imm.toNat)) ∧
    LaneV (.bfeN32 g d a b) g d (fun r l => BitVec.ofNat 32 ((r.v a l).toNat / 2 ^ pos r l % 2 ^ len r l)) ∧
    LaneV (.bfeI32 g d a b) g d (fun r l =>
      if len r l = 0 then 0 else BitVec.ofInt 32 (Int.bmod ((r.v a l).toInt / 2 ^ pos r l) (2 ^ len r l))) ∧
    LaneV (.bfiB32 g d a b) g d (fun r l =>
      BitVec.ofNat 32 ((r.v d l).toNat % 2 ^ pos r l + 2 ^ pos r l * ((r.v a l).toNat % 2 ^ len r l) +
        (r.v d l).toNat / 2 ^ (pos r l + len r l) * 2 ^ (pos r l + len r l))) ∧
    LaneV (.popcB32 g d a) g d (fun r l => BitVec.ofNat 32 ((List.range 32).countP fun i => (r.v a l).getLsbD i)) ∧
    LaneV (.clzB32 g d a) g d (fun r l => BitVec.ofNat 32
      (((List.range 33).countP fun k => decide ((r.v a l).toNat < 2 ^ (32 - k))) - 1)) ∧
    LaneV (.brevB32 g d a) g d (fun r l => (r.v a l).reverse) ∧
    LaneV (.prmtB32 g d a b) g d (fun r l => prmt (r.v d l) (r.v a l) (r.v b l))

/-- Multiplication and division of major 4 (R113, R114): division truncates toward zero and never traps; a zero divisor gives
the stated value and raises DZ in that lane, and nothing else raises a flag. -/
def Obligations.LaneMultiplyDivide : Prop :=
  ∀ (g : Option Guard) (d a b : Nat),
    let dz : Regs → Nat → Flags := fun r l => flagIf (decide (r.v b l = 0)) flagDZ
    LaneV (.mulI32 g d a b) g d (fun r l => BitVec.ofInt 32 ((r.v a l).toInt * (r.v b l).toInt)) ∧
    LaneV (.mulhiI32 g d a b) g d (fun r l => BitVec.ofInt 32 ((r.v a l).toInt * (r.v b l).toInt / 2 ^ 32)) ∧
    LaneV (.mulhiN32 g d a b) g d (fun r l => BitVec.ofNat 32 ((r.v a l).toNat * (r.v b l).toNat / 2 ^ 32)) ∧
    LaneV (.madI32 g d a b) g d
      (fun r l => BitVec.ofInt 32 ((r.v a l).toInt * (r.v b l).toInt + (r.v d l).toInt)) ∧
    LaneV (.divI32 g d a b) g d (fun r l =>
      if r.v b l = 0 then 0xFFFFFFFF else BitVec.ofInt 32 ((r.v a l).toInt.tdiv (r.v b l).toInt)) dz ∧
    LaneV (.divN32 g d a b) g d (fun r l =>
      if r.v b l = 0 then 0xFFFFFFFF else BitVec.ofNat 32 ((r.v a l).toNat / (r.v b l).toNat)) dz ∧
    LaneV (.remI32 g d a b) g d (fun r l =>
      if r.v b l = 0 then r.v a l else BitVec.ofInt 32 ((r.v a l).toInt.tmod (r.v b l).toInt)) dz ∧
    LaneV (.remN32 g d a b) g d (fun r l =>
      if r.v b l = 0 then r.v a l else BitVec.ofNat 32 ((r.v a l).toNat % (r.v b l).toNat)) dz

/-- The floating-point instructions of majors 5 to 7 (R122 to R130): each lane of active() receives the model's rounded
result of its own operands under FPMODE and the team's NFLAGS collects the flags of those lanes; fabs and fneg change the
sign bit alone and raise nothing; nothing else changes. And what that result is in f32 (R87, R89, R123, R124): with FPMODE 0 the
exact sum, difference, product, or product and sum of finite operands, rounded once to nearest even, with the flags of R89; a zero
sum is +0 but for two zeros of negative sign; a NaN operand gives the canonical NaN, with IV when it is signalling; ∞ − ∞ and 0 × ∞
give it with IV. -/
def Obligations.LaneFloatResults : Prop :=
  (∀ (u v w : Nat) (x y z : ℚ), u < 2 ^ 32 → v < 2 ^ 32 → w < 2 ^ 32 → f32Num u = some x → f32Num v = some y → f32Num w = some z →
    RoundsF32 (x + y) (fadd .f32 {} u v) ∧ RoundsF32 (x - y) (fsub .f32 {} u v) ∧ RoundsF32 (x * y) (fmul .f32 {} u v) ∧
    RoundsF32 (x * y + z) (ffma .f32 {} u v w) ∧
    (x + y = 0 → (fadd .f32 {} u v).bits = if u = 2 ^ 31 ∧ v = 2 ^ 31 then 2 ^ 31 else 0) ∧
    (x * y = 0 → (fmul .f32 {} u v).bits = if (2 ^ 31 ≤ u ↔ 2 ^ 31 ≤ v) then 0 else 2 ^ 31)) ∧
  (∀ u v : Nat, u < 2 ^ 32 → v < 2 ^ 32 → f32Nan u ∨ f32Nan v → ∀ r, r = fadd .f32 {} u v ∨ r = fsub .f32 {} u v ∨ r = fmul .f32 {} u v →
    r.bits = 0x7FC00000 ∧ ∀ i, r.flags.getLsbD i = true ↔ i = 0 ∧ (f32Snan u ∨ f32Snan v)) ∧
  (∀ r, r = fadd .f32 {} 0x7F800000 0xFF800000 ∨ r = fsub .f32 {} 0x7F800000 0x7F800000 ∨ r = fmul .f32 {} 0 0x7F800000 ∨
    r = fmul .f32 {} 0x7F800000 0 → r = ⟨0x7FC00000, flagIV⟩) ∧
  ∀ (g : Option Guard) (d a b : Nat) (rnd : Rnd),
    let A : Regs → Nat → Nat := fun r l => (r.v a l).toNat
    let B : Regs → Nat → Nat := fun r l => (r.v b l).toNat
    let D : Regs → Nat → Nat := fun r l => (r.v d l).toNat
    let c : Regs → FCtl := fun r => fctl r.fpmode
    let half : (Nat → Nat → Nat → Rounded) → Regs → Nat → Word × Flags := fun op r l =>
      let lo := op (A r l % 65536) (B r l % 65536) (D r l % 65536)
      let hi := op (A r l / 65536) (B r l / 65536) (D r l / 65536)
      (BitVec.ofNat 32 (lo.bits + 65536 * hi.bits), lo.flags ||| hi.flags)
    LaneVF (.fadd g d a b) g d (fun r l => (fadd .f32 (c r) (A r l) (B r l)).word) ∧
    LaneVF (.fsub g d a b) g d (fun r l => (fsub .f32 (c r) (A r l) (B r l)).word) ∧
    LaneVF (.fmul g d a b) g d (fun r l => (fmul .f32 (c r) (A r l) (B r l)).word) ∧
    LaneVF (.ffma g d a b) g d (fun r l => (ffma .f32 (c r) (A r l) (B r l) (D r l)).word) ∧
    LaneVF (.fmin g d a b) g d (fun r l => (fminmax .f32 false (c r) (A r l) (B r l)).word) ∧
    LaneVF (.fmax g d a b) g d (fun r l => (fminmax .f32 true (c r) (A r l) (B r l)).word) ∧
    LaneV (.fabs g d a) g d (fun r l => BitVec.ofNat 32 (A r l % 2 ^ 31)) ∧
    LaneV (.fneg g d a) g d (fun r l => BitVec.ofNat 32 (A r l + 2 ^ 31)) ∧
    LaneVF (.fdiv g d a b) g d (fun r l => (fdiv (c r) (A r l) (B r l)).word) ∧
    LaneVF (.fsqrt g d a) g d (fun r l => (fsqrt (c r) (A r l)).word) ∧
    LaneVF (.frcp g d a) g d (fun r l => (fspecial 23 rcpV true (c r) (A r l)).word) ∧
    LaneVF (.frsq g d a) g d (fun r l => (fspecial 23 rsqV true (c r) (A r l)).word) ∧
    LaneVF (.fexp2 g d a) g d (fun r l => (fspecial 22 exp2V false (c r) (A r l)).word) ∧
    LaneVF (.flog2 g d a) g d (fun r l => (fspecial 22 log2V true (c r) (A r l)).word) ∧
    LaneVF (.fsin g d a) g d (fun r l => (fspecial 22 sinV false (c r) (A r l)).word) ∧
    LaneVF (.fcos g d a) g d (fun r l => (fspecial 22 cosV false (c r) (A r l)).word) ∧
    LaneVF (.ftanh g d a) g d (fun r l => (fspecial 22 tanhV false (c r) (A r l)).word) ∧
    (rnd ≠ .sr → LaneVF (.frnd g d a rnd) g d (fun r l => (frnd { c r with mode := rndMode rnd r.fpmode } (A r l)).word)) ∧
    LaneVF (.haddF16 g d a b) g d (fun r => half (fun x y _ => fadd .f16 (c r) x y) r) ∧
    LaneVF (.hmulF16 g d a b) g d (fun r => half (fun x y _ => fmul .f16 (c r) x y) r) ∧
    LaneVF (.hfmaF16 g d a b) g d (fun r => half (fun x y z => ffma .f16 (c r) x y z) r) ∧
    LaneVF (.hminF16 g d a b) g d (fun r => half (fun x y _ => fminmax .f16 false (c r) x y) r) ∧
    LaneVF (.hmaxF16 g d a b) g d (fun r => half (fun x y _ => fminmax .f16 true (c r) x y) r) ∧
    LaneVF (.haddBf16 g d a b) g d (fun r => half (fun x y _ => fadd .bf16 (c r) x y) r) ∧
    LaneVF (.hmulBf16 g d a b) g d (fun r => half (fun x y _ => fmul .bf16 (c r) x y) r) ∧
    LaneVF (.hfmaBf16 g d a b) g d (fun r => half (fun x y z => ffma .bf16 (c r) x y z) r)

/-- The conversions of major 14 (R132 to R136): each lane of active() receives the model's rounded result, under sr with the
lane's own draw, after which the generator of each active lane, and no other, has taken one step (R92); a narrow source is
read from the low bits; pip4.pack takes both lanes of a pair, an absent one as +0 (R134). And what the conversions of integers to
f32 under RNE and of finite f32 values to integers under RZ deliver (R87, R89, R132): the integer rounded to nearest even; the value
without its fraction, NX when it had one, and outside the range the nearer end with IV alone. -/
def Obligations.ConversionResults : Prop :=
  (∀ k : Int, RoundsF32 (k : ℚ) (cvtIntF32 {} k)) ∧
  (∀ (u : Nat) (x : ℚ) (lo hi : Int), u < 2 ^ 32 → f32Num u = some x → (lo = -2 ^ 31 ∧ hi = 2 ^ 31 - 1) ∨ (lo = 0 ∧ hi = 2 ^ 32 - 1) →
    let k : Int := if 0 ≤ x then ⌊x⌋ else ⌈x⌉
    cvtF32Int lo hi { mode := .rz } u =
      if k < lo then (BitVec.ofInt 32 lo, flagIV) else if hi < k then (BitVec.ofInt 32 hi, flagIV)
      else (BitVec.ofInt 32 k, flagIf (decide ((k : ℚ) ≠ x)) flagNX)) ∧
  ∀ (g : Option Guard) (d a b : Nat) (rnd : Rnd),
    let A : Regs → Nat → Nat := fun r l => (r.v a l).toNat
    let c : Regs → FCtl := fun r => fctl r.fpmode
    let k : Team → Nat → FCtl := fun t l =>
      { dni := fpDNI t.regs.fpmode, dno := fpDNO t.regs.fpmode, mode := rndMode rnd t.regs.fpmode,
        draw := (srNext (t.regs.sr l)).toNat }
    TeamCvt (.cvtF32I32 g d a rnd) g d rnd (fun t l => (cvtIntF32 (k t l) (t.regs.v a l).toInt).word) ∧
    TeamCvt (.cvtF32N32 g d a rnd) g d rnd (fun t l => (cvtIntF32 (k t l) (A t.regs l)).word) ∧
    TeamCvt (.cvtI32F32 g d a rnd) g d rnd (fun t l => cvtF32Int (-2 ^ 31) (2 ^ 31 - 1) (k t l) (A t.regs l)) ∧
    TeamCvt (.cvtN32F32 g d a rnd) g d rnd (fun t l => cvtF32Int 0 (2 ^ 32 - 1) (k t l) (A t.regs l)) ∧
    TeamCvt (.cvtF16F32 g d a rnd) g d rnd (fun t l => (cvtFmt .f32 .f16 (k t l) (A t.regs l)).word) ∧
    TeamCvt (.cvtBf16F32 g d a rnd) g d rnd (fun t l => (cvtFmt .f32 .bf16 (k t l) (A t.regs l)).word) ∧
    TeamCvt (.cvtF8aF32 g d a rnd) g d rnd (fun t l => (cvtFmt .f32 .f8a (k t l) (A t.regs l)).word) ∧
    TeamCvt (.cvtF8bF32 g d a rnd) g d rnd (fun t l => (cvtFmt .f32 .f8b (k t l) (A t.regs l)).word) ∧
    LaneVF (.cvtF32F16 g d a) g d (fun r l => (cvtFmt .f16 .f32 (c r) (A r l % 2 ^ 16)).word) ∧
    LaneVF (.cvtF32Bf16 g d a) g d (fun r l => (cvtFmt .bf16 .f32 (c r) (A r l % 2 ^ 16)).word) ∧
    LaneVF (.cvtF32F8a g d a) g d (fun r l => (cvtFmt .f8a .f32 (c r) (A r l % 2 ^ 8)).word) ∧
    LaneVF (.cvtF32F8b g d a) g d (fun r l => (cvtFmt .f8b .f32 (c r) (A r l % 2 ^ 8)).word) ∧
    TeamCvt (.pip4Pack g d a rnd) g d rnd (fun t l =>
      let x : Nat → Option Nat := fun i => if i < t.nlane ∧ Mask.has (t.lanes g) i then some (A t.regs i) else none
      (pip4Pack (rndMode rnd t.regs.fpmode) (fpDNI t.regs.fpmode) (x (l / 2 * 2)) (x (l / 2 * 2 + 1))
        (srNext (t.regs.sr (l / 2 * 2))).toNat (srNext (t.regs.sr (l / 2 * 2 + 1))).toNat).word) ∧
    LaneV (.pip4Unpack g d a) g d (fun r l =>
      BitVec.ofNat 32 (intF32 (if l % 2 = 0 then (pip4Decode 0 (A r l % 2 ^ 8)).1 else (pip4Decode 0 (A r l % 2 ^ 8)).2))) ∧
    LaneVF (.scaleBlk g d a b) g d (fun r l => (scaleBlk (c r) (A r l) (r.v b l).toNat).word)

/-- The compares of majors 8, 9 and 11 (R115, R118, R131): p[D] takes the truth of the relation in every lane of active(), p0
stays as it reads, a floating compare raises IV for a signalling NaN and for nothing else, and nothing else changes. -/
def Obligations.CompareResults : Prop :=
  ∀ (g : Option Guard) (d a b : Nat),
    let f : (FVal → FVal → Bool) → Bool → Regs → Nat → Bool := fun rel un r l =>
      let x := Fmt.f32.input (fpDNI r.fpmode) (r.v a l).toNat
      let y := Fmt.f32.input (fpDNI r.fpmode) (r.v b l).toNat
      if x.isNan || y.isNan then un else rel x y
    let iv : Regs → Nat → Flags := fun r l =>
      flagIf ((Fmt.f32.value (r.v a l).toNat).isSnan || (Fmt.f32.value (r.v b l).toNat).isSnan) flagIV
    LaneP (.cmpEqI32 g d a b) g d (fun r l => decide (r.v a l = r.v b l)) ∧
    LaneP (.cmpNeI32 g d a b) g d (fun r l => decide (r.v a l ≠ r.v b l)) ∧
    LaneP (.cmpLtI32 g d a b) g d (fun r l => decide ((r.v a l).toInt < (r.v b l).toInt)) ∧
    LaneP (.cmpLeI32 g d a b) g d (fun r l => decide ((r.v a l).toInt ≤ (r.v b l).toInt)) ∧
    LaneP (.cmpGtI32 g d a b) g d (fun r l => decide ((r.v a l).toInt > (r.v b l).toInt)) ∧
    LaneP (.cmpGeI32 g d a b) g d (fun r l => decide ((r.v a l).toInt ≥ (r.v b l).toInt)) ∧
    LaneP (.cmpLtN32 g d a b) g d (fun r l => decide ((r.v a l).toNat < (r.v b l).toNat)) ∧
    LaneP (.cmpLeN32 g d a b) g d (fun r l => decide ((r.v a l).toNat ≤ (r.v b l).toNat)) ∧
    LaneP (.cmpGtN32 g d a b) g d (fun r l => decide ((r.v a l).toNat > (r.v b l).toNat)) ∧
    LaneP (.cmpGeN32 g d a b) g d (fun r l => decide ((r.v a l).toNat ≥ (r.v b l).toNat)) ∧
    LaneP (.cmpEqI64 g d a b) g d (fun r l => decide (r.w a l = r.w b l)) ∧
    LaneP (.cmpLtI64 g d a b) g d (fun r l => decide ((r.w a l).toInt < (r.w b l).toInt)) ∧
    LaneP (.cmpLtN64 g d a b) g d (fun r l => decide ((r.w a l).toNat < (r.w b l).toNat)) ∧
    LaneP (.fcmpEq g d a b) g d (f equalV false) iv ∧
    LaneP (.fcmpNe g d a b) g d (f (fun x y => !equalV x y) true) iv ∧
    LaneP (.fcmpLt g d a b) g d (f lessV false) iv ∧
    LaneP (.fcmpLe g d a b) g d (f (fun x y => !lessV y x) false) iv ∧
    LaneP (.fcmpGt g d a b) g d (f (fun x y => lessV y x) false) iv ∧
    LaneP (.fcmpGe g d a b) g d (f (fun x y => !lessV x y) false) iv ∧
    LaneP (.fcmpUn g d a b) g d (f (fun _ _ => false) true) iv ∧
    LaneP (.fcmpOr g d a b) g d (f (fun _ _ => true) false) iv

/-- Predicate logic and votes (R101, R116, R117): the seven lane forms write p[D] in the lanes of active(); the four team-wide
forms write once, or not at all when active() is empty. -/
def Obligations.PredicateResults : Prop :=
  ∀ (g : Option Guard) (d a b : Nat) (val : Bool) (group : Nat),
    LaneP (.pand g d a b) g d (fun r l => Mask.has (r.p a) l && Mask.has (r.p b) l) ∧
    LaneP (.por g d a b) g d (fun r l => Mask.has (r.p a) l || Mask.has (r.p b) l) ∧
    LaneP (.pxor g d a b) g d (fun r l => xor (Mask.has (r.p a) l) (Mask.has (r.p b) l)) ∧
    LaneP (.pandn g d a b) g d (fun r l => Mask.has (r.p a) l && !Mask.has (r.p b) l) ∧
    LaneP (.pnot g d a) g d (fun r l => !Mask.has (r.p a) l) ∧
    LaneP (.pmov g d a) g d (fun r l => Mask.has (r.p a) l) ∧
    LaneP (.pset g d val) g d (fun _ _ => val) ∧
    (d < 8 → TeamUni (.voteAny g d a) g fun t => WritesQ t.regs d
      (decide (∃ l ∈ t.performers g, Mask.has (t.regs.p a) l = true))) ∧
    (d < 8 → TeamUni (.voteAll g d a) g fun t => WritesQ t.regs d
      (decide (∀ l ∈ t.performers g, Mask.has (t.regs.p a) l = true))) ∧
    TeamUni (.ballot g d a group) g (fun t r => ∃ w : Word, WritesS t.regs d w r ∧
      ∀ i, i < 32 → w.getLsbD i = (decide (32 * group + i ∈ t.performers g) && Mask.has (t.regs.p a) (32 * group + i))) ∧
    TeamUni (.pcnt g d a) g (fun t => WritesS t.regs d
      (BitVec.ofNat 32 ((t.performers g).countP fun l => Mask.has (t.regs.p a) l)))

/-- The 64-bit instructions of major 11 and the transfers of major 13 (R118, R121): no flag is raised. -/
def Obligations.WideAndTransferResults : Prop :=
  ∀ (g : Option Guard) (d a b : Nat),
    LaneW (.addI64 g d a b) g d (fun r l => BitVec.ofNat 64 ((r.w a l).toNat + (r.w b l).toNat)) ∧
    LaneW (.subI64 g d a b) g d (fun r l => BitVec.ofInt 64 ((r.w a l).toNat - (r.w b l).toNat)) ∧
    LaneW (.mulI64 g d a b) g d (fun r l => BitVec.ofNat 64 ((r.w a l).toNat * (r.w b l).toNat)) ∧
    LaneW (.shlB64 g d a b) g d (fun r l => BitVec.ofNat 64 ((r.w a l).toNat * 2 ^ (r.w b l).toNat)) ∧
    LaneW (.shrN64 g d a b) g d (fun r l => BitVec.ofNat 64 ((r.w a l).toNat / 2 ^ (r.w b l).toNat)) ∧
    LaneW (.shrI64 g d a b) g d (fun r l => BitVec.ofInt 64 ((r.w a l).toInt / 2 ^ (r.w b l).toNat)) ∧
    LaneW (.andB64 g d a b) g d (fun r l => r.w a l &&& r.w b l) ∧
    LaneW (.orB64 g d a b) g d (fun r l => r.w a l ||| r.w b l) ∧
    LaneW (.xorB64 g d a b) g d (fun r l => r.w a l ^^^ r.w b l) ∧
    LaneW (.sxtI64 g d a) g d (fun r l => BitVec.ofInt 64 (r.v a l).toInt) ∧
    LaneW (.zxtN64 g d a) g d (fun r l => BitVec.ofNat 64 (r.v a l).toNat) ∧
    LaneV (.truncB32 g d a) g d (fun r l => BitVec.ofNat 32 (r.w a l).toNat) ∧
    LaneV (.s2v g d a) g d (fun r _ => r.s a) ∧
    LaneW (.x2w g d a) g d (fun r _ => r.x a) ∧
    TeamUni (.v2s g d a) g (fun t r => ∃ m, t.lowest g m ∧ WritesS t.regs d (t.regs.v a m) r) ∧
    TeamUni (.w2x g d a) g (fun t r => ∃ m, t.lowest g m ∧ WritesX t.regs d (t.regs.w a m) r)

/-- The uniform instructions of majors 12 and 13 (R31, R119, R120): under a true guard the one destination takes the stated
value, under a false one nothing but the address of the next slot changes; no flag is raised. -/
def Obligations.UniformResults : Prop :=
  ∀ (g : Option Guard) (d a b : Nat) (imm : Word),
    UniS (.sadd g d a b) g d (fun r => BitVec.ofNat 32 ((r.s a).toNat + (r.s b).toNat)) ∧
    UniS (.ssub g d a b) g d (fun r => BitVec.ofInt 32 ((r.s a).toNat - (r.s b).toNat)) ∧
    UniS (.smul g d a b) g d (fun r => BitVec.ofNat 32 ((r.s a).toNat * (r.s b).toNat)) ∧
    UniS (.sand g d a b) g d (fun r => r.s a &&& r.s b) ∧
    UniS (.sor g d a b) g d (fun r => r.s a ||| r.s b) ∧
    UniS (.sxor g d a b) g d (fun r => r.s a ^^^ r.s b) ∧
    UniS (.sshl g d a b) g d (fun r => BitVec.ofNat 32 ((r.s a).toNat * 2 ^ (r.s b).toNat)) ∧
    UniS (.sshr g d a b) g d (fun r => BitVec.ofNat 32 ((r.s a).toNat / 2 ^ (r.s b).toNat)) ∧
    UniS (.sminI32 g d a b) g d (fun r => if (r.s a).toInt ≤ (r.s b).toInt then r.s a else r.s b) ∧
    UniS (.smaxI32 g d a b) g d (fun r => if (r.s a).toInt ≤ (r.s b).toInt then r.s b else r.s a) ∧
    UniQ (.scmpEq g d a b) g d (fun r => decide (r.s a = r.s b)) ∧
    UniQ (.scmpLt g d a b) g d (fun r => decide ((r.s a).toInt < (r.s b).toInt)) ∧
    UniX (.xadd g d a b) g d (fun r => BitVec.ofNat 64 ((r.x a).toNat + (r.x b).toNat)) ∧
    UniX (.xsub g d a b) g d (fun r => BitVec.ofInt 64 ((r.x a).toNat - (r.x b).toNat)) ∧
    UniX (.xshl g d a b) g d (fun r => BitVec.ofNat 64 ((r.x a).toNat * 2 ^ (r.x b).toNat)) ∧
    UniQ (.xcmpLt g d a b) g d (fun r => decide ((r.x a).toInt < (r.x b).toInt)) ∧
    UniS (.smovi g d imm) g d (fun _ => imm) ∧
    UniX (.xmovi g d imm) g d (fun _ => BitVec.ofInt 64 imm.toInt) ∧
    UniX (.xmovhi g d imm) g d (fun r => BitVec.ofNat 64 (2 ^ 32 * imm.toNat + (r.x d).toNat % 2 ^ 32))

/-- The cross-lane instructions of major 15 (R138 to R141): a lane contributes only when it is in active() and in the scope;
a shuffle whose source is no such lane gives the lane its own v[A]; a reduction takes its lanes in rising order, red.fadd
from minus zero; a scan is inclusive. -/
def Obligations.CrossLaneResults : Prop :=
  ∀ (g : Option Guard) (d a : Nat) (team : Bool) (k : Nat),
    -- the lanes of active() in a lane's scope, rising
    let mates : Team → Nat → List Nat := fun t l => (t.performers g).filter fun i => team || i / 32 == l / 32
    let base : Nat → Nat := fun l => if team then 0 else l / 32 * 32
    -- the lane whose value reaches lane l when the source position is p
    let from_ : Team → Nat → Int → Word := fun t l p =>
      if 0 ≤ p ∧ base l + p.toNat ∈ mates t l then t.regs.v a (base l + p.toNat) else t.regs.v a l
    let fold : (Word → Word → Word) → Team → Nat → Word := fun op t l =>
      match (mates t l).map (t.regs.v a) with
      | [] => 0
      | x :: xs => xs.foldl op x
    let sum : Team → Nat → Nat × Flags := fun t l =>
      ((mates t l).map (t.regs.v a)).foldl (faddStep (fctl t.regs.fpmode)) (2 ^ 31, 0)
    TeamV (.shflIdx g d a team) g d (fun t l => from_ t l (t.regs.v d l).toNat) ∧
    TeamV (.shflUp g d a team k) g d (fun t l => from_ t l (l - base l - k)) ∧
    TeamV (.shflDn g d a team k) g d (fun t l => from_ t l (l - base l + k)) ∧
    TeamV (.shflXor g d a team k) g d (fun t l => from_ t l (((l - base l) ^^^ k : Nat) : Int)) ∧
    TeamV (.bcastL g d a team k) g d (fun t l => from_ t l k) ∧
    TeamV (.redAddI32 g d a team) g d (fold fun x y => x + y) ∧
    TeamV (.redMinI32 g d a team) g d (fold fun x y => if x.toInt ≤ y.toInt then x else y) ∧
    TeamV (.redMinN32 g d a team) g d (fold fun x y => if x.toNat ≤ y.toNat then x else y) ∧
    TeamV (.redMaxI32 g d a team) g d (fold fun x y => if x.toInt ≤ y.toInt then y else x) ∧
    TeamV (.redFadd g d a team) g d (fun t l => BitVec.ofNat 32 (sum t l).1) (fun t l => (sum t l).2) ∧
    TeamV (.scanAddI32 g d a team) g d (fun t l =>
      (((mates t l).filter fun i => decide (i ≤ l)).map (t.regs.v a)).foldl (· + ·) 0)

/-! ### Memory (majors 16 to 18) -/

/-- Loads (R143 to R148, R150, R158), in the lanes that the done mask of a tret does not hold: when every performed lane's access
passes the checks, or has the answer of the node that it asked, each lane's register receives its own bytes, zero-extended; a
uniform load reads once; no memory and no other register changes. A load that begins at bytes of another node asks that node for
them and waits, having changed no register and no byte here (R157, R299). -/
def Obligations.LoadResults : Prop :=
  (∀ (g : Option Guard) (T xb vo : Nat) (disp : Word),
    LaneLoadAsks (.ldB8 g T xb vo disp) g xb vo disp 0 ∧ LaneLoadAsks (.ldB16 g T xb vo disp) g xb vo disp 1 ∧
    LaneLoadAsks (.ldB32 g T xb vo disp) g xb vo disp 2 ∧ LaneLoadAsks (.ldB64 g T xb vo disp) g xb vo disp 3 ∧
    LaneLoadAsks (.ldB128 g T xb vo disp) g xb vo disp 4 ∧
    ∀ s uid t node raddr, Issuing s uid t → guardHolds t.regs g = true →
      (Asks s uid t (uniMemAccess t xb disp 2 true false) node raddr → ∃ s', exec (.ldsB32 g T xb disp) s = .next s' ∧
        Waits s uid t node raddr 0 (.load 4) false 0 s') ∧
      (Asks s uid t (uniMemAccess t xb disp 3 true false) node raddr → ∃ s', exec (.ldsB64 g T xb disp) s = .next s' ∧
        Waits s uid t node raddr 0 (.load 8) false 0 s')) ∧
  ∀ (g : Option Guard) (T xb vo : Nat) (disp : Word),
    LaneLoad (.ldB8 g T xb vo disp) g xb vo disp 0 (fun t val => WritesV t g T (fun l => BitVec.ofNat 32 (val l)) fun _ => 0) ∧
    LaneLoad (.ldB16 g T xb vo disp) g xb vo disp 1 (fun t val => WritesV t g T (fun l => BitVec.ofNat 32 (val l)) fun _ => 0) ∧
    LaneLoad (.ldB32 g T xb vo disp) g xb vo disp 2 (fun t val => WritesV t g T (fun l => BitVec.ofNat 32 (val l)) fun _ => 0) ∧
    LaneLoad (.ldB64 g T xb vo disp) g xb vo disp 3 (fun t val => WritesW t g T fun l => BitVec.ofNat 64 (val l)) ∧
    LaneLoad (.ldB128 g T xb vo disp) g xb vo disp 4 (fun t val => WritesQuad t g T val) ∧
    UniLoad (.ldsB32 g T xb disp) g xb disp 2 (fun r v => WritesS r T (BitVec.ofNat 32 v)) ∧
    UniLoad (.ldsB64 g T xb disp) g xb disp 3 (fun r v => WritesX r T (BitVec.ofNat 64 v))

/-- Stores (R143 to R150, R158), in the lanes that the done mask of a tret does not hold: when every performed lane's access passes
the checks, each lane's value is written at the place that its effective address leads to, or sent to the node that holds it, and
every byte elsewhere reads as before; where several lanes name one address, its bytes hold one of their values (R149). -/
def Obligations.StoreResults : Prop :=
  ∀ (g : Option Guard) (T xb vo : Nat) (disp : Word),
    LaneStore (.stB8 g T xb vo disp) g xb vo disp 0 (fun r l => (r.v T l).toNat % 2 ^ 8) ∧
    LaneStore (.stB16 g T xb vo disp) g xb vo disp 1 (fun r l => (r.v T l).toNat % 2 ^ 16) ∧
    LaneStore (.stB32 g T xb vo disp) g xb vo disp 2 (fun r l => (r.v T l).toNat) ∧
    LaneStore (.stB64 g T xb vo disp) g xb vo disp 3 (fun r l => (r.w T l).toNat) ∧
    LaneStore (.stB128 g T xb vo disp) g xb vo disp 4 (fun r l =>
      (r.v T l).toNat + 2 ^ 32 * (r.v (T + 1) l).toNat + 2 ^ 64 * (r.v (T + 2) l).toNat + 2 ^ 96 * (r.v (T + 3) l).toNat) ∧
    UniStore (.stsB32 g T xb disp) g xb disp 2 (fun r => (r.s T).toNat) ∧
    UniStore (.stsB64 g T xb disp) g xb disp 3 (fun r => (r.x T).toNat)

/-- Atomics (R153, R155, R158): the active lanes' read-modify-writes are performed in rising order of lane, each on what the lanes
below it left, with any watchpoints armed that they do not meet; ld.acq always returns the old value, st.rel never, the others
unless NR is set. One that begins at bytes of another node asks that node to perform it and waits (R157); one whose first lane
meets a watchpoint traps with WATCH (R362, R363). The new values are those of R154, on the operands of the operation's width, and
the addition of f32 alone raises flags. -/
def Obligations.AtomicResults : Prop :=
  (∀ (old v w : Word) (x y z : Word64),
    let e : Word → Word64 := fun a => a.setWidth 64
    atomNew .addI32 (e old) (e v) (e w) = some (BitVec.ofNat 64 ((old.toNat + v.toNat) % 2 ^ 32)) ∧
    atomNew .minI32 (e old) (e v) (e w) = some (e (if old.toInt ≤ v.toInt then old else v)) ∧
    atomNew .maxI32 (e old) (e v) (e w) = some (e (if old.toInt ≤ v.toInt then v else old)) ∧
    atomNew .minN32 (e old) (e v) (e w) = some (BitVec.ofNat 64 (min old.toNat v.toNat)) ∧
    atomNew .maxN32 (e old) (e v) (e w) = some (BitVec.ofNat 64 (max old.toNat v.toNat)) ∧
    atomNew .and (e old) (e v) (e w) = some (e (old &&& v)) ∧
    atomNew .or (e old) (e v) (e w) = some (e (old ||| v)) ∧
    atomNew .xor (e old) (e v) (e w) = some (e (old ^^^ v)) ∧
    atomNew .xchg (e old) (e v) (e w) = some (e v) ∧
    atomNew .cas (e old) (e v) (e w) = (if old = v then some (e w) else none) ∧
    atomNew .addI64 x y z = some (BitVec.ofNat 64 (x.toNat + y.toNat)) ∧
    atomNew .casI64 x y z = (if x = y then some z else none) ∧
    atomNew .ldAcq (e old) (e v) (e w) = none ∧
    atomNew .stRel (e old) (e v) (e w) = some (e v) ∧
    atomNew .incN32 (e old) (e v) (e w) = some (if v.toNat ≤ old.toNat then 0 else BitVec.ofNat 64 (old.toNat + 1)) ∧
    atomNew .addF32 (e old) (e v) (e w) =
      some (BitVec.ofNat 64 (fadd .f32 { dni := false, dno := false, mode := .rne, draw := 0 } old.toNat v.toNat).bits) ∧
    (∀ op, op ≠ .addF32 → atomFlags op x y = 0)) ∧
  (∀ (op : AtomOp) (T xb vo : Nat) (order : Order) (scope : Scope) (sc nr : Bool),
    let i : Instr := match op with
      | .addI32 => .atomAddI32 T xb vo order scope sc nr
      | .addF32 => .atomAddF32 T xb vo order scope sc nr
      | .minI32 => .atomMinI32 T xb vo order scope sc nr
      | .minN32 => .atomMinN32 T xb vo order scope sc nr
      | .maxI32 => .atomMaxI32 T xb vo order scope sc nr
      | .maxN32 => .atomMaxN32 T xb vo order scope sc nr
      | .and => .atomAnd T xb vo order scope sc nr
      | .or => .atomOr T xb vo order scope sc nr
      | .xor => .atomXor T xb vo order scope sc nr
      | .xchg => .atomXchg T xb vo order scope sc nr
      | .cas => .atomCas T xb vo order scope sc nr
      | .addI64 => .atomAddI64 T xb vo order scope sc nr
      | .casI64 => .atomCasI64 T xb vo order scope sc nr
      | .ldAcq => .ldAcq T xb vo order scope sc nr
      | .stRel => .stRel T xb vo order scope sc nr
      | .incN32 => .atomIncN32 T xb vo order scope sc nr
    LaneAtomicAsks i op T xb vo order scope sc ∧ LaneAtomicWatched i op T xb vo order scope sc) ∧
  ∀ (T xb vo : Nat) (order : Order) (scope : Scope) (sc nr : Bool),
    LaneAtomic (.atomAddI32 T xb vo order scope sc nr) .addI32 T xb vo order scope sc (!nr) ∧
    LaneAtomic (.atomAddF32 T xb vo order scope sc nr) .addF32 T xb vo order scope sc (!nr) ∧
    LaneAtomic (.atomMinI32 T xb vo order scope sc nr) .minI32 T xb vo order scope sc (!nr) ∧
    LaneAtomic (.atomMinN32 T xb vo order scope sc nr) .minN32 T xb vo order scope sc (!nr) ∧
    LaneAtomic (.atomMaxI32 T xb vo order scope sc nr) .maxI32 T xb vo order scope sc (!nr) ∧
    LaneAtomic (.atomMaxN32 T xb vo order scope sc nr) .maxN32 T xb vo order scope sc (!nr) ∧
    LaneAtomic (.atomAnd T xb vo order scope sc nr) .and T xb vo order scope sc (!nr) ∧
    LaneAtomic (.atomOr T xb vo order scope sc nr) .or T xb vo order scope sc (!nr) ∧
    LaneAtomic (.atomXor T xb vo order scope sc nr) .xor T xb vo order scope sc (!nr) ∧
    LaneAtomic (.atomXchg T xb vo order scope sc nr) .xchg T xb vo order scope sc (!nr) ∧
    LaneAtomic (.atomCas T xb vo order scope sc nr) .cas T xb vo order scope sc (!nr) ∧
    LaneAtomic (.atomAddI64 T xb vo order scope sc nr) .addI64 T xb vo order scope sc (!nr) ∧
    LaneAtomic (.atomCasI64 T xb vo order scope sc nr) .casI64 T xb vo order scope sc (!nr) ∧
    LaneAtomic (.ldAcq T xb vo order scope sc nr) .ldAcq T xb vo order scope sc true ∧
    LaneAtomic (.stRel T xb vo order scope sc nr) .stRel T xb vo order scope sc false ∧
    LaneAtomic (.atomIncN32 T xb vo order scope sc nr) .incN32 T xb vo order scope sc (!nr)

/-- Every step keeps the limits that the specification gives every team: registers and handle pools that list nothing twice, the
hard-wired p0 and q0 stored nowhere (R22), FPMODE and TCAUSE without reserved bits (R90, R345), generations from 1 to 255 (R24), at
most 32 divergence frames, 64 returns and two handlers, one while a delivery waits for its overlay (R202, R203, R343, R344), a release
fence that names fabric operations already issued (R438), and in the crews' pools of tracks and ranges the same. -/
def Obligations.StepKeepsTeams : Prop := ∀ (s s' : State), s.teamsOk = true → step s = .next s' → s'.teamsOk = true

/-- Reading after writing, at any place of the package (R143, R376): a byte that a write names reads as the write's byte when
no later byte of the write falls on it, and a byte of storage that it does not name reads as before. -/
def Obligations.ReadAfterWrite : Prop :=
  ∀ (s : State) (p q : Place) (l : List Byte),
    (∀ i b, l[i]? = some b → s.cell (p.add i) ≠ none →
      (∀ j, i < j → j < l.length → s.cell (p.add j) ≠ s.cell (p.add i)) → (s.writeBytes p l).byteAt (p.add i) = b) ∧
    ((∀ i, i < l.length → s.cell (p.add i) = none ∨ s.cell (p.add i) ≠ s.cell q) → (s.writeBytes p l).byteAt q = s.byteAt q)

/-- The checks of one access. Their order (R146): ALIGN, then SCRATCH_OOB or LTT_MISS, then WATCH with its number, then POISON
for an access that reads, then FABRIC with its reason, but for a cas of another node that meets a watchpoint even if it fails; the
first that fails names the trap, TADDR is the access's address. Where an address leads (R143 to R145): the local window to the crew's scratchpad or SCRATCH_OOB, the global and the fabric space to the
first extent that covers the access, else to the first page entered by a probe of the team that covers it, or LTT_MISS when
none does or a write is not permitted, any other address always LTT_MISS. Which watchpoint an access meets (R221, R223, R362,
R363): the lowest-numbered one that watches its bytes in its direction, none for the access that a tret exempts. -/
def Obligations.AccessChecks : Prop :=
  (∀ (s : State) (t : Team) (x : Access),
     let stop : Cause → Nat → Nat → Except Trap Place := fun c watch reason =>
       .error { cause := c, addr := BitVec.ofNat 64 x.addr, info := memInfo x.lane x.uni x.wr x.log2 watch reason }
     (¬ x.size ∣ x.addr → s.checkAccess t x = stop .align 0 0) ∧
     (x.size ∣ x.addr → ∀ c, s.resolve t x.addr x.size x.wr = .error c → s.checkAccess t x = stop c 0 0) ∧
     (x.size ∣ x.addr → ∀ p, s.resolve t x.addr x.size x.wr = .ok p →
       (∀ n, t.watchOn x = some n → s.checkAccess t x = stop .watch n 0) ∧
       (t.watchOn x = none → x.rd = true → s.markedIn (s.home (s.fnOf t) p) x.size = true → s.checkAccess t x = stop .poison 0 0) ∧
       (t.watchOn x = none → (x.rd && s.markedIn (s.home (s.fnOf t) p) x.size) = false →
         (∀ r, s.fabricFails (s.fnOf t) p = some r → s.checkAccess t x =
           match x.judged with
           | some (_, _, some n) => stop .watch n 0
           | _ => stop .fabric 0 r) ∧
         (s.fabricFails (s.fnOf t) p = none → s.checkAccess t x = .ok (s.home (s.fnOf t) p))))) ∧
  (∀ (s : State) (t : Team) (a n : Nat) (wr : Bool) (c : Crew), Tbl.find? s.crews t.crew = some c →
     (scrBase ≤ a → a + n ≤ scrBase + c.scratchBytes → s.resolve t a n wr = .ok (.scratch t.crew (a - scrBase))) ∧
     (scrBase ≤ a → scrBase + c.scratchBytes < a + n → s.resolve t a n wr = .error .scratchOob) ∧
     (2 ^ 57 ≤ a → a < scrBase → s.resolve t a n wr = .error .lttMiss) ∧
     (a < 2 ^ 57 → ∀ e, List.find? (fun e : Extent => e.covers a n) (s.extentsOf t) = some e →
       s.resolve t a n wr = if wr = true ∧ e.w = false then .error .lttMiss else .ok (e.place c.fn a)) ∧
     (a < 2 ^ 57 → (∀ e ∈ s.extentsOf t, e.covers a n = false) →
       ∀ e, List.find? (fun e : PageEntry => e.covers a n) t.link.pages = some e →
         s.resolve t a n wr = if wr = true ∧ e.w = false then .error .lttMiss else .ok (e.place c.fn a)) ∧
     (a < 2 ^ 57 → (∀ e ∈ s.extentsOf t, e.covers a n = false) → (∀ p ∈ t.link.pages, p.covers a n = false) →
       s.resolve t a n wr = .error .lttMiss)) ∧
  (∀ (t : Team) (x : Access) (n : Nat) (w : Watch),
     let exempt : Prop := ∃ e, t.ctl.exempt = some e ∧ e.vpc = t.ctl.pc ∧ e.lane = x.lane ∧ e.addr = BitVec.ofNat 64 x.addr
     let meets : Watch → Prop := fun w => w.array = none ∧ x.addr < w.base + w.length ∧ w.base < x.addr + x.size ∧
       ((w.read = true ∧ x.rd = true) ∨ (w.write = true ∧ x.watchWr = true))
     (exempt ∨ x.watched = false → t.watchOn x = none) ∧
     ((∀ e ∈ t.link.watches, ¬ meets e.2) → t.watchOn x = none) ∧
     (¬ exempt → x.watched = true → (n, w) ∈ t.link.watches → meets w → Tbl.sortedFrom 0 t.link.watches = true →
       (∀ e ∈ t.link.watches, e.1 < n → ¬ meets e.2) → t.watchOn x = some n))

/-! ### Synchronisation, copies, tracks and ranges (majors 19 to 22) -/

/-- A uniform instruction whose guard is false changes nothing but the address of the next slot (R31), whatever it would do
under a true guard and without any of its checks but that of its privilege: a configuration access at U traps all the same (R225). -/
def Obligations.FalseGuardSkips : Prop :=
  ∀ (g : Option Guard) (d a b : Nat) (imm : Word) (scope : Scope) (order : Order) (sc : Bool) (c : WaitClass) (bank : Bank)
    (disp : Word),
    Skips (.ldsB32 g d a disp) g ∧ Skips (.ldsB64 g d a disp) g ∧ Skips (.stsB32 g d a disp) g ∧ Skips (.stsB64 g d a disp) g ∧
    Skips (.fence g scope order sc) g ∧ Skips (.barArrive g a b) g ∧ Skips (.barWait g a) g ∧ Skips (.barSync g a b) g ∧
    Skips (.mon g a) g ∧ Skips (.mwait g) g ∧ Skips (.waitc g c d) g ∧ Skips (.waitb g a) g ∧ Skips (.yield g) g ∧
    Skips (.nflagMerge g a) g ∧
    Skips (.cpG2s g a) g ∧ Skips (.cpS2g g a) g ∧ Skips (.cpG2g g a) g ∧ Skips (.cpTile g a) g ∧ Skips (.cpRed g a) g ∧
    Skips (.cpClose g d) g ∧ Skips (.cpStamp g a scope) g ∧
    Skips (.trkOpen g d a b) g ∧ Skips (.trkWfill g a b) g ∧ Skips (.trkWfree g a b) g ∧ Skips (.trkAdvP g a b) g ∧
    Skips (.trkAdvC g a b) g ∧ Skips (.trkClose g a) g ∧ Skips (.trkState g d a) g ∧
    Skips (.obRsv g d a) g ∧ Skips (.obRel g a) g ∧ Skips (.obFill g a b) g ∧ Skips (.obInfo g d a) g ∧
    Skips (.unfCfg g a) g ∧ Skips (.accAlloc g d a) g ∧ Skips (.accFree g a) g ∧ Skips (.accZero g a) g ∧
    Skips (.accPatch g d a b) g ∧ Skips (.accSt g d a b) g ∧ Skips (.accFlags g d a) g ∧
    Skips (.ovld g d a bank) g ∧ Skips (.ovwait g d a) g ∧ Skips (.ifence g) g ∧ Skips (.bswap g a) g ∧ Skips (.calt g a b) g ∧
    Skips (.ovrel g a) g ∧ Skips (.lch g d a) g ∧ Skips (.cjoin g a) g ∧ Skips (.lstat g d a) g ∧
    Skips (.tgOpen g d) g ∧ Skips (.tgCommit g d) g ∧ Skips (.tgAbort g d) g ∧ Skips (.tgWait g d a) g ∧
    Skips (.trap g imm) g ∧ Skips (.brkpt g imm) g ∧ Skips (.mark g imm) g ∧ Skips (.wptSet g a b) g ∧ Skips (.wptClr g a) g ∧
    Skips (.perfRd g d a) g ∧
    (∀ s uid t, Issuing s uid t → guardHolds t.regs g = false → t.ctl.priv ≠ .u →
      exec (.cfgRd g d a) s = .next (afterRegs s uid t t.regs) ∧ exec (.cfgWr g a b) s = .next (afterRegs s uid t t.regs)) ∧
    (∀ s uid t, Issuing s uid t → t.ctl.priv = .u →
      exec (.cfgRd g d a) s = .next (s.raise uid (privTrap 0 1 29 (t.regs.x a))) ∧
      exec (.cfgWr g a b) s = .next (s.raise uid (privTrap 0 1 29 (t.regs.x a))))

/-- Fences, barriers, monitors, waits and nflag.merge (R160 to R169): where each goes on at once, and what it leaves; and where a
wait waits (R236): the team is parked in its instruction and nothing else changes, unless an engine operation suspended by a
watchpoint stands before it. That bar.wait with no record, or with a record of another address, goes on at once after its access
checks is the model's reading (log entry 74, DEDUCED). A release fence at fabric scope marks the fabric writes that a later write must not overtake, and an
SC fence waits in itself until the team's fabric writes have been performed (R307, R311, R438). -/
def Obligations.SynchronisationResults : Prop :=
  (∀ (g : Option Guard) (a e n : Nat) (scope : Scope) (order : Order) (sc : Bool) (c : WaitClass) (p : Place),
     let on : State → Nat → Team → State := fun s uid t => afterRegs s uid t t.regs
     -- E and N + 1 of a barrier word (R161, R162)
     let expected : Word → Nat := fun x => if x.toNat % 65536 = 0 then 1 else x.toNat % 65536
     let arrive : Nat → Word → Nat := fun w x =>
       if expected x ≤ w % 65536 + 1 then (w / 65536 + 1) % 65536 * 65536 else w + 1
     let recorded : Word64 → Nat → Team → Team := fun addr w u =>
       { u.advance with ctl := { u.advance.ctl with barrier := some { addr := addr, phase := BitVec.ofNat 16 (w / 65536) } } }
     Completes (.fence g scope order sc) g
       (fun _ _ t => (scope = .fabric → t.link.fabricFault = none) ∧ (sc = true → t.fabricBusy = false))
       (fun s uid t =>
         if scope = .fabric ∧ (order = .release ∨ order = .acqRel) then
           s.putTeam uid { t.advance with link := { t.link with fence := some t.eng.fabIssued } }
         else on s uid t) ∧
     Completes (.barArrive g a e) g (fun s _ t => Reaches s t (ownAccess (t.regs.x a) 2 true) p)
       (fun s uid t => (s.writeNat p 4 (arrive (s.readNat p 4) (t.regs.s e))).modTeam uid
         (recorded (t.regs.x a) (s.readNat p 4))) ∧
     Completes (.barWait g a) g
       (fun s _ t => Reaches s t ({ ownAccess (t.regs.x a) 2 true with watched := false } : Access) p ∧
         ∀ b, t.ctl.barrier = some b → b.addr = t.regs.x a → BitVec.ofNat 16 (s.readNat p 4 / 65536) ≠ b.phase) on ∧
     Completes (.barSync g a e) g
       (fun s _ t => Reaches s t (ownAccess (t.regs.x a) 2 true) p ∧ expected (t.regs.s e) ≤ s.readNat p 4 % 65536 + 1 ∧
         (∀ i j, i < j → j < 4 → s.cell (p.add i) ≠ s.cell (p.add j)) ∧
         ∀ i, i < 4 → s.cell (p.add i) ≠ none ∧ ¬ s.inRecord (p.add i))
       (fun s uid t => (s.writeNat p 4 (arrive (s.readNat p 4) (t.regs.s e))).modTeam uid
         (recorded (t.regs.x a) (s.readNat p 4))) ∧
     Completes (.mon g a) g (fun _ _ _ => True) (fun s uid t => s.putTeam uid { t.advance with link := { t.link with
       monitor := (s.monLine t (t.regs.x a).toNat).map fun l => { line := l, hit := false } } }) ∧
     Completes (.mwait g) g (fun _ _ t => ∀ m, t.link.monitor = some m → m.hit = true)
       (fun s uid t => s.putTeam uid { t.advance with link := { t.link with monitor := none } }) ∧
     Completes (.waitc g c n) g (fun _ _ t => t.counter c ≤ n ∧ (c = .fabric → t.link.fabricFault = none)) on ∧
     Completes (.waitb g a) g (fun _ _ t => ∀ x ∈ t.eng.closed, (t.regs.s a - BitVec.ofNat 32 x.seq).toInt < 0) on ∧
     Completes (.yield g) g (fun _ _ _ => True) (fun s uid t =>
       match s.placeOf t with
       | some q => (on s uid t).rotate q
       | none => on s uid t) ∧
     Completes (.nflagMerge g a) g
       (fun s _ t => (t.regs.x a).toNat % 32 = 0 ∧ Reaches s t (ownAccess (t.regs.x a + 8) 2 true) p)
       (fun s uid t => (s.writeNat p 4 (BitVec.ofNat 32 (s.readNat p 4) ||| (t.regs.nflags &&& 0x1FF)).toNat).modTeam uid
         Team.advance)) ∧
  (∀ (g : Option Guard) (a n : Nat) (scope : Scope) (order : Order) (c : WaitClass) (p : Place),
     let parked : Park → State → Nat → Team → State := fun k s uid t =>
       (s.putTeam uid { t with status := .parked k }).checkDeadlock t.crew
     Completes (.fence g scope order true) g
       (fun _ _ t => t.fabricBusy = true ∧ (scope = .fabric → t.link.fabricFault = none))
       (fun s uid t => s.putTeam uid { t with status := .waiting }) ∧
     Completes (.barWait g a) g
       (fun s _ t => Reaches s t ({ ownAccess (t.regs.x a) 2 true with watched := false } : Access) p ∧
         t.ctl.barrier = some { addr := t.regs.x a, phase := BitVec.ofNat 16 (s.readNat p 4 / 65536) })
       (fun s uid t => parked (.barWait (t.regs.x a)) s uid t) ∧
     Completes (.mwait g) g (fun _ _ t => ∃ m, t.link.monitor = some m ∧ m.hit = false) (parked .mwait) ∧
     Completes (.waitc g c n) g (fun _ _ t => n < t.counter c ∧ t.suspFor (.waitc c n) = none) (parked (.waitc c n)) ∧
     Completes (.waitb g a) g
       (fun _ _ t => (∃ x ∈ t.eng.closed, 0 ≤ (t.regs.s a - BitVec.ofNat 32 x.seq).toInt) ∧ t.suspFor (.waitb (t.regs.s a)) = none)
       (fun s uid t => parked (.waitb (t.regs.s a)) s uid t))

/-- The copy instructions (R173 to R182): a producer's copy whose descriptor and extents pass the checks of R174 joins the
team's open batch, which cp.close closes under the next batch number and cp.stamp covers; a gather joins the gather class. That
the operation keeps its sources as they stand at its issue, free where a copy in flight writes them, is the model's reading (log
entry 6, DEDUCED), as is that the stamp waits for the fabric accesses counted when it is issued (log entry 81, DEDUCED). -/
def Obligations.CopyIssueResults : Prop :=
  (∀ (s : State) (crew : Nat) (o : CopyOp), (∀ e ∈ o.elems, ∀ i, i < o.desc.elem → s.inFlight (e.1.add i) = false) →
    s.atIssue crew o = ({ o with snap := s.snapshot crew }, s)) ∧
  ∀ (g : Option Guard) (a b d : Nat) (scope : Scope) (p q : Place) (src dst : Side) (rows : List GatherRow),
    let issued : State → Team → CopyOp → CopyOp × State := fun s t o => ({ s with uids := s.uids + 1 } : State).atIssue t.crew o
    let copies : CopyKind → Instr → Prop := fun kind i => Completes i g
      (fun s _ t => s.isProducer t = true ∧ t.copies < 1024 ∧ Reaches s t (ownAccess (t.regs.x a) 6 false) p ∧
        copyFieldsOk kind (s.readNat p 64) = true ∧ s.copySides t kind (copyDescOf (s.readNat p 64)) = .ok (src, dst))
      (fun s uid t =>
        let x := issued s t { id := s.uids, kind := kind, desc := copyDescOf (s.readNat p 64), vpc := t.ctl.pc, src := src, dst := dst
                              watches := t.engineWatches }
        x.2.putTeam uid (t.joinBatch x.1).advance)
    copies .g2s (.cpG2s g a) ∧ copies .s2g (.cpS2g g a) ∧ copies .g2g (.cpG2g g a) ∧ copies .tile (.cpTile g a) ∧
    copies .red (.cpRed g a) ∧
    (∀ s uid t, Issuing s uid t → Fresh s uid t → t.status = .runnable →
      (t.performers g = [] → exec (.cpGather g a b) s = .next (afterRegs s uid t t.regs)) ∧
      (t.performers g ≠ [] → s.isProducer t = true → t.counter .gather < 8191 → t.copies < 1024 → Reaches s t (ownAccess (t.regs.x a) 6 false) p →
        copyFieldsOk .gather (s.readNat p 64) = true →
        (if (copyDescOf (s.readNat p 64)).empty then .ok []
          else s.gatherRows t (copyDescOf (s.readNat p 64)) (t.regs.v b) (t.performers g)) = Except.ok rows →
        let x := issued s t { id := s.uids, kind := .gather, desc := copyDescOf (s.readNat p 64), vpc := t.ctl.pc, rows := rows
                              watches := t.engineWatches }
        exec (.cpGather g a b) s =
          .next (x.2.putTeam uid { t.advance with eng := { t.eng with gathers := t.eng.gathers ++ [x.1] } }))) ∧
    Completes (.cpClose g d) g (fun s _ t => s.isProducer t = true) (fun s uid t => s.putTeam uid { t.advance with
      regs := t.regs.setS d (BitVec.ofNat 32 (t.eng.batches + 1))
      eng := { t.eng with
        open_ := [], closed := t.eng.closed ++ [{ seq := t.eng.batches + 1, ops := t.eng.open_ }], batches := t.eng.batches + 1 } }) ∧
    Completes (.cpStamp g a scope) g
      (fun s _ t => s.isProducer t = true ∧ (t.regs.x a).toNat % 8 = 0 ∧ s.resolve t (t.regs.x a).toNat 8 true = .ok q ∧
        (scope = .fabric → q.inScratch = false → t.link.fabricFault = none))
      (fun s uid t => ({ s with uids := s.uids + 1 } : State).putTeam uid { t.advance with
        eng := { t.eng with
          stamps := t.eng.stamps ++ [
            { id := s.uids, addr := t.regs.x a, place := s.home (s.fnOf t) q, vpc := t.ctl.pc, scope := scope
              watches := t.engineWatches, upto := t.eng.batches, poison := t.eng.openPoison, err := t.eng.openErr
              fab := t.eng.fabIssued }]
          openPoison := false, openErr := false } })

/-- The track instructions (R183 to R186, R293): opening a record for the first time and joining it, the two waits and the two
advances where they go on at once, the state word, and the drop of a reference. -/
def Obligations.TrackResults : Prop :=
  ∀ (g : Option Guard) (a b d slot : Nat) (p : Place) (k : TrackObj) (c : Crew),
    let on : State → Nat → Team → State := fun s uid t => afterRegs s uid t t.regs
    let named : State → Nat → Team → Prop := fun s uid t => s.trackAt uid t (Tbl.get t.regs.hk 0 a) 6 = .ok (slot, k)
    let given : State → Nat → Team → State := fun s uid t =>
      s.modTeam uid fun u => { u.advance with regs := { t.regs with hk := Tbl.set t.regs.hk 0 d (Pool.handle c.tracks slot) } }
    let pend : Team → Bool → Nat := fun t producer => (t.pending slot producer).toNat
    let join : Nat → TrackObj → TrackObj := fun uid k =>
      if k.holders.contains uid then k else { k with holders := k.holders ++ [uid] }
    let opens : State → Nat → Team → Prop := fun s _ t =>
      (t.regs.x a).toNat % 16 = 0 ∧ inLocal (t.regs.x a).toNat = true ∧
      s.checkAccess t (ownAccess (t.regs.x a) 4 false) = .ok p ∧ Tbl.find? s.crews t.crew = some c
    -- the first opening of a record
    Completes (.trkOpen g d a b) g
      (fun s uid t => opens s uid t ∧ (Pool.slots c.tracks fun k => k.addr == t.regs.x a) = [] ∧
        1 ≤ (t.regs.s b).toNat ∧ (t.regs.s b).toNat ≤ 32768 ∧ Pool.lowest c.tracks 16 = some slot ∧
        Pool.count c.tracks < min 16 (((s.kernelOf t).map Kernel.tracks).getD 0))
      (fun s uid t =>
        let k : TrackObj := { addr := t.regs.x a, depth := (t.regs.s b).toNat, holders := [uid] }
        given ((s.modCrew t.crew fun c => { c with tracks := Pool.put c.tracks slot k }).writeNat
          (.scratch t.crew ((t.regs.x a).toNat - scrBase)) 16 (2 ^ 64 * (t.regs.s b).toNat + 2 ^ 96)) uid t) ∧
    -- a later opening, by this team or another of the crew
    Completes (.trkOpen g d a b) g
      (fun s uid t => opens s uid t ∧ (Pool.slots c.tracks fun k => k.addr == t.regs.x a).head? = some slot)
      (fun s uid t => given (s.modCrew t.crew fun c => { c with
        tracks := Tbl.modify c.tracks slot fun y => { y with obj := y.obj.map (join uid) } }) uid t) ∧
    Completes (.trkWfill g a b) g
      (fun s uid t => named s uid t ∧ s.track t.crew slot = some k ∧ (t.regs.s b).toNat ≤ k.depth ∧
        (t.regs.s b).toNat ≤ (k.p - k.c).toNat) on ∧
    Completes (.trkWfree g a b) g
      (fun s uid t => named s uid t ∧ s.isProducer t = true ∧ s.track t.crew slot = some k ∧ (t.regs.s b).toNat ≤ k.depth ∧
        (t.regs.s b).toNat + (k.p + t.pending slot true - k.c).toNat ≤ k.depth) on ∧
    Completes (.trkAdvP g a b) g
      (fun s uid t => named s uid t ∧ s.isProducer t = true ∧
        (t.regs.s b).toNat + (k.p + t.pending slot true - k.c).toNat ≤ k.depth ∧
        ∃ x ∈ t.eng.closed, x.seq ≤ t.eng.batches)
      (fun s uid t => s.putTeam uid { t.advance with eng := { t.eng with advances := t.eng.advances ++ [
        { slot := slot, producer := true, n := t.regs.s b, after := t.eng.batches }] } }) ∧
    Completes (.trkAdvP g a b) g
      (fun s uid t => named s uid t ∧ s.isProducer t = true ∧ s.track t.crew slot = some k ∧
        (t.regs.s b).toNat + (k.p + t.pending slot true - k.c).toNat ≤ k.depth ∧
        t.eng.closed = [] ∧ t.eng.advances = [])
      (fun s uid t => (((s.putTrack t.crew slot { k with p := k.p + t.regs.s b }).writeNat
        (.scratch t.crew (k.addr.toNat - scrBase)) 16 ((k.p + t.regs.s b).toNat + 2 ^ 32 * k.c.toNat + 2 ^ 64 * k.depth + 2 ^ 96)).modTeam uid Team.advance).checkDeadlock t.crew) ∧
    Completes (.trkAdvC g a b) g
      (fun s uid t => named s uid t ∧ s.track t.crew slot = some k ∧
        (t.regs.s b).toNat + pend t false ≤ (k.p - k.c).toNat ∧ t.eng.mats = [] ∧ t.eng.advances = [])
      (fun s uid t => (((s.putTrack t.crew slot { k with c := k.c + t.regs.s b }).writeNat
        (.scratch t.crew (k.addr.toNat - scrBase)) 16 (k.p.toNat + 2 ^ 32 * (k.c + t.regs.s b).toNat + 2 ^ 64 * k.depth + 2 ^ 96)).modTeam uid Team.advance).checkDeadlock t.crew) ∧
    Completes (.trkClose g a) g
      (fun s uid t => named s uid t ∧ s.track t.crew slot = some k ∧ t.eng.advances = [] ∧
        (soleHolder k.holders uid = true → s.trackBusy t.crew slot = false))
      (fun s uid t => (s.dropTrack t.crew uid slot).modTeam uid Team.advance) ∧
    Completes (.trkState g d a) g named
      (fun s uid t => afterRegs s uid t (t.regs.setS d (BitVec.ofNat 32 ((k.p - k.c).toNat % 65536 +
        (k.free (t.pending slot true)).toNat % 65536 * 65536))))

/-- The operand-range instructions (R171, R187, R188): reserving, releasing, filling and reading a range. That a fill moves elements
of one byte is the model's reading (log entry 19, DEDUCED). -/
def Obligations.RangeResults : Prop :=
  ∀ (g : Option Guard) (a b d slot : Nat) (p q : Place) (r : RangeObj) (c : Crew),
    let named : State → Nat → Team → Prop := fun s uid t => s.rangeAt uid t (Tbl.get t.regs.ho 0 a) 6 = .ok (slot, r)
    let given : State → Nat → Team → State := fun s uid t =>
      s.modTeam uid fun u => { u.advance with regs := { t.regs with ho := Tbl.set t.regs.ho 0 d (Pool.handle c.ranges slot) } }
    let join : Nat → RangeObj → RangeObj := fun uid k =>
      if k.holders.contains uid then k else { k with holders := k.holders ++ [uid] }
    let asks : State → Nat → Team → Prop := fun s _ t =>
      Reaches s t (ownAccess (t.regs.x a) 4 false) p ∧ Tbl.find? s.crews t.crew = some c
    Completes (.obRsv g d a) g
      (fun s uid t => asks s uid t ∧ (Pool.slots c.ranges fun k => k.addr == t.regs.x a) = [] ∧
        rangeFieldsOk (s.readNat p 16) = true ∧ field (s.readNat p 16) 0 4 + field (s.readNat p 16) 4 4 ≤ c.nteam * 65536 ∧
        Pool.lowest c.ranges 32 = some slot ∧ Pool.count c.ranges < min 32 (((s.kernelOf t).map Kernel.ranges).getD 0))
      (fun s uid t => given (s.modCrew t.crew fun c => { c with
        ranges := Pool.put c.ranges slot (rangeOf (t.regs.x a) uid (s.readNat p 16)) }) uid t) ∧
    Completes (.obRsv g d a) g
      (fun s uid t => asks s uid t ∧ (Pool.slots c.ranges fun k => k.addr == t.regs.x a).head? = some slot)
      (fun s uid t => given (s.modCrew t.crew fun c => { c with
        ranges := Tbl.modify c.ranges slot fun y => { y with obj := y.obj.map (join uid) } }) uid t) ∧
    Completes (.obRel g a) g
      (fun s uid t => named s uid t ∧ s.range t.crew slot = some r ∧
        (soleHolder r.holders uid = true → s.rangeBusy t.crew slot = false))
      (fun s uid t => (s.dropRange t.crew uid slot).modTeam uid Team.advance) ∧
    Completes (.obFill g a b) g
      (fun s uid t => named s uid t ∧ s.isProducer t = true ∧ t.copies < 1024 ∧ (t.regs.x b).toNat % 64 = 0 ∧
        s.extentAt t .any (t.regs.x b).toNat r.length false = .ok q)
      (fun s uid t =>
        let x := ({ s with uids := s.uids + 1 } : State).atIssue t.crew
          { id := s.uids, kind := .fill
            desc := { src := t.regs.x b, dst := 0, count0 := r.length, count1 := 1, count2 := 1, esz := 0, op := 0
                      sstr1 := 0, sstr2 := 0, dstr1 := 0, dstr2 := 0 }
            vpc := t.ctl.pc, range := some slot
            src := { low := (t.regs.x b).toNat, place := s.home (s.fnOf t) q, span := r.length }
            dst := { low := 0, place := .window t.crew r.base, span := r.length }
            watches := t.engineWatches }
        x.2.putTeam uid (t.joinBatch x.1).advance) ∧
    Completes (.obInfo g d a) g named
      (fun s uid t => afterRegs s uid t (t.regs.setX d (BitVec.ofNat 64
        (r.base % 2 ^ 20 + r.length % 2 ^ 20 * 2 ^ 20 + r.format * 2 ^ 40 + r.ctl * 2 ^ 48))))

/-! ### Matrix, accumulators, control flow and overlays (majors 23 to 26) -/

/-- The matrix and accumulator instructions (R190 to R198): the geometry record, arrays created and freed, an mma or acc.st
that passes the checks of R192 or R197 joins the team's matrix operations with its sources as they stand, and the
accumulator instructions act at once on an array that no operation in flight names, or whose reported operation waits for a tret
(R337), where an acc.st reads the array at its issue. That the sources are kept as they stand at the issue (log entry 6) and what
fills the queue of matrix operations (log entry 100) are the model's readings (DEDUCED). -/
def Obligations.MatrixIssueResults : Prop :=
  ∀ (g : Option Guard) (a b d slot sa sb : Nat) (p q : Place) (arr : ArrayObj) (ra rb : RangeObj) (geom : Geometry),
    let named : State → Nat → Team → Prop := fun _ _ t => t.arrayAt (Tbl.get t.regs.ha 0 a) 6 = .ok (slot, arr)
    let idle : State → Nat → Team → Prop := fun s uid t => named s uid t ∧ t.arrayBusy slot = false
    let lanes : Instr → (State → Nat → Team → Prop) → (State → Nat → Team → State) → Prop := fun i when_ then_ =>
      ∀ s uid t, Issuing s uid t → t.status = .runnable →
        (t.performers g = [] → exec i s = .next (afterRegs s uid t t.regs)) ∧
        (t.performers g ≠ [] → when_ s uid t → exec i s = .next (then_ s uid t))
    let issued : MatKind → Option ArrayObj → State → Nat → Team → State := fun kind read s uid t =>
      ({ s with uids := s.uids + 1 } : State).putTeam uid { t.advance with eng := { t.eng with
        mats := t.eng.mats ++ [{ seq := s.uids, array := slot, gen := Pool.gen t.eng.arrays slot, kind := kind, vpc := t.ctl.pc
                                 snap := s.snapshot t.crew, watches := t.engineWatches, read := read }]
        matLast := s.uids } }
    let mma : Bool → Instr → Prop := fun zero i => lanes i
      (fun s uid t => t.arrayAt (Tbl.get t.regs.ha 0 d) 5 = .ok (slot, arr) ∧
        s.rangeAt uid t (Tbl.get t.regs.ho 0 a) 6 = .ok (sa, ra) ∧ s.rangeAt uid t (Tbl.get t.regs.ho 0 b) 7 = .ok (sb, rb) ∧
        t.matrixStall = none ∧ t.eng.geom = some geom ∧
        mmaCheck (some geom) ra rb arr.n (topQuarter t.nlane (t.lanes g)) = none)
      (fun s uid t => issued (.mma zero ra rb sa sb geom (t.lanes g)) none s uid t)
    let holds : Team → ArrayObj → Team := fun t o =>
      { t with eng := { t.eng with arrays := Tbl.modify t.eng.arrays slot (fun x => { x with obj := some o }) } }
    let elems : Team → Tbl Word → Team := fun t e => (holds t { arr with elems := e }).advance
    Completes (.unfCfg g a) g
      (fun s _ t => Reaches s t (ownAccess (t.regs.x a) 5 false) p ∧ geometryOk (s.readNat p 32) = true)
      (fun s uid t => s.putTeam uid { t.advance with eng := { t.eng with geom := some (geometryOf (s.readNat p 32)) } }) ∧
    Completes (.accAlloc g d a) g
      (fun _ _ t => Pool.lowest t.eng.arrays 64 = some slot ∧ 1 ≤ (t.regs.s a).toNat ∧ (t.regs.s a).toNat ≤ 128 ∧
        t.tilesUsed + (t.regs.s a).toNat * ((t.nlane + 7) / 8) ≤ 128)
      (fun s uid t => s.putTeam uid { t.advance with
        eng := { t.eng with arrays := Pool.put t.eng.arrays slot { n := (t.regs.s a).toNat } }
        regs := { t.regs with ha := Tbl.set t.regs.ha 0 d (Pool.handle t.eng.arrays slot) } }) ∧
    Completes (.accFree g a) g (fun s uid t => named s uid t ∧ t.eng.mats.any (t.names slot) = false)
      (fun s uid t => s.putTeam uid { t.advance with eng := { t.eng with arrays := Pool.free t.eng.arrays slot } }) ∧
    mma false (.mma g d a b) ∧ mma true (.mmaZ g d a b) ∧
    lanes (.accRd g d a b)
      (fun s uid t => idle s uid t ∧
        t.elemCheck slot (256 * arr.n * ((t.nlane + 7) / 8)) (fun l => (t.regs.v b l).toNat) false (t.performers g) = none)
      (fun s uid t => afterRegs s uid t (t.regs.setV d t.nlane (t.lanes g) fun l => Tbl.get arr.elems 0 (t.regs.v b l).toNat)) ∧
    lanes (.accWr g d a b)
      (fun s uid t => idle s uid t ∧
        t.elemCheck slot (256 * arr.n * ((t.nlane + 7) / 8)) (fun l => (t.regs.v b l).toNat) true (t.performers g) = none ∧
        ∀ k l, k < l → t.performs g k → t.performs g l → t.regs.v b k ≠ t.regs.v b l)
      (fun s uid t => s.putTeam uid (elems t ((t.performers g).foldl (fun e l => Tbl.set e 0 (t.regs.v b l).toNat (t.regs.v d l))
        arr.elems))) ∧
    Completes (.accZero g a) g (fun s uid t => idle s uid t ∧ t.zeroWatch slot (256 * arr.n * ((t.nlane + 7) / 8)) = none)
      (fun s uid t => s.putTeam uid (elems t [])) ∧
    Completes (.accPatch g d a b) g
      (fun s uid t => idle s uid t ∧ (t.regs.s b).toNat < 256 * arr.n * ((t.nlane + 7) / 8) ∧
        t.elemWatch slot 0 (t.regs.s b).toNat false true = none)
      (fun s uid t => s.putTeam uid (elems t (Tbl.set arr.elems 0 (t.regs.s b).toNat (t.regs.s d)))) ∧
    Completes (.accFlags g d a) g (fun s uid t => idle s uid t ∧ t.flagsBusy slot = false)
      (fun s uid t => s.putTeam uid { (holds t { arr with flags := 0 }).advance with regs := t.regs.setS d arr.flags }) ∧
    Completes (.accSt g d a b) g
      (fun s uid t => idle s uid t ∧ t.matrixStall = none ∧ stCtlOk (t.regs.s b) (32 * arr.n) = true ∧
        (t.regs.x d).toNat % 16 = 0 ∧
        s.extentAt t .any (t.regs.x d).toNat (accStSpan arr.n ((t.nlane + 7) / 8) (t.regs.s b)) true = .ok q)
      (fun s uid t =>
        let r := if stRnd (t.regs.s b) = 2 then allDraws (32 * arr.n) (List.range t.nlane) t.regs else ([], t.regs)
        let side : Side := { low := (t.regs.x d).toNat, place := s.home (s.fnOf t) q
                             span := accStSpan arr.n ((t.nlane + 7) / 8) (t.regs.s b) }
        (issued (.accSt side (t.regs.s b) r.1) (if t.matsOn slot = [] then none else some arr) s uid t).modTeam uid fun u => { u with regs := r.2 })

/-- Branches, calls and returns (R28, R199 to R203): a target counts quads from the quad of the branch; bra is taken when its
condition holds in every active lane; a call pushes the next slot with its BANK and frame depth, ext ret pops it. -/
def Obligations.BranchResults : Prop :=
  ∀ (s : State) (uid : Nat) (t : Team) (c : Guard) (off : BitVec 19) (a n : Nat), Issuing s uid t →
    let target : Nat := ((t.ctl.pc / 16 * 16 + 16 * off.toInt) % 2 ^ 64).toNat
    let jump : Nat → State := fun x => s.putTeam uid (t.goto x)
    let push : Nat → State := fun x => s.putTeam uid (({ t with ctl := { t.ctl with
      returns := { addr := t.ctl.pc + 4, bank := t.ctl.bank, depth := t.ctl.frames.length } :: t.ctl.returns } } : Team).goto x)
    ((∀ l, Mask.has t.ctl.active l = true → Mask.has (guardLanes t.regs (some c)) l = true) →
      exec (.bra c off) s = .next (jump target)) ∧
    ((∃ l, Mask.has t.ctl.active l = true ∧ Mask.has (guardLanes t.regs (some c)) l = false) →
      exec (.bra c off) s = .next (jump (t.ctl.pc + 4))) ∧
    (guardHolds t.regs (some c) = true → exec (.bru c off) s = .next (jump target)) ∧
    (guardHolds t.regs (some c) = false → exec (.bru c off) s = .next (jump (t.ctl.pc + 4))) ∧
    (guardHolds t.regs (some c) = true → t.ctl.returns.length < 64 → exec (.call c off) s = .next (push target)) ∧
    (guardHolds t.regs (some c) = false → exec (.call c off) s = .next (jump (t.ctl.pc + 4))) ∧
    (16 ∣ (t.regs.x a).toNat → s.overlayIn t t.ctl.bank = some n → s.inOverlay t n (t.regs.x a).toNat = true →
      exec (.extJmpi a) s = .next (jump (t.regs.x a).toNat) ∧
      (t.ctl.returns.length < 64 → exec (.extCalli a) s = .next (push (t.regs.x a).toNat))) ∧
    (∀ e l, t.ctl.returns = e :: l → e.depth = t.ctl.frames.length → s.lostOverlay t e.bank e.addr = none →
      exec .extRet s = .next (s.putTeam uid
        (({ t with ctl := { t.ctl with returns := l, bank := e.bank } } : Team).goto e.addr)))

/-- Divergence (R199, R202, R204): dvg defers the active lanes in which its condition is false under a new frame and goes on
with the others, or goes to the target when it holds in none; brk takes lanes out of the frame; cnv runs the deferred lanes,
then pops the frame and revives its lanes that have not exited; ext exit retires lanes, and the team with its last one, which
first waits in it until what it has issued is complete (R181). That the parked ext exit leaves the open batch to be closed by its own
event (log entry 27), and what of the team's work it waits for (log entry 99), are the model's readings (DEDUCED). -/
def Obligations.DivergenceResults : Prop :=
  ∀ (s : State) (uid : Nat) (t : Team) (c : Guard) (off : BitVec 19) (f : Frame) (l : List Frame), Issuing s uid t →
    let target : Nat := ((t.ctl.pc / 16 * 16 + 16 * off.toInt) % 2 ^ 64).toNat
    let go : Mask → Mask → List Frame → Nat → State := fun active exited frames pc =>
      s.putTeam uid (({ t with ctl := { t.ctl with active := active, exited := exited, frames := frames } } : Team).goto pc)
    let rest : Mask := t.ctl.active &&& ~~~(t.lanes (some c))
    (t.ctl.frames.length < 32 → t.lanes (some c) ≠ 0 →
      exec (.dvg c off) s = .next (go (t.lanes (some c)) t.ctl.exited
        ({ target := target, deferred := rest, entry := t.ctl.active } :: t.ctl.frames) (t.ctl.pc + 4))) ∧
    (t.ctl.frames.length < 32 → t.lanes (some c) = 0 → t.ctl.active ≠ 0 →
      exec (.dvg c off) s = .next (go t.ctl.active t.ctl.exited
        ({ target := target, deferred := 0, entry := t.ctl.active } :: t.ctl.frames) target)) ∧
    (t.ctl.frames = f :: l → rest ≠ 0 →
      exec (.brk c) s = .next (go rest t.ctl.exited t.ctl.frames (t.ctl.pc + 4))) ∧
    (t.ctl.frames = f :: l → rest = 0 → f.deferred ≠ 0 →
      exec (.brk c) s = .next (go f.deferred t.ctl.exited ({ f with deferred := 0 } :: l) f.target)) ∧
    (t.ctl.frames = f :: l → rest = 0 → f.deferred = 0 → s.opensCnv t f.target = true → f.entry &&& ~~~t.ctl.exited ≠ 0 →
      exec (.brk c) s = .next (go (f.entry &&& ~~~t.ctl.exited) t.ctl.exited l (f.target + 4))) ∧
    (t.ctl.frames = f :: l → f.deferred ≠ 0 →
      exec .cnv s = .next (go f.deferred t.ctl.exited ({ f with deferred := 0 } :: l) f.target)) ∧
    (t.ctl.frames = f :: l → f.deferred = 0 → f.entry &&& ~~~t.ctl.exited ≠ 0 →
      exec .cnv s = .next (go (f.entry &&& ~~~t.ctl.exited) t.ctl.exited l (t.ctl.pc + 4))) ∧
    (t.trap.handlers = [] → t.link.fabricFault = none →
      (t.ctl.frames = f :: l → f.deferred ≠ 0 →
        exec .extExit s = .next (go f.deferred (t.ctl.exited ||| t.ctl.active) ({ f with deferred := 0 } :: l) f.target)) ∧
      (t.ctl.frames = [] → s.exitReady uid t = true → exec .extExit s = .next (s.retireTeam uid)) ∧
      (t.ctl.frames = [] → s.exitReady uid t = false → t.suspFor .exit = none →
        exec .extExit s = .next ((s.putTeam uid { t with status := .parked .exit }).checkDeadlock t.crew)))

/-- Overlays (R205 to R210): ovld gives a token, RESIDENT when the other half holds the overlay, LOADING when a load of it is
under way or after queueing one; ovwait and ifence wait for no token LOADING; a fenced token that is RESIDENT lets bswap and
calt cross to a quad of its overlay; ovrel frees a token. That a second ovld joins a load that is only queued, its token LOADING, is
the model's reading (log entry 23, DEDUCED). -/
def Obligations.OverlayResults : Prop :=
  ∀ (g : Option Guard) (a b d n slot : Nat) (bank : Bank) (k : TokenObj) (r : LoadReq),
    let asks : State → Nat → Team → Prop := fun s _ t =>
      (t.regs.s a).toNat = n ∧ s.hasOverlay t n = true ∧ bank ≠ t.ctl.bank ∧ Pool.lowest t.link.tokens 16 = some slot
    let gives : TokenState → Bool → State → Nat → Team → State := fun st started s uid t =>
      let token : TokenObj := { overlay := n, half := bank, state := st, started := started }
      s.putTeam uid { t.advance with
        regs := { t.regs with hy := Tbl.set t.regs.hy 0 d (Pool.handle t.link.tokens slot) }
        link := { t.link with tokens := Pool.put t.link.tokens slot token } }
    let named : State → Nat → Team → Prop := fun _ _ t => t.tokenAt a = .ok (slot, k)
    Completes (.ovld g d a bank) g (fun s uid t => asks s uid t ∧ s.overlayIn t bank = some n) (gives .resident true) ∧
    Completes (.ovld g d a bank) g
      (fun s uid t => asks s uid t ∧ s.overlayIn t bank ≠ some n ∧ s.loadFor t bank n = some r) (gives .loading r.started) ∧
    Completes (.ovld g d a bank) g
      (fun s uid t => asks s uid t ∧ s.overlayIn t bank ≠ some n ∧ s.loadFor t bank n = none)
      (fun s uid t => gives .loading false (s.queueToken t bank n) uid t) ∧
    Completes (.ovwait g d a) g (fun s uid t => named s uid t ∧ t.tokenLoading slot = false)
      (fun s uid t => afterRegs s uid t (t.regs.setQ d (k.state == .resident))) ∧
    Completes (.ifence g) g (fun _ _ t => t.anyLoading = false)
      (fun s uid t => s.putTeam uid { t.advance with link := { t.link with tokens := t.link.tokens.map fun e =>
        (e.1, { e.2 with obj := e.2.obj.map fun k => if k.state = .resident then { k with fenced := true } else k }) } }) ∧
    Completes (.bswap g a) g
      (fun s _ t => bank = otherBank t.ctl.bank ∧
        List.find? (fun k => k.state == .resident && k.fenced) (t.tokensOf bank) = some k ∧
        16 ∣ (t.regs.x a).toNat ∧ s.inOverlay t k.overlay (t.regs.x a).toNat = true)
      (fun s uid t => s.putTeam uid (({ t with ctl := { t.ctl with bank := bank } } : Team).goto (t.regs.x a).toNat)) ∧
    Completes (.calt g a b) g
      (fun s uid t => named s uid t ∧ k.state = .resident ∧ k.fenced = true ∧ 16 ∣ (t.regs.x b).toNat ∧
        s.inOverlay t k.overlay (t.regs.x b).toNat = true ∧ t.ctl.returns.length < 64)
      (fun s uid t => s.putTeam uid (({ t with ctl := { t.ctl with
        bank := k.half
        returns := { addr := t.ctl.pc + 4, bank := t.ctl.bank, depth := t.ctl.frames.length } :: t.ctl.returns } } : Team).goto
          (t.regs.x b).toNat)) ∧
    Completes (.ovrel g a) g (fun s uid t => named s uid t ∧ t.tokenLoading slot = false)
      (fun s uid t => s.putTeam uid { t.advance with link := { t.link with tokens := Pool.free t.link.tokens slot } })

/-! ### Launches, groups and system instructions (majors 27 to 29, rdsp and wrsp) -/

/-- Launch instructions (R212, R213): lch submits the packet at its address and writes the result code and the failing field;
cjoin goes on when the object is complete; lstat reports it. -/
def Obligations.LaunchInstructionResults : Prop :=
  ∀ (g : Option Guard) (a d : Nat) (p : Place),
    Completes (.lch g d a) g (fun s _ t => Reaches s t (ownAccess (t.regs.x a) 6 false) p)
      (fun s uid t =>
        let y := s.submit (s.fnOf t) (s.readNat p 64)
        y.2.2.putTeam uid { t.advance with regs := t.regs.setS d (BitVec.ofNat 32 (y.1 + 256 * y.2.1)) }) ∧
    Completes (.cjoin g a) g
      (fun s _ t => 32 ∣ (t.regs.x a).toNat ∧ Reaches s t (ownAccess (t.regs.x a) 4 false) p ∧
        ((objOf (s.readNat p 16)).status ≠ 0 ∨ 0 ≤ ((objOf (s.readNat p 16)).arrived - (objOf (s.readNat p 16)).expected).toInt))
      (fun s uid t => afterRegs s uid t t.regs) ∧
    Completes (.cjoin g a) g
      (fun s _ t => 32 ∣ (t.regs.x a).toNat ∧ Reaches s t (ownAccess (t.regs.x a) 4 false) p ∧
        (objOf (s.readNat p 16)).status = 0 ∧ ((objOf (s.readNat p 16)).arrived - (objOf (s.readNat p 16)).expected).toInt < 0)
      (fun s uid t => (s.putTeam uid { t with status := .parked (.cjoin (t.regs.x a)) }).checkDeadlock t.crew) ∧
    Completes (.lstat g d a) g
      (fun s _ t => 32 ∣ (t.regs.x a).toNat ∧ Reaches s t (ownAccess (t.regs.x a) 4 false) p)
      (fun s uid t =>
        let o := objOf (s.readNat p 16)
        let done : Bool := o.status ≠ 0 ∨ 0 ≤ (o.arrived - o.expected).toInt
        afterRegs s uid t (t.regs.setS d (BitVec.ofNat 32
          ((if done then 1 else 0) + (if o.status ≠ 0 then 2 else 0) + o.flags.toNat % 512 * 4))))

/-- Transaction groups at the origin (R214 to R218, R441): tg.open takes a slot and a number, tst stages each performed lane's
store in rising order, tg.commit ends a group without stores at once or asks every destination to prepare, tg.abort decides
it, tg.wait takes the outcome of one that is DONE. -/
def Obligations.GroupInstructionResults : Prop :=
  ∀ (g : Option Guard) (T xb vo h slot num : Nat) (gr : Group) (pl : Nat → Place) (to_ : Nat → Nat × Nat),
    let named : State → Nat → Team → Prop := fun s _ t => s.groupAt t h = .ok (slot, num, gr)
    let stages : Nat → (Regs → Nat → Nat) → Instr → Prop := fun log2 val i =>
      ∀ s uid t, Issuing s uid t → t.status = .runnable → Unasked s uid t →
        (t.performers g = [] → exec i s = .next (afterRegs s uid t t.regs)) ∧
        (t.performers g ≠ [] → named s uid t → gr.phase = .open_ →
          (∀ l, t.left.performs g l → inLocal (t.ea xb vo 0 (2 ^ log2) l) = false ∧
            s.checkAccess t (laneAccess t xb vo 0 log2 false true l) = .ok (pl l) ∧ s.stageTarget (pl l) = some (to_ l)) →
          (∀ k l, k < l → t.left.performs g k → t.left.performs g l → t.ea xb vo 0 (2 ^ log2) k ≠ t.ea xb vo 0 (2 ^ log2) l) →
          exec i s = .next (((t.left.performers g).foldl (fun s l => ({ s with fresh := s.fresh + 1 } : State).stageOne num
            (to_ l).1 (to_ l).2 (leBytes (2 ^ log2) (val t.regs l))) s).modTeam uid Team.advance))
    Completes (.tgOpen g h) g
      (fun s _ t => Pool.lowest t.link.groups 16 = some slot ∧ s.groupFree (s.fnOf t) = true ∧ s.groupNumber = some num)
      (fun s uid t =>
        let x : Group := { fn := s.fnOf t, uid := uid }
        let s1 : State := { s with fab := { s.fab with groups := Tbl.insert s.fab.groups num x, nextGroup := (num + 1) % 65536 } }
        s1.putTeam uid { t.advance with
          regs := { t.regs with hh := Tbl.set t.regs.hh 0 h (Pool.handle t.link.groups slot) }
          link := { t.link with groups := Pool.put t.link.groups slot { number := num } } }) ∧
    stages 2 (fun r l => (r.v T l).toNat) (.tstB32 g T xb vo h) ∧
    stages 3 (fun r l => (r.w T l).toNat) (.tstB64 g T xb vo h) ∧
    stages 4 (fun r l => (r.v T l).toNat + 2 ^ 32 * (r.v (T + 1) l).toNat + 2 ^ 64 * (r.v (T + 2) l).toNat +
      2 ^ 96 * (r.v (T + 3) l).toNat) (.tstB128 g T xb vo h) ∧
    Completes (.tgCommit g h) g
      (fun s uid t => named s uid t ∧ gr.phase = .open_ ∧ t.link.fabricFault = none ∧ gr.dests = [])
      (fun s uid t => (s.putTeam uid t.advance).modGroup num fun x => { x with phase := .done, outcome := 1 }) ∧
    Completes (.tgCommit g h) g
      (fun s uid t => named s uid t ∧ gr.phase = .open_ ∧ t.link.fabricFault = none ∧ gr.dests ≠ [] ∧
        ∀ e ∈ gr.dests, e.2.st ≠ .lost)
      (fun s uid t => gr.dests.foldl (fun s' d =>
          s'.sendGroup { gid := s'.gid num gr, src := s'.node, dst := d.1, body := .prepare d.2.count (gr.dests.map (·.1)) })
        ((s.putTeam uid t.advance).modGroup num fun x => { x with
          phase := .preparing, upto := t.eng.fabIssued
          dests := gr.dests.map fun d => (d.1, { d.2 with st := .asked }) })) ∧
    Completes (.tgAbort g h) g (fun s uid t => named s uid t ∧ gr.phase = .open_)
      (fun s uid t => (s.putTeam uid t.advance).abortGroup num 1 none) ∧
    Completes (.tgWait g T h) g (fun s uid t => named s uid t ∧ gr.phase = .done)
      (fun s uid t => (s.takeGroup num).modTeam uid fun u => { u.advance with
        regs := t.regs.setS T (BitVec.ofNat 32 (gr.outcome % 4 + gr.reason % 256 * 2 ^ 8 + (match gr.node with
          | some n => n % 1024 * 2 ^ 16 + 2 ^ 26
          | none => 0)))
        link := { t.link with groups := Pool.free t.link.groups slot } }) ∧
    Completes (.tgWait g T h) g (fun s uid t => named s uid t ∧ gr.phase ≠ .open_ ∧ gr.phase ≠ .done)
      (fun s uid t => (s.putTeam uid { t with status := .parked (.tgWait T slot) }).checkDeadlock t.crew)

/-- nop, rdsp and wrsp (R21, R56, R104 to R106, R345) at a level that may make the access: rdsp writes the value that the table of
R105 gives the register and nothing else, CYCLES never going back; wrsp replaces the bits that the register has. A write of
CYCLES sets the core's counter and has every team on the core log its next marker anew (R368). Which trap state a write reaches (log
entry 103, DESIGN CHOICE) and that TCAUSE keeps bits [7:0] of what is written (log entry 68, DEDUCED) are the model's. -/
def Obligations.SpecialRegisterResults : Prop :=
  ∀ (g : Option Guard) (d a n : Nat) (s : State) (uid : Nat) (t : Team) (c : Crew) (l : Launch), Issuing s uid t →
    Tbl.find? s.crews t.crew = some c → Tbl.find? s.launches c.launch = some l →
    let core : Nat := (c.place.map (·.1)).getD 0
    let on : State := afterRegs s uid t t.regs
    -- the saved trap state that the team sees: its innermost handler's, or that of the most recent trap
    let tr : TrapState := match t.trap.handlers with
      | [] => t.trap.last
      | f :: _ => f.trap
    let saved : TrapState → Team := fun x => match t.trap.handlers with
      | [] => { t with trap := { t.trap with last := x } }
      | f :: fs => { t with trap := { t.trap with handlers := { f with trap := x } :: fs } }
    let reads : SpReg → Nat → Regs → Prop := fun r level v =>
      (level ≤ t.ctl.priv.rank → guardHolds t.regs g = true → exec (.rdsp g d r) s = .next (afterRegs s uid t v)) ∧
      (level ≤ t.ctl.priv.rank → guardHolds t.regs g = false → exec (.rdsp g d r) s = .next on)
    let S : SpReg → Nat → Word → Prop := fun r level v => reads r level (t.regs.setS d v)
    let X : SpReg → Nat → Word64 → Prop := fun r level v => reads r level (t.regs.setX d v)
    let writes : SpReg → Nat → Team → Prop := fun r level u =>
      level ≤ t.ctl.priv.rank → guardHolds t.regs g = true → exec (.wrsp g a r) s = .next (s.putTeam uid u.advance)
    exec .nop s = .next on ∧
    S .team 0 (BitVec.ofNat 32 t.index) ∧ S .crew 0 (BitVec.ofNat 32 c.index) ∧
    S .table 0 (BitVec.ofNat 32 (c.table.getD 0)) ∧ S .nteam 0 (BitVec.ofNat 32 c.nteam) ∧
    S .nlane 0 (BitVec.ofNat 32 t.nlane) ∧ S .ncrew 0 (BitVec.ofNat 32 l.pkt.ncrew) ∧
    X .launch 0 l.serial ∧ X .argbase 0 l.pkt.argbase ∧ X .scrbase 0 0xFFFFFF0000000000 ∧
    S .nflags 0 t.regs.nflags ∧ S .fpmode 0 t.regs.fpmode ∧
    S .bank 0 (if t.ctl.bank = .a then 0 else 1) ∧
    S .priv 0 (match t.ctl.priv with
      | .u => 0
      | .s => 1
      | .h => 2) ∧
    S .tcause 1 tr.cause ∧ X .tvpc 1 tr.vpc ∧ X .taddr 1 tr.addr ∧ S .tinfo 1 tr.info ∧
    S (.tdone n) 1 (if 32 * n < t.nlane then BitVec.ofNat 32 (tr.done.toNat / 2 ^ (32 * n)) else 0) ∧
    S .vf 1 (BitVec.ofNat 32 c.fn) ∧ S .core 2 (BitVec.ofNat 32 core) ∧ S .split 0 (BitVec.ofNat 32 c.split) ∧
    (∃ r, WritesV t g d (fun l => t.regs.sr l) (fun _ => 0) r ∧ exec (.rdsp g d .srseed) s = .next (afterRegs s uid t r)) ∧
    (∃ (v : Word64) (s1 : State), (Tbl.get s.cycles 0 core).toNat ≤ v.toNat ∧ Tbl.get s1.cycles 0 core = v ∧
      (∀ k, k ≠ core → Tbl.get s1.cycles 0 k = Tbl.get s.cycles 0 k) ∧ { s1 with cycles := s.cycles, fresh := s.fresh } = s ∧
      (guardHolds t.regs g = true →
        exec (.rdsp g d .cycles) s = .next (s1.putTeam uid { t with regs := t.regs.setX d v }.advance))) ∧
    (guardHolds t.regs g = false → exec (.rdsp g d .cycles) s = .next on) ∧
    (∀ r, r ≠ .srseed → spWriteLevel r ≤ t.ctl.priv.rank → guardHolds t.regs g = false → exec (.wrsp g a r) s = .next on) ∧
    writes .nflags 0 { t with regs := { t.regs with nflags := BitVec.ofNat 32 ((t.regs.s a).toNat % 2 ^ 9) } } ∧
    writes .fpmode 0 { t with regs := { t.regs with fpmode := BitVec.ofNat 32 ((t.regs.s a).toNat % 2 ^ 4) } } ∧
    writes .tcause 1 (saved { tr with cause := BitVec.ofNat 32 ((t.regs.s a).toNat % 2 ^ 8) }) ∧
    writes .tvpc 1 (saved { tr with vpc := t.regs.x a }) ∧
    writes .taddr 1 (saved { tr with addr := t.regs.x a }) ∧
    writes .tinfo 1 (saved { tr with info := t.regs.s a }) ∧
    (32 * n < t.nlane → writes (.tdone n) 1 (saved { tr with done := setMaskWord tr.done n (t.regs.s a) })) ∧
    (t.nlane ≤ 32 * n → writes (.tdone n) 1 t) ∧
    (∃ r, (∀ l, t.performs g l → r.sr l = srStore (t.regs.v a l)) ∧ (∀ l, ¬ t.performs g l → r.sr l = t.regs.sr l) ∧
      { r with srt := t.regs.srt } = t.regs ∧ exec (.wrsp g a .srseed) s = .next (afterRegs s uid t r)) ∧
    (t.ctl.priv = .h → guardHolds t.regs g = true → ∃ s', exec (.wrsp g a .cycles) s = .next s' ∧
      Tbl.get s'.cycles 0 core = t.regs.x a ∧ (∀ k, k ≠ core → Tbl.get s'.cycles 0 k = Tbl.get s.cycles 0 k) ∧
      { s' with cycles := s.cycles, teams := s.teams } = s ∧
      (∃ t', Tbl.find? s'.teams uid = some t' ∧ t'.regs = t.regs ∧ t'.ctl = t.advance.ctl) ∧
      ∀ u x, Tbl.find? s.teams u = some x → ∃ x', Tbl.find? s'.teams u = some x' ∧
        ((s.placeOf x).map (·.1) = some core → x'.link.resync = true) ∧
        (u ≠ uid → { x' with link := { x'.link with resync := x.link.resync } } = x))

/-- The system instructions (R41, R158, R220 to R226, R338, R345, R346, R366 to R369): where each has its own effect. trap and brkpt
take their exception; tret pops the handler's frame and restores what it saved, going on after the slot for BRKPT and SWTRAP and
at it otherwise, with the lanes of TDONE to be skipped and, for WATCH, the reported access exempt; halt stops the launch: STATUS 3
unless a kill came first, its crews that are saved or wait for overlays gone, the teams that stand at safe points retired or
retiring, with no frame and no handler, and the others as they are until theirs; mark logs the drift from the last marker;
watchpoints, counters and configuration registers as their rules say. The model's own: the skip mask ignored after SWTRAP and BRKPT
(log entry 67), where the teams of a halted launch stop (log entry 29), wpt.set and wpt.clr acting on operations in flight (log
entry 66), a marker that is not logged (log entry 104), and counters that have gone on by free amounts (log entry 102). -/
def Obligations.SystemResults : Prop :=
  ∀ (g : Option Guard) (d a b : Nat) (imm : Word) (p : Place) (w : Watch) (f : TrapFrame) (rest : List TrapFrame) (c : Crew)
    (l : Launch),
    Completes (.trap g imm) g (fun _ _ _ => True) (fun s uid _ => s.raise uid { cause := .swtrap, info := imm }) ∧
    Completes (.brkpt g imm) g (fun _ _ _ => True) (fun s uid _ => s.raise uid { cause := .brkpt, info := imm }) ∧
    (∀ s uid t, Issuing s uid t → t.ctl.priv ≠ .u → t.trap.handlers = f :: rest → 4 ∣ f.trap.vpc.toNat → s.frameOk t f = true →
      let after : Prop := f.trap.cause = 0x09 ∨ f.trap.cause = 0x0A
      ∃ t', exec .tret s = .next ((s.traceTeam t 3 t.ctl.pc (BitVec.ofNat 64 rest.length)).putTeam uid t') ∧
        t'.regs = t.regs ∧ t'.trap = { t.trap with handlers := rest } ∧ t'.link = t.link ∧ t'.status = t.status ∧
        (f.trap.eng = none → t'.eng = t.eng) ∧
        t'.ctl = { t.ctl with
          pc := f.trap.vpc.toNat + (if after then 4 else 0)
          bank := f.bank, active := f.active, frames := f.frames, returns := f.returns, priv := f.priv, barrier := f.barrier
          skip := if after then 0 else f.trap.done
          arrived := decide (¬ after ∧ f.arrived = some f.trap.vpc.toNat)
          exempt := if f.trap.cause = 0x08 then f.exempt else none }) ∧
    (∀ s uid t, Issuing s uid t → t.ctl.priv ≠ .u → Tbl.find? s.crews t.crew = some c → Tbl.find? s.launches c.launch = some l →
      ∃ s', exec .halt s = .next s' ∧
        (∃ l', Tbl.find? s'.launches c.launch = some l' ∧ l'.halted = true ∧ l'.status = if l.status = 0 then 3 else l.status) ∧
        (∀ k y, Tbl.find? s.crews k = some y → y.launch = c.launch → y.live = false →
          Tbl.find? s'.crews k = none ∧ ∀ u x, Tbl.find? s.teams u = some x → x.crew = k → Tbl.find? s'.teams u = none) ∧
        (∀ u x y, Tbl.find? s.teams u = some x → Tbl.find? s.crews x.crew = some y → y.launch = c.launch → y.live = true →
          (x.status ≠ .retired → x.stands = true ∨ u = uid → ∀ x', Tbl.find? s'.teams u = some x' →
            (x'.status = .retired ∨ x'.status = .parked .exit) ∧ x'.trap.handlers = [] ∧ x'.ctl.frames = []) ∧
          (x.stands = false → u ≠ uid → (∀ e ∈ s.teams, e.1 = u → e.2 = x) → (∀ e ∈ s.crews, e.1 = x.crew → e.2 = y) →
            ∃ x', Tbl.find? s'.teams u = some x' ∧ x'.status = x.status ∧ x'.regs = x.regs ∧ x'.ctl = x.ctl ∧ x'.trap = x.trap))) ∧
    Completes (.mark g imm) g (fun s _ t => ((s.fn (s.fnOf t)).tracing && (s.fn (s.fnOf t)).marks) = false)
      (fun s uid t => s.putTeam uid { t.advance with link := { t.link with detail := false } }) ∧
    Completes (.mark g imm) g (fun s _ t => ((s.fn (s.fnOf t)).tracing && (s.fn (s.fnOf t)).marks) = true)
      (fun s uid t =>
        let r := s.fn (s.fnOf t)
        let e := s.takeWord64
        let c := e.2.tickCore (s.coreOf t)
        let passed : Int := ((c.1.toNat : Int) - t.link.lastMark.1.toNat) - ((e.1.toNat : Int) - t.link.lastMark.2.toNat)
        let drift : Word := if t.link.resync then 0 else BitVec.ofInt 32 (max (-2 ^ 31) (min (2 ^ 31 - 1) passed))
        (c.2.traceAt t 1 t.ctl.pc
            (BitVec.ofNat 64 (drift.toNat * 2 ^ 32 + imm.toNat % 2 ^ 31 * 2 + (if t.link.resync then 1 else 0))) c.1).putTeam uid
          { t.advance with link := { t.link with
              resync := false, lastMark := (c.1, e.1)
              detail := r.detail && decide (r.trctl.toNat / 2 ^ 32 < drift.toInt.natAbs) } }) ∧
    Completes (.wptSet g a b) g
      (fun s _ t => Reaches s t (ownAccess (t.regs.x b) 5 false) p ∧ t.watchCheck (t.regs.s a) (s.readNat p 32) = .ok w)
      (fun s uid t => s.putTeam uid { t.advance with
        eng := t.eng.unwatch (t.regs.s a).toNat
        link := { t.link with watches := Tbl.insert t.link.watches (t.regs.s a).toNat w } }) ∧
    Completes (.wptClr g a) g (fun _ _ t => (t.regs.s a).toNat < 16)
      (fun s uid t => s.putTeam uid { t.advance with
        eng := t.eng.unwatch (t.regs.s a).toNat
        link := { t.link with watches := Tbl.erase t.link.watches (t.regs.s a).toNat } }) ∧
    (∀ s uid t, Ready s uid t g → ∃ n : Nat,
      -- what stands behind a counter that goes on by itself: some free amount later
      let later : Word64 → Word64 → Prop := fun old new => old.toNat ≤ new.toNat
      let s1 : State := { s with fresh := n }
      let i := (t.regs.s a).toNat
      let v := s.fnOf t
      let r := s.fn v
      let reads : Word64 → Prop := fun x => exec (.perfRd g d a) s = .next (afterRegs s1 uid t (t.regs.setX d x))
      let team : (Word64 → Links) → Word64 → Prop := fun k old => ∃ x, later old x ∧
        exec (.perfRd g d a) s = .next (s1.putTeam uid ({ t with link := k x, regs := t.regs.setX d x } : Team).advance)
      let fn : (Word64 → Fn) → Word64 → Prop := fun k old => ∃ x, later old x ∧
        exec (.perfRd g d a) s = .next (afterRegs (s1.modFn v fun _ => k x) uid t (t.regs.setX d x))
      (i = 0x00 → team (fun x => { t.link with bundles := x }) t.link.bundles) ∧
      (i = 0x01 → team (fun x => { t.link with parked := x }) t.link.parked) ∧
      (i = 0x02 → reads t.link.rollbacks) ∧ (i = 0x03 → reads t.link.aliases) ∧ (i = 0x04 → reads t.link.skips) ∧
      (i = 0x05 → reads t.link.replays) ∧
      (i = 0x10 → fn (fun x => { r with l2hit := x }) r.l2hit) ∧ (i = 0x11 → fn (fun x => { r with l2miss := x }) r.l2miss) ∧
      (i = 0x12 → fn (fun x => { r with l2evict := x }) r.l2evict) ∧
      (i = 0x13 → s.rated v = true → fn (fun x => { r with vinterf := x }) r.vinterf) ∧
      (i = 0x13 → s.rated v = false → reads r.vinterf) ∧
      (i = 0x14 → reads r.vperturb) ∧ (i = 0x15 → reads r.vtrlost) ∧ (i = 0x16 → reads r.vprq) ∧
      (5 < i → (i < 0x10 ∨ 0x16 < i) → reads 0)) ∧
    Completes (.cfgRd g d a) g (fun _ _ t => t.ctl.priv ≠ .u ∧ t.cfgCheck (t.regs.x a) false = none)
      (fun s uid t =>
        let v := s.cfgWindow t (t.regs.x a)
        afterRegs s uid t (t.regs.setX d
          (s.cfgRead (t.ctl.priv == Priv.h) (if v = s.fnOf t then some t else none) v ((t.regs.x a).toNat % 2 ^ 32)))) ∧
    Completes (.cfgWr g a b) g (fun _ _ t => t.ctl.priv ≠ .u ∧ t.cfgCheck (t.regs.x a) true = none)
      (fun s uid t => (afterRegs s uid t t.regs).cfgWrite (t.ctl.priv == Priv.h) (s.cfgWindow t (t.regs.x a))
        ((t.regs.x a).toNat % 2 ^ 32) (t.regs.x b))

/-! ### Exceptions (R57, R58, R146, R157, R239, R341 to R348) -/

/-- Delivery (R57, R342, R343, R344): an exception whose handler's overlay stands in a half saves the trap state in a new frame
with BANK, the active mask, the frames, the return stack, PRIV and the barrier record, and goes on at HVEC.ADDR at level S with
empty stacks, or, in a launch that has been halted, stops there for good (R226, R347); otherwise, outside every handler, the overlay
is loaded into the half that BANK does not name and the team waits for it with the trap state kept. -/
def Obligations.TrapDelivery : Prop :=
  ∀ (s : State) (uid : Nat) (t : Team) (tr : Trap) (b : Bank) (c : Crew) (p : Nat × Nat),
    let h := Tbl.get (s.fn (s.fnOf t)).hvec 0 tr.cause.code
    let addr := h.toNat % 2 ^ 32
    let saved : TrapState :=
      { cause := BitVec.ofNat 32 tr.cause.code, vpc := BitVec.ofNat 64 t.ctl.pc, addr := tr.addr, info := tr.info
        done := tr.done, eng := tr.eng }
    Tbl.find? s.teams uid = some t → (s.fn (s.fnOf t)).trctl.getLsbD 0 = false →
    tr.cause ≠ .lttMiss → tr.cause ≠ .double →
    ¬ (tr.cause = .probe ∧ (tr.info.toNat / 2 ^ 19 % 8 = 3 ∨ tr.info.toNat / 2 ^ 19 % 8 = 4)) →
    t.trap.handlers.length < 2 → h.getLsbD 63 = true →
    (s.bankHolding t (addr / 2 ^ 15) = some b → s.launchHalted t = true → ∃ t', Tbl.find? (s.raise uid tr).teams uid = some t' ∧
      t'.status = .parked .exit ∧ t'.trap.handlers = [] ∧ t'.ctl.frames = []) ∧
    (s.bankHolding t (addr / 2 ^ 15) = some b → s.launchHalted t = false → ∃ t' f, s.raise uid tr = s.putTeam uid t' ∧
      t'.trap = { handlers := f :: t.trap.handlers, last := saved } ∧ f.trap = saved ∧ f.bank = t.ctl.bank ∧
      f.active = t.ctl.active ∧ f.frames = t.ctl.frames ∧ f.returns = t.ctl.returns ∧ f.priv = t.ctl.priv ∧
      f.barrier = t.ctl.barrier ∧ f.arrived = (if t.ctl.arrived then some t.ctl.pc else none) ∧
      f.exempt = (if tr.cause = .watch ∧ tr.eng = none then
        let n := tr.info.toNat / 2 ^ 15 % 16
        some { vpc := t.ctl.pc % 2 ^ 64, lane := tr.info.toNat % 1024, addr := tr.addr
               watch := (Tbl.find? t.link.watches n).map fun w => (n, w) } else none) ∧
      t'.status = .runnable ∧ t'.regs = t.regs ∧ t'.eng = t.eng ∧
      t'.ctl = { t.ctl with pc := addr, bank := b, frames := [], returns := [], priv := .s, skip := 0, arrived := false
                            under := none, breaks := [], exempt := none } ∧
      t'.link = { t.link with delivery := none, answers := [], fabricFault := if tr.recorded then none else t.link.fabricFault
                              stopped := t.link.stopped || s.crewStops t }) ∧
    (s.bankHolding t (addr / 2 ^ 15) = none → t.trap.handlers = [] → s.placeOf t = some p → Tbl.find? s.crews t.crew = some c →
      ∃ t', s.raise uid tr = (s.putTeam uid t').modSub p (fun x => { x with loads := x.loads ++
          [{ half := otherBank t.ctl.bank, set := c.set, overlay := addr / 2 ^ 15, fn := s.fnOf t, why := .delivery uid }] }) ∧
        t'.status = .parked (.reload (otherBank t.ctl.bank) (addr / 2 ^ 15) (BitVec.ofNat 64 addr)) ∧
        t'.link = { (t.staleTokens (otherBank t.ctl.bank)).link with
          delivery := some saved, answers := [], fabricFault := if tr.recorded then none else t.link.fabricFault } ∧
        t'.ctl = { t.ctl with under := none, breaks := [] } ∧ t'.regs = t.regs ∧ t'.trap = t.trap ∧ t'.eng = t.eng)

/-- A fatal exception (R239, R240, R341, R344, R348, R357): LTT_MISS, PROBE with REASON 3 or 4, any whose HVEC.EN is 0, and, as
DOUBLE, any at handler depth 2 and any at depth 1 whose handler's overlay no half holds. Every crew of the team's table, or its
crew alone, is gone with all of its teams; the launch counts them as retired, its STATUS is 1 unless it was set before, and the
fault log takes the trap when it is clear. The teams of other crews go on as they stand, and so do those crews but for one that
waited for these to begin; other launches are unchanged, and no byte of memory changes when no trace record is written, no page
request waits, and the teams gone have no engine operation in flight. -/
def Obligations.KillResults : Prop :=
  ∀ (s : State) (uid : Nat) (t : Team) (tr : Trap) (c : Crew) (l : Launch),
    let h : Word64 := Tbl.get (s.fn c.fn).hvec 0 tr.cause.code
    let fatal : Prop := tr.cause = .lttMiss ∨
      (tr.cause = .probe ∧ (tr.info.toNat / 2 ^ 19 % 8 = 3 ∨ tr.info.toNat / 2 ^ 19 % 8 = 4))
    let homeless : Prop := h.getLsbD 63 = true ∧ t.trap.handlers.length = 1 ∧ s.bankHolding t (h.toNat % 2 ^ 32 / 2 ^ 15) = none
    let double : Prop := ¬ fatal ∧ (t.trap.handlers.length = 2 ∨ homeless)
    let gone : Nat → Crew → Prop := fun k d => k = t.crew ∨ (c.table ≠ none ∧ d.table = c.table ∧ d.launch = c.launch)
    let s' := s.raise uid tr
    Tbl.find? s.teams uid = some t → Tbl.find? s.crews t.crew = some c → Tbl.find? s.launches c.launch = some l →
    tr.cause ≠ .double → (fatal ∨ t.trap.handlers.length = 2 ∨ h.getLsbD 63 = false ∨ homeless) →
    Tbl.find? s'.teams uid = none ∧ Tbl.find? s'.crews t.crew = none ∧
    (∃ l', Tbl.find? s'.launches c.launch = some l' ∧ l'.status = if l.status = 0 then 1 else l.status) ∧
    ((s.fn c.fn).flog0 ≠ 0 → (s'.fn c.fn).flog0 = (s.fn c.fn).flog0) ∧
    ((s.fn c.fn).flog0 = 0 →
      (s'.fn c.fn).flog1 = BitVec.ofNat 64 t.ctl.pc ∧ (s'.fn c.fn).flog2 = tr.addr ∧
      (s'.fn c.fn).flog3 = BitVec.ofNat 64 (l.serial.toNat % 2 ^ 32 * 2 ^ 32 + tr.info.toNat) ∧
      (double → (s'.fn c.fn).flog0 = BitVec.ofNat 64 (c.index * 2 ^ 32 + tr.cause.code * 2 ^ 16 + t.index * 256 + 0x15)) ∧
      (¬ double → (s'.fn c.fn).flog0 = BitVec.ofNat 64 (c.index * 2 ^ 32 + t.index * 256 + tr.cause.code))) ∧
    -- what goes
    (∀ k d, Tbl.find? s.crews k = some d → gone k d → Tbl.find? s'.crews k = none ∧
      ∀ u x, Tbl.find? s.teams u = some x → x.crew = k → Tbl.find? s'.teams u = none) ∧
    -- what stays
    (Tbl.sortedFrom 0 s.crews = true → Tbl.sortedFrom 0 s.teams = true →
      (∃ l', Tbl.find? s'.launches c.launch = some l' ∧ l'.retired = l.retired + (s.tableCrews t.crew).length) ∧
      (∀ m, m ≠ c.launch → Tbl.find? s'.launches m = Tbl.find? s.launches m) ∧
      (∀ k d, Tbl.find? s.crews k = some d → ¬ gone k d → ∃ d', Tbl.find? s'.crews k = some d' ∧ d'.launch = d.launch ∧
        d'.place = d.place ∧ d'.contexts = d.contexts ∧ d'.set = d.set ∧ d'.tracks = d.tracks ∧ d'.ranges = d.ranges ∧
        (d'.status = d.status ∨ ((d.status = .filling ∨ d.status = .restoring) ∧ d'.status = .running))) ∧
      (∀ u x, Tbl.find? s.teams u = some x → (∀ d, Tbl.find? s.crews x.crew = some d → ¬ gone x.crew d) →
        ∃ x', Tbl.find? s'.teams u = some x' ∧ x'.crew = x.crew ∧ x'.status = x.status ∧ x'.regs = x.regs ∧ x'.ctl = x.ctl ∧
          x'.trap = x.trap ∧ x'.eng = x.eng) ∧
      ((∀ v, (s.fn v).prqWait = []) → (s.fn c.fn).trctl.getLsbD 0 = false →
        (∀ u x d, Tbl.find? s.teams u = some x → Tbl.find? s.crews x.crew = some d → gone x.crew d →
          x.eng.flying = [] ∧ x.eng.mats = []) →
        s'.mem = s.mem ∧ s'.host = s.host))

/-- Traps of instructions. Of one lane of a load or store (R146, R157): the lanes below it have been performed and no other,
their results stand, no other register changes, and TDONE names exactly them, as log entry 12 reads R158. PRIV and its neighbours (R41, R58, R225, R346, R347): an access to a special
register below its level, tret, halt, cfg.rd and cfg.wr at U, whatever the guard; under a true guard, an address of cfg.rd and
cfg.wr above the windows, another function's window below H, and one not aligned to 8; tret outside every handler and ext exit
within one. -/
def Obligations.InstructionTraps : Prop :=
  (∀ (g : Option Guard) (T xb vo k : Nat) (disp : Word) (tr : Trap),
     let before : Team → Nat → Prop := fun t l => l < k ∧ t.performs g l
     let names : Team → Mask → Prop := fun t m => ∀ l, l < 1024 → (Mask.has m l = true ↔ before t l)
     let fails : Nat → Bool → Bool → State → Nat → Team → (Nat → Place) → Prop := fun log2 rd wr s uid t pl =>
       Issuing s uid t ∧ Fresh s uid t ∧ t.eng.fabric.length < 8191 ∧ t.performs g k ∧
       (∀ l, before t l → Reaches s t (laneAccess t xb vo disp log2 rd wr l) (pl l)) ∧
       s.checkAccess t (laneAccess t xb vo disp log2 rd wr k) = .error tr
     let loads : Nat → (Team → (Nat → Nat) → Regs → Prop) → Instr → Prop := fun log2 result i =>
       ∀ s uid t pl, fails log2 true false s uid t pl →
         ∃ u r m, exec i s = .next ((({ s with uids := u } : State).putTeam uid { t with regs := r }).raise uid { tr with done := m }) ∧
           names t m ∧ result (t.only (BitVec.ofNat 1024 (2 ^ k - 1))) (fun l => s.readNat (pl l) (2 ^ log2)) r
     let narrow : Team → (Nat → Nat) → Regs → Prop := fun t val => WritesV t g T (fun l => BitVec.ofNat 32 (val l)) fun _ => 0
     let stores : Nat → (Regs → Nat → Nat) → Instr → Prop := fun log2 val i => ∀ s uid t pl, fails log2 false true s uid t pl →
       (t.released = true → t.link.fabricFault = none) →
       (∀ j l, j < l → l < k → t.performs g j → t.performs g l → t.ea xb vo disp (2 ^ log2) j ≠ t.ea xb vo disp (2 ^ log2) l) →
       ∃ u m, names t m ∧ exec i s = .next (((((t.performers g).filter (fun l => decide (l < k))).foldl
         (fun s l => s.writeNat (pl l) (2 ^ log2) (val t.regs l)) ({ s with uids := u } : State)).raise uid { tr with done := m }))
     loads 0 narrow (.ldB8 g T xb vo disp) ∧ loads 1 narrow (.ldB16 g T xb vo disp) ∧ loads 2 narrow (.ldB32 g T xb vo disp) ∧
     loads 3 (fun t val => WritesW t g T fun l => BitVec.ofNat 64 (val l)) (.ldB64 g T xb vo disp) ∧
     loads 4 (fun t val => WritesQuad t g T val) (.ldB128 g T xb vo disp) ∧
     stores 0 (fun r l => (r.v T l).toNat % 2 ^ 8) (.stB8 g T xb vo disp) ∧
     stores 1 (fun r l => (r.v T l).toNat % 2 ^ 16) (.stB16 g T xb vo disp) ∧
     stores 2 (fun r l => (r.v T l).toNat) (.stB32 g T xb vo disp) ∧
     stores 3 (fun r l => (r.w T l).toNat) (.stB64 g T xb vo disp) ∧
     stores 4 (fun r l => (r.v T l).toNat + 2 ^ 32 * (r.v (T + 1) l).toNat + 2 ^ 64 * (r.v (T + 2) l).toNat +
       2 ^ 96 * (r.v (T + 3) l).toNat) (.stB128 g T xb vo disp)) ∧
  (∀ (g : Option Guard) (d a b : Nat) (r : SpReg) (s : State) (uid : Nat) (t : Team), Issuing s uid t →
     let priv : Nat → Nat → Nat → Word64 → State := fun code level major x => s.raise uid
       { cause := .priv, addr := x, info := BitVec.ofNat 32 (code * 2 ^ 16 + level * 2 ^ 8 + major) }
     let level : Nat := if t.ctl.priv = .u then 0 else if t.ctl.priv = .s then 1 else 2
     let windows : Instr → Bool → Prop := fun i wr =>
       (t.ctl.priv = .u → exec i s = .next (priv 0 1 29 (t.regs.x a))) ∧
       (t.ctl.priv ≠ .u → guardHolds t.regs g = true →
         (2 ^ 37 ≤ (t.regs.x a).toNat → exec i s = .next (priv 0 3 29 (t.regs.x a))) ∧
         ((t.regs.x a).toNat < 2 ^ 37 → 2 ^ 32 ≤ (t.regs.x a).toNat → t.ctl.priv = .s →
           exec i s = .next (priv 0 2 29 (t.regs.x a))) ∧
         ((t.regs.x a).toNat < 2 ^ 32 → (t.regs.x a).toNat % 8 ≠ 0 → exec i s = .next (s.raise uid
           { cause := .align, addr := t.regs.x a, info := BitVec.ofNat 32 (2 ^ 10 + (if wr then 2 ^ 11 else 0) + 3 * 2 ^ 12) })))
     (level < spReadLevel r → exec (.rdsp g d r) s = .next (priv (spCode r) (spReadLevel r) 0 0)) ∧
     (level < spWriteLevel r → exec (.wrsp g a r) s = .next (priv (spCode r) (spWriteLevel r) 0 0)) ∧
     (t.ctl.priv = .u → exec .tret s = .next (priv 0 1 29 0) ∧ exec .halt s = .next (priv 0 1 29 0)) ∧
     windows (.cfgRd g d a) false ∧ windows (.cfgWr g a b) true ∧
     (t.ctl.priv ≠ .u → t.trap.handlers = [] → exec .tret s = .next (s.raise uid { cause := .handlerDepth, info := 1 })) ∧
     (t.trap.handlers ≠ [] → exec .extExit s = .next (s.raise uid { cause := .handlerDepth, info := 2 })))

/-- probe (R151, R152, R350 to R356), in the lanes that no tret has it skip. When every performed lane's address lies in the
scratchpad or in the locked translation table, each lane reads 3, or 1 where writes are not permitted, and nothing else changes.
A lane whose address lies beyond the scratchpad, or in no space, stops it there: the lanes below are performed, their results
stand, and SCRATCH_OOB, or PROBE with REASON 1, names them in TDONE. When the lanes that neither answers all lie in one page, that
page is walked: a valid walk enters the page in the team's table and answers 3 or 1, or is PROBE with REASON 5 where there is no
place for it; any other parks the team and makes one page request, of kind 1, or of kind 2 with the address that failed stage 2.
That TDONE names the lanes that a tret has it skip with those performed is the model's reading (log entry 12, DEDUCED). -/
def Obligations.ProbeResults : Prop :=
  ∀ (g : Option Guard) (d xb vo : Nat) (disp : Word) (s : State) (uid : Nat) (t : Team) (c : Crew) (res : Nat → Nat),
    Issuing s uid t → Tbl.find? s.crews t.crew = some c → s.lostOverlay t t.ctl.bank t.ctl.pc = none →
    let ea : Nat → Nat := fun l => t.ea xb vo disp 1 l
    let does : Nat → Prop := fun l => t.left.performs g l
    let known : Nat → Prop := fun l =>
      (inLocal (ea l) = true ∧ ea l - scrBase < c.scratchBytes ∧ res l = 3) ∨
      (inLocal (ea l) = false ∧ (inGlobal (ea l) = true ∨ inFabric (ea l) = true) ∧
        ∃ p w, lttFind (s.extentsOf t) t.link.pages c.fn (ea l) 1 = some (p, w) ∧ res l = if w then 3 else 1)
    let walks : Nat → Prop := fun l => inLocal (ea l) = false ∧ (inGlobal (ea l) = true ∨ inFabric (ea l) = true) ∧
      lttFind (s.extentsOf t) t.link.pages c.fn (ea l) 1 = none
    let settled : List PageEntry → List PageEntry := fun l => l.map fun e => { e with fresh := false }
    let ends : Regs → List PageEntry → Team := fun r l =>
      { t with status := .runnable, regs := r, link := { t.link with probe := none, pages := l } }
    let i : Instr := .probe g d xb vo disp
    ((∀ l, does l → known l) →
      ∃ r, WritesV t.left g d (fun l => BitVec.ofNat 32 (res l)) (fun _ => 0) r ∧
        exec i s = .next (s.putTeam uid (ends r (settled t.link.pages)).advance)) ∧
    -- a lane that stops it
    (∀ f, does f → (∀ l, l < f → does l → known l) →
      let stops : Cause → Nat → Prop := fun cause reason =>
        ∃ r m, WritesV (t.left.only (BitVec.ofNat 1024 (2 ^ f - 1))) g d (fun l => BitVec.ofNat 32 (res l)) (fun _ => 0) r ∧
          (∀ l, l < 1024 → (Mask.has m l = true ↔ Mask.has t.ctl.skip l = true ∨ (l < f ∧ does l))) ∧
          exec i s = .next (((s.putTeam uid (ends r t.link.pages)).raise uid
            { cause := cause, addr := BitVec.ofNat 64 (ea f), info := memInfo f false false 0 0 reason, done := m }).modTeam uid
              fun u => { u with link := { u.link with pages := settled u.link.pages } })
      (inLocal (ea f) = true → c.scratchBytes ≤ ea f - scrBase → stops .scratchOob 0) ∧
      (inLocal (ea f) = false → inGlobal (ea f) = false → inFabric (ea f) = false → stops .probe 1)) ∧
    -- one page to walk
    (∀ f va, does f → walks f → (∀ l, does l → known l ∨ (walks l ∧ ea l / 4096 * 4096 = va)) →
      let lanes := (t.left.performers g).map fun l => (l, BitVec.ofNat 64 (ea l),
        if lttFind (s.extentsOf t) t.link.pages c.fn (ea l) 1 = none ∧ inLocal (ea l) = false then none else some (res l))
      let probe : ProbeState := { vpc := t.ctl.pc, dest := d, lanes := lanes, f0 := none, pages := [(va, .again)] }
      let waits : State := s.putTeam uid { t with status := .parked .probe, link := { t.link with probe := some probe } }
      let asks : Nat → Word64 → PageReq := fun kind gpa =>
        { fn := c.fn, uid := uid, va := va, gpa := gpa, kind := kind, rep := 0
          serial := ((Tbl.find? s.launches c.launch).map Launch.serial).getD 0 }
      (∀ pa host w s1 pages, waits.walk c.fn va = (.valid pa host w, s1) →
        enterPage (2048 - (s.extentsOf t).length) t.link.pages { va := va, pa := pa, host := host, w := w, fresh := true } = some pages →
        (∀ l, does l → walks l → res l = if w then 3 else 1) →
        ∃ r, WritesV t.left g d (fun l => BitVec.ofNat 32 (res l)) (fun _ => 0) r ∧
          exec i s = .next (s1.putTeam uid (ends r (settled pages)).advance)) ∧
      (∀ s1, waits.walk c.fn va = (.invalid, s1) → exec i s = .next (s1.makeRequest (asks 1 0))) ∧
      (∀ gpa s1, waits.walk c.fn va = (.stage2 gpa, s1) → exec i s = .next (s1.makeRequest (asks 2 (BitVec.ofNat 64 gpa)))))

/-! ### Events of teams and of the instruction store (R37, R204 to R210, R235, R236, R260, R262, R315, R344) -/

/-- An illegal encoding traps ILLOP with its slot and reason (R37). A quantum's expiry selects the next runnable context, and
leaves the selection where there is none (R262). A team whose lanes have all exited and whose work is complete retires, its
handles freed; the last one of a crew takes the crew with it (R204, R240). A parked team of a running crew goes on when the
condition of its wait holds, and not before (R235, R236): a bar.wait when its word shows another phase, a cjoin when its object
is complete (R162, R213), each checked again as an access; where a forced reclaim has taken the half that BANK names, its
overlay is loaded again first, or the instruction traps OVL_STALE (R210). In a launch that has been halted it stops for good
instead (R226); in a crew that is stopped it waits, but that a team of an evicted crew learns of a write of another package to the
line of another node that it monitors (R164, R238). The model's own: a reference is dropped and its slot freed in the one step of
PARK_WAKE (log entry 14), a parked bar.wait is checked again as an access (log entry 74), and an mwait may end at any time (log entry
13). -/
def Obligations.TeamEvents : Prop :=
  ∀ (s : State) (uid : Nat) (t : Team) (q : Nat × Nat) (slot n reason core sub : Nat) (a : Word64) (c : WaitClass) (k : TrackObj)
    (gr : Group) (x y : Nat × Nat × Team) (cr : Crew) (la : Launch) (w : Park),
    let on : Team := { t.advance with status := .runnable }
    let wakes : State → Prop := fun s' => exec (.parkWake uid) s = .next s'
    let stands : Prop := Tbl.find? s.teams uid = some t ∧ t.status = .parked w
    let waits : Prop := stands ∧ s.crewRuns t = true ∧ s.launchHalted t = false
    let stays : Prop := s.lostOverlay t t.ctl.bank t.ctl.pc = none
    let looks : Prop := (∃ b, w = .barWait b) ∨ (∃ b, w = .cjoin b) ∨ w = .stall .matrixFull ∨ w = .mwait
    let others : List (Nat × Nat × Team) := (((s.contextsAt q).filter fun z => decide (x.1 < z.1)) ++
      ((s.contextsAt q).filter fun z => decide (z.1 < x.1))).filter fun z => z.2.2.runnable
    (Issuing s uid t → slot < 4 → reason < 256 → exec (.illegalEncoding slot reason) s =
      .next (s.raise uid { cause := .illop, info := BitVec.ofNat 32 (slot * 256 + reason) })) ∧
    -- the quantum
    (q = (core, sub) → List.find? (fun z => some z.2.1 == (s.sub q).selected) (s.contextsAt q) = some x →
      (others.head? = some y →
        exec (.quantumExpiry core sub) s = .next (s.modSub q fun z => { z with selected := some y.2.1, context := y.1 })) ∧
      (others = [] → exec (.quantumExpiry core sub) s = .next s)) ∧
    -- retirement
    (Tbl.sortedFrom 0 s.teams = true → Tbl.find? s.teams uid = some t → t.status = .parked .exit → s.crewRuns t = true →
      s.exitReady uid t = true → Tbl.find? s.crews t.crew = some cr → Tbl.find? s.launches cr.launch = some la →
      ∃ s', exec (.teamRetire uid) s = .next s' ∧
        (Tbl.find? s'.teams uid = none ∨ ∃ u, Tbl.find? s'.teams uid = some u ∧ u.status = .retired ∧ u.regs = t.regs ∧
          u.eng.arrays = [] ∧ u.link.tokens = [] ∧ u.link.groups = [] ∧ u.link.watches = [] ∧ u.link.pages = []) ∧
        ((∀ v z, Tbl.find? s.teams v = some z → z.crew = t.crew → v = uid ∨ z.status = .retired) →
          Tbl.find? s'.crews t.crew = none ∧ (∀ v z, Tbl.find? s.teams v = some z → z.crew = t.crew → Tbl.find? s'.teams v = none) ∧
          ∃ la', Tbl.find? s'.launches cr.launch = some la' ∧ la'.retired = la.retired + 1)) ∧
    -- waits that go on waiting, or stop
    (waits → ¬ looks → s.parkReady uid t w = false → wakes s) ∧
    (stands → s.crewRuns t = false → (∀ b, w ≠ .cjoin b) → w ≠ .mwait → wakes s) ∧
    (∀ m, stands → s.evictedCrew t.crew = true → w = .mwait → t.link.monitor = some m →
      (m.line.1 ≠ 2 → wakes s) ∧
      (m.line.1 = 2 → wakes (s.putTeam uid { t with link := { t.link with monitor := some { m with hit := true } } }))) ∧
    (stands → s.crewRuns t = true → s.launchHalted t = true → w ≠ .exit → wakes (s.haltTeam uid t)) ∧
    -- waits that end
    (waits → stays → w = .mwait → wakes (s.putTeam uid { on with link := { t.link with monitor := none } })) ∧
    (waits → stays → w = .waitc c n → t.counter c ≤ n →
      wakes (s.putTeam uid (if c = .fabric then { t with status := .runnable } else on))) ∧
    (∀ b, waits → stays → w = .waitb b → (∀ z ∈ t.eng.closed, (b - BitVec.ofNat 32 z.seq).toInt < 0) → wakes (s.putTeam uid on)) ∧
    (waits → stays → w = .trkWfill slot n → s.track t.crew slot = some k → n ≤ (k.p - k.c).toNat → wakes (s.putTeam uid on)) ∧
    (waits → stays → w = .trkWfree slot n → s.track t.crew slot = some k →
      n + (k.p + t.pending slot true - k.c).toNat ≤ k.depth → wakes (s.putTeam uid on)) ∧
    (waits → stays → w = .trkClose slot → s.trackDroppable uid t slot = true →
      wakes ((s.dropTrack t.crew uid slot).modTeam uid fun t => { t.advance with status := .runnable })) ∧
    (waits → stays → w = .obRel slot → s.rangeDroppable uid t slot = true →
      wakes ((s.dropRange t.crew uid slot).modTeam uid fun t => { t.advance with status := .runnable })) ∧
    (waits → stays → w = .accFree slot → t.eng.mats.any (t.names slot) = false →
      wakes (s.putTeam uid { on with eng := { t.eng with arrays := Pool.free t.eng.arrays slot } })) ∧
    (waits → stays → w = .ovrel slot → t.tokenLoading slot = false →
      wakes (s.putTeam uid { on with link := { t.link with tokens := Pool.free t.link.tokens slot } })) ∧
    (∀ (d : Nat) (o : TokenObj), waits → stays → w = .ovwait d slot → (Tbl.find? t.link.tokens slot).bind SlotOf.obj = some o →
      o.state ≠ .loading → wakes (s.putTeam uid { on with regs := t.regs.setQ d (o.state == .resident) })) ∧
    (waits → stays → w = .ifence → t.anyLoading = false → wakes (s.putTeam uid { on with
      link := { t.link with tokens := t.link.tokens.map fun e =>
        (e.1, { e.2 with obj := e.2.obj.map fun k => if k.state = .resident then { k with fenced := true } else k }) } })) ∧
    (∀ stall, waits → stays → w = .stall stall → stall ≠ .matrixFull → s.parkReady uid t w = true →
      wakes (s.putTeam uid { t with status := .runnable })) ∧
    (∀ (d num : Nat), waits → stays → w = .tgWait d slot → (Tbl.find? t.link.groups slot).bind SlotOf.obj = some { number := num } →
      Tbl.find? s.fab.groups num = some gr → gr.phase = .done → wakes ((s.takeGroup num).putTeam uid { on with
        regs := t.regs.setS d (BitVec.ofNat 32 (gr.outcome % 4 + gr.reason % 256 * 2 ^ 8 + (match gr.node with
          | some n => n % 1024 * 2 ^ 16 + 2 ^ 26
          | none => 0)))
        link := { t.link with groups := Pool.free t.link.groups slot } })) ∧
    -- waits on a location
    (∀ pl, waits → stays → w = .cjoin a → Unasked s uid t → Reaches s t (ownAccess a 4 false) pl →
      let o := objOf (s.readNat pl 16)
      let complete : Prop := o.status ≠ 0 ∨ 0 ≤ (o.arrived - o.expected).toInt
      (complete → wakes (s.putTeam uid on)) ∧ (¬ complete → wakes s)) ∧
    (∀ pl, waits → stays → w = .barWait a → Unasked s uid t → Reaches s t { ownAccess a 2 true with watched := false } pl →
      let phase : BitVec 16 := barrierPhase (BitVec.ofNat 32 (s.readNat pl 4))
      (t.ctl.barrier.map BarrierRec.phase ≠ some phase → wakes (s.putTeam uid on)) ∧
      (t.ctl.barrier.map BarrierRec.phase = some phase → wakes s)) ∧
    (∀ tr, waits → Unasked s uid t →
      (w = .cjoin a → s.checkAccess t (ownAccess a 4 false) = .error tr → wakes (s.raise uid tr)) ∧
      (w = .barWait a → s.checkAccess t { ownAccess a 2 true with watched := false } = .error tr → wakes (s.raise uid tr))) ∧
    -- a half taken meanwhile
    (waits → ¬ looks → w ≠ .exit → s.parkReady uid t w = true → s.lostOverlay t t.ctl.bank t.ctl.pc = some n →
      let hit : Links := { t.link with monitor := t.link.monitor.map fun m => { m with hit := true } }
      (s.policyTrap t n = true → wakes ((s.putTeam uid
        { t with status := .runnable, link := hit, ctl := { t.ctl with pc := s.pcOf t } }).raise uid
          { cause := .ovlStale, info := ovlInfo t.ctl.bank n 1, done := t.ctl.skip })) ∧
      (s.policyTrap t n = false → s.placeOf t = some q → Tbl.find? s.crews t.crew = some cr →
        wakes ((s.putTeam uid { t with status := .parked (.reload t.ctl.bank n 0), link := hit }).modSub q fun z =>
          { z with loads := z.loads ++
            [{ half := t.ctl.bank, set := cr.set, overlay := n, fn := cr.fn, why := .demand uid false }] })))

/-- Loads into the halves of the instruction store. A load starts once its half has no holder and its set is translated, and ends
at once where the half holds its overlay already (R205, R326); LDINJ counts a load that `ovld` queued as it ends, and alters it or
not (R315); a load passes its check when the CRC-32C of its bytes as they enter the half is the stored one, so that an altered
load fails (R315, R325). A passed check leaves the overlay in the half and its tokens RESIDENT, a failed one leaves the half
empty and its tokens FAILED (R206, R209); an entry fill, a load at a restore or for a delivery is retried once, and then kills
(R260, R344, R448); a load on demand lets its team go on, its STALE tokens resident where bswap or calt asked for it, or traps
OVL_MISS with reason 4 (R210). After an entry fill that passes a crew's teams issue once those of every crew before it have begun
(R256); a delivery then goes on. A forced reclaim empties a half, its tokens become STALE, and a team whose code stands there
goes on only with its overlay (R210). The model's own: a load is counted and altered, or not, as it passes or its byte enters the
half, one decision for the loads that share it (log entry 22), the tokens of several teams joined to one load (log entry 23), and
what a kill records of a crew whose teams have not begun (log entry 45). -/
def Obligations.LoadEvents : Prop :=
  ∀ (s : State) (core sub : Nat) (b : Bank) (r : LoadReq) (ok : Bool) (x : TransSet) (cn uid : Nat) (t : Team) (c : Crew),
    let p : Nat × Nat := (core, sub)
    let here := s.sub p
    let first : Prop := List.find? (fun l => l.half == b) here.loads = some r
    let runs : Prop := first ∧ r.started = true
    let waits : Prop := first ∧ r.started = false
    let r1 : LoadReq := (s.decideLoad r).1
    let s1 : State := (s.decideLoad r).2
    let good : Prop := s1.checkLoad r1 = true
    let bad : Prop := ok = false ∨ s1.checkLoad r1 = false
    let becomes : TokenState → TokenObj → TokenObj := fun st k =>
      if k.state = .loading then { k with state := st, started := true } else k
    let passed : State → State := fun s => (s.modSub p fun z =>
      { z.setHalf r.half (some (r.set, r.overlay)) with loads := putHead r.half none z.loads }).modTokens p r (becomes .resident)
    let failed : State := (s1.modSub p fun z =>
      { z.setHalf r.half none with loads := putHead r.half none z.loads }).modTokens p r (becomes .failed)
    let again : State := s1.modSub p fun z => { z with loads := putHead r.half (some { r1 with retried := true }) z.loads }
    let begun : State → LoadReq → State := fun s r => (s.modSub p fun z =>
      { (z.serve r.fn).setHalf b none with loads := putHead b (some { r with started := true }) z.loads }).modTokens p r
        fun k => if k.state = .loading then { k with started := true } else k
    -- LDINJ
    (let ld := (s.fn r.fn).ldinj
     let settles : Nat → Injection → LoadReq → LoadReq := fun key i l => if l.inj = .undecided key then { l with inj := i } else l
     (∀ key alter,
       (s.settleLoads key alter).crews = s.crews.map (fun e =>
         (e.1, { e.2 with savedLoads := e.2.savedLoads.map (settles key (.decided alter)) })) ∧
       (s.settleLoads key alter).subs = s.subs.map (fun e => (e.1, { e.2 with loads := e.2.loads.map (settles key (.decided alter)) })) ∧
       ({ s.settleLoads key alter with subs := s.subs, crews := s.crews } : State) = s) ∧
     ((∀ key, r.inj ≠ .undecided key) → r1 = r ∧ s1 = s) ∧
     (∀ key, r.inj = .undecided key →
       let decided : Option (Nat × Nat) → Word64 → Prop := fun alter v =>
         r1 = { r with inj := .decided alter } ∧ s1 = (s.modFn r.fn fun f => { f with ldinj := v }).settleLoads key alter
       (ld.getLsbD 32 = false → decided none ld) ∧
       (ld.getLsbD 32 = true → ld.toNat / 2 ^ 24 % 2 ^ 8 ≠ 0 → decided none (ld - 0x1000000)) ∧
       (ld.getLsbD 32 = true → ld.toNat / 2 ^ 24 % 2 ^ 8 = 0 →
         decided (if ld.toNat / 2 ^ 16 % 2 ^ 8 = 0 then none else some (ld.toNat % 2 ^ 16, ld.toNat / 2 ^ 16 % 2 ^ 8))
           (ld - 0x100000000)))) ∧
    -- the check
    (∀ k : Packed, Tbl.find? s.sets r.set = some x → Tbl.find? x.packed r.overlay = some k → k.check = crc32c k.bytes →
      (r.inj = .uncounted ∨ r.inj = .decided none → s.checkLoad r = true) ∧
      (∀ off mask, r.inj = .decided (some (off, mask)) → k.bytes ≠ [] → 0 < mask → mask < 256 → s.checkLoad r = false)) ∧
    -- the start
    (waits → here.half b ≠ some (r.set, r.overlay) → s.halfHeld p b (fun k => some k == r.crew) = false →
      Tbl.find? s.sets r.set = some x → x.ready = true →
      exec (.overlayLoadStart core sub b) s = .next (begun s r)) ∧
    (waits → here.half b ≠ some (r.set, r.overlay) →
      (s.halfHeld p b (fun k => some k == r.crew) = true ∨ (Tbl.find? s.sets r.set = some x ∧ x.ready = false)) →
      exec (.overlayLoadStart core sub b) s = .next s) ∧
    (waits → here.half b = some (r.set, r.overlay) →
      (r.why = .tokens → r1.altered = false → exec (.overlayLoadStart core sub b) s = .next (passed s1)) ∧
      (let s2 := s1.modSub p fun z => { z with loads := putHead b (some r1) z.loads }
       (∃ z, r1.inj = .decided (some z)) → s2.halfHeld p b (fun k => some k == r1.crew) = false →
         Tbl.find? s2.sets r1.set = some x → x.ready = true →
         exec (.overlayLoadStart core sub b) s = .next (begun s2 r1))) ∧
    -- loads for tokens
    (runs → r.why = .tokens → good → exec (.overlayLoadDone core sub b true) s = .next (passed s1)) ∧
    (runs → r.why = .tokens → bad → exec (.overlayLoadDone core sub b ok) s = .next failed) ∧
    -- loads on demand
    (∀ claim n a, runs → r.why = .demand uid claim → Tbl.find? s.teams uid = some t → s.placeOf t = some p →
      t.status = .parked (.reload r.half n a) → n = r.overlay → t.link.delivery = none → t.link.probe = none →
      s.launchHalted t = false →
      (good → exec (.overlayLoadDone core sub b true) s = .next ((passed s1).modTeam uid fun t =>
        s.atSafePoint { (if claim then t.modTokens r.half r.overlay fun k =>
          if k.state = .stale then { k with state := .resident, started := true, fenced := true } else k else t) with status := .runnable })) ∧
      (bad → exec (.overlayLoadDone core sub b ok) s = .next ((failed.modTeam uid fun t =>
        { t with ctl := { t.ctl with pc := s.pcOf t } }).raise uid
          { cause := .ovlMiss, addr := a, info := ovlInfo r.half r.overlay 4 }))) ∧
    -- entry fills, and loads at a restore
    (Tbl.find? s.crews cn = some c → good →
      let began : State := (passed s1).startDue c.launch
      let ready : State := if (Tbl.find? began.crews cn).map Crew.status = some .running then began.checkDeadlock cn else began
      (b = .a → runs → r.why = .entry cn → exec (.entryFillDone core sub true) s = .next ready) ∧
      (runs → r.why = .restore cn → exec (.overlayLoadDone core sub b true) s = .next ready)) ∧
    (bad →
      (b = .a → runs → r.why = .entry cn → r.retried = false → exec (.entryFillDone core sub ok) s = .next again) ∧
      (b = .a → runs → r.why = .entry cn → r.retried = true → exec (.entryFillDone core sub ok) s = .next (failed.killCrew cn r1)) ∧
      (runs → r.why = .restore cn → r.retried = false → exec (.overlayLoadDone core sub b ok) s = .next again) ∧
      (runs → r.why = .restore cn → r.retried = true → exec (.overlayLoadDone core sub b ok) s = .next (failed.killCrew cn r1))) ∧
    -- when crews begin
    (∀ n, Tbl.sortedFrom 0 s.crews = true → Tbl.find? s.crews cn = some c →
      let due : Prop := (c.status = .filling ∨ c.status = .restoring) ∧ (∃ q, c.place = some q ∧
          ∀ l ∈ (s.sub q).loads, l.why ≠ .entry cn ∧ l.why ≠ .restore cn) ∧
        (c.started = true ∨ ∀ e ∈ s.crews, e.2.launch = n → e.2.index < c.index → e.2.started = true)
      (c.launch = n → due → Tbl.find? (s.startDue n).crews cn = some { c with status := .running, started := true }) ∧
      (c.launch ≠ n ∨ c.place = none ∨ (c.status ≠ .filling ∧ c.status ≠ .restoring) →
        Tbl.find? (s.startDue n).crews cn = some c) ∧
      (∀ k d, c.started = false → Tbl.find? s.crews k = some d → d.launch = n → d.index < c.index → d.started = false →
        d.place = none → c.launch = n → Tbl.find? (s.startDue n).crews cn = some c)) ∧
    -- deliveries
    (∀ (st : TrapState) (h : Bank) (n : Nat) (a : Word64), runs → r.why = .delivery uid → Tbl.find? s.teams uid = some t →
      t.link.delivery = some st → t.status = .parked (.reload h n a) →
      (good → s.launchHalted t = false → ∃ t', Tbl.find? (passed s1).teams uid = some t' ∧
        exec (.deliveryLoadDone core sub b true) s = .next (((passed s1).traceTrap t' st).putTeam uid
          ((passed s1).atSafePoint (t'.enter st r.half a.toNat)))) ∧
      (bad → r.retried = false → exec (.deliveryLoadDone core sub b ok) s = .next again) ∧
      (∀ cause : Cause, bad → r.retried = true → st.cause = BitVec.ofNat 32 cause.code →
        exec (.deliveryLoadDone core sub b ok) s = .next (failed.kill uid cause cause st))) ∧
    -- a forced reclaim
    (∃ s', exec (.forcedReclaim core sub b) s = .next s' ∧ (s'.sub p).half b = none ∧ s'.mem = s.mem ∧
      (∀ k d, Tbl.find? s.crews k = some d → ∃ l, Tbl.find? s'.crews k = some { d with savedLoads := l }) ∧
      (∀ l ∈ (s'.sub p).loads, l.half = b → l.why ≠ .tokens ∧ l.started = false) ∧
      (∀ t, Tbl.find? s'.teams uid = some t → s'.placeOf t = some p → ∀ n k, Tbl.find? t.link.tokens n = some k →
        ∀ o, k.obj = some o → o.half = b → o.state = .stale) ∧
      (Tbl.sortedFrom 0 s.teams = true → Tbl.find? s.teams uid = some t → ∃ t', Tbl.find? s'.teams uid = some t' ∧
        t'.regs = t.regs ∧ t'.ctl = t.ctl ∧ t'.status = t.status ∧ t'.eng = t.eng ∧
        ∀ n, s.placeOf t = some p → t.status ≠ .retired → t.ctl.bank = b → t.ctl.pc / 2 ^ 15 = n → s.overlayIn t b = some n →
          t'.link.reclaimed.contains (b, n) = true))

/-! ### Events of crews and launches (R212, R229, R231, R235 to R238, R245 to R262, R319, R326, R327, R378, R397, R398, R448) -/

/-- A request to stop makes a running crew, and every crew of its table, stop at its teams' next safe points, where the parked
teams stand already, and changes nothing else; a crew whose teams have not begun is saved at once, and one that is saved or
stopping goes on as it is (R237, R263). An eviction that R238, R258 or R359 do not allow does nothing, such as one of a crew
whose crew to place fits elsewhere. The pool takes a sub-core from the function that R391 names, for one that waits, and from no
other. A stopping crew is saved once its work is complete, and leaves its sub-core with its teams' registers, control, traps and
engine state, its scratchpad, window, tracks and ranges kept (R237). -/
def Obligations.CrewStopEvents : Prop :=
  ∀ (s : State) (cn : Nat) (c : Crew) (why : StopWhy) (p : Nat × Nat), Tbl.find? s.crews cn = some c →
    let ofTable : Nat → Crew → Prop := fun k d => k = cn ∨ (c.table ≠ none ∧ d.table = c.table ∧ d.launch = c.launch)
    let sorted : Prop := Tbl.sortedFrom 0 s.crews = true ∧ Tbl.sortedFrom 0 s.teams = true
    let stops : Nat → StopWhy → Prop := fun code why =>
      (sorted → (∀ k d, Tbl.find? s.crews k = some d → ofTable k d → d.status = .running) →
        ∃ s', exec (.preemptRequest cn code) s = .next s' ∧ ({ s' with crews := s.crews, teams := s.teams } : State) = s ∧
          (∀ k d, Tbl.find? s.crews k = some d → ofTable k d → Tbl.find? s'.crews k = some { d with status := .stopping why }) ∧
          (∀ k d, Tbl.find? s.crews k = some d → ¬ ofTable k d → Tbl.find? s'.crews k = some d) ∧
          ∀ uid t, Tbl.find? s.teams uid = some t →
            let stood : Prop := (∃ d, Tbl.find? s.crews t.crew = some d ∧ ofTable t.crew d) ∧
              t.status ≠ .runnable ∧ t.status ≠ .waiting
            (stood → Tbl.find? s'.teams uid = some { t with link := { t.link with stopped := true } }) ∧
            (¬ stood → Tbl.find? s'.teams uid = some t))
    stops 0 .preempt ∧ (s.evictOk cn c = true → stops 1 .evict) ∧
    (s.evictOk cn c = false → exec (.preemptRequest cn 1) s = .next s) ∧
    (s.evictable cn = false → exec (.preemptRequest cn 1) s = .next s) ∧
    ((∀ k ∈ s.chosen c.fn, s.claimFits k s.leaving = true) → exec (.preemptRequest cn 1) s = .next s) ∧
    (c.place = some p → (s.poolTaker = none ∨ s.poolStopOk c p = false) → exec (.preemptRequest cn 2) s = .next s) ∧
    (∀ w, c.place = some p → s.poolTaker = some w → s.poolStopOk c p = true → exec (.preemptRequest cn 2) s =
      .next ((s.crewsAt p).foldl (fun s e => s.stopTable e.1 .pool) (s.modSub p fun x => { x with given := some w }))) ∧
    (∀ w, s.poolTaker = some w → s.poolFree = false ∧ s.rated w = true ∧ s.poolSubs w < s.poolDue w ∧ s.wantsRoom w = true) ∧
    (s.poolStopOk c p = true → brdMode (s.brd (p.1 / 8)) = 3 ∧ s.poolDue c.fn < s.poolSubs c.fn ∧
      ∀ w, w < 32 → s.rated w = true → s.poolSubs w - s.poolDue w ≤ s.poolSubs c.fn - s.poolDue c.fn) ∧
    -- crews whose teams have not begun, or that have stopped
    (s.tableCrews cn = [(cn, c)] → c.place = some p →
      ((c.status = .filling ∨ c.status = .restoring) → ∃ s' c', exec (.preemptRequest cn 0) s = .next s' ∧
        Tbl.find? s'.crews cn = some c' ∧ c'.status = .saved .preempt ∧ c'.place = none ∧ c'.contexts = [] ∧
        c'.needA = (if c.status = .filling then s.entryOverlay c else c.needA) ∧
        c'.needB = (if c.status = .filling then none else c.needB)) ∧
      ((∃ w, c.status = .stopping w ∨ c.status = .saved w) → exec (.preemptRequest cn 0) s = .next s)) ∧
    -- saving
    (c.status = .stopping why → s.crewQuiet cn = false → exec (.crewSaveDone cn) s = .next s) ∧
    ((∀ w, c.status ≠ .stopping w) → exec (.crewSaveDone cn) s = .next s) ∧
    (c.status = .stopping why → s.crewQuiet cn = true → c.place ≠ none →
      ∃ s' c', exec (.crewSaveDone cn) s = .next s' ∧ Tbl.find? s'.crews cn = some c' ∧ c'.status = .saved why ∧
        c'.place = none ∧ c'.contexts = [] ∧ c'.scratch = c.scratch ∧ c'.window = c.window ∧ c'.tracks = c.tracks ∧
        c'.ranges = c.ranges ∧ c'.set = c.set ∧
        ∀ uid t, Tbl.find? s.teams uid = some t → ∃ u, Tbl.find? s'.teams uid = some u ∧ u.regs = t.regs ∧ u.ctl = t.ctl ∧
          u.trap = t.trap ∧ u.eng = t.eng ∧ u.status = t.status)

/-- Placing and slices. A sub-core that R256 permits takes the next crew of a launch without tables; the crews of a table take
distinct sub-cores of one board, or none is placed (R257); its boot mailbox is written (R259), and its teams start as R231 says,
at once when half A holds the entry overlay of the launch's set and every crew before it has begun, after an entry fill otherwise
(R256, R260, R319). A saved crew whose restore condition holds is placed again on a sub-core that R448 allows, or the crews of its
table on sub-cores of one board, with its state kept and its monitors hit. At the end of a slice its crews stop and the round goes
on, or stay where the other function has nothing to run; once the board holds no crew, the next slice's function runs with the
store halves empty, its withheld writes and messages go out, and the slice ends at once when the function has nothing to run there
(R378, R397, R398, R320); under a new value the round begins with the slices of VFA, or of VFB where VFA has nothing to run, once
the crews of the other function have stopped (R373). That a slice passes to the same function's next one with its crews in place, and
where a round begins, is the model's reading (log entry 110, DEDUCED). -/
def Obligations.PlacementEvents : Prop :=
  (∀ (s : State) (n core sub : Nat) (l : Launch) (p : Nat × Nat) (subs : List (Nat × Nat)) (set board cn : Nat) (c : Crew),
     let m := brdSplit (s.brd (boardOf p.1))
     let k := l.kern
     (p = (core, sub) → Tbl.find? s.launches n = some l → l.pkt.cpt = 0 → s.placeOk n l p = true →
       exec (.crewPlace n core sub) s = .next (s.startCrew n p)) ∧
     (p = (core, sub) → Tbl.find? s.launches n = some l → (l.pkt.cpt ≠ 0 ∨ s.placeOk n l p = false) →
       exec (.crewPlace n core sub) s = .next s) ∧
     (s.placeOk n l p = true → (s.fn l.fn).state = .running ∧ l.ready = true ∧ l.halted = false ∧ l.next < l.pkt.ncrew ∧
       s.boardServes l.fn (p.1 / 8) = true ∧ s.hasRoom l.fn m p k.teams (max k.scratch l.pkt.scratch + k.spill) (s.crewsAt p) = true ∧
       (l.pkt.fuse = true → s.boardCrews (p.1 / 8) = []) ∧ s.restoreWaits l.fn = false ∧
       ∀ e ∈ s.crews, e.2.launch = n → e.2.status = .saved .evict → s.restorable e.1 e.2 = false) ∧
     (∀ teams bytes on, s.hasRoom l.fn m p teams bytes on = true → p.2 < 2 ^ m ∧ (∀ e ∈ on, e.2.fn = l.fn) ∧
       teams ≤ (freeContexts m on).length ∧ scratchUsed on + bytes ≤ 2 ^ 20 / 2 ^ m) ∧
     (Tbl.find? s.launches n = some l → l.pkt.cpt ≠ 0 → subs.length = min l.pkt.cpt (l.pkt.ncrew - l.next) →
       (∀ q ∈ subs, q.1 / 8 = board) → subs.Nodup →
       (∀ q ∈ subs, s.placeOk n l q = true) →
       exec (.tablePlace n board subs) s = .next (subs.foldl (fun s q => s.startCrew n q) s)) ∧
     (Tbl.find? s.launches n = some l → (∃ q ∈ subs, s.placeOk n l q = false) → exec (.tablePlace n board subs) s = .next s) ∧
     -- a crew that starts
     (Tbl.find? s.launches n = some l → Tbl.find? l.sets m = some set →
       ∃ d, Tbl.find? (s.startCrew n p).crews s.uids = some d ∧ d.launch = n ∧ d.fn = l.fn ∧ d.index = l.next ∧ d.place = some p ∧
         d.split = m ∧ d.set = set ∧ d.nteam = k.teams ∧ d.nlane = k.lanes ∧
         d.table = (if l.pkt.cpt = 0 then none else some (l.next / l.pkt.cpt)) ∧
         d.producer = some (if l.pkt.producer = 255 then k.producer else l.pkt.producer) ∧
         d.contexts = (freeContexts m (s.crewsAt p)).take k.teams ∧
         d.scratchBytes = max k.scratch l.pkt.scratch ∧ d.scratch = [] ∧ d.window = [] ∧
         ((s.sub p).fn = l.fn → (s.sub p).halfA = some (set, k.ovl) →
           (∀ r ∈ (s.sub p).loads, r.why ≠ .entry s.uids ∧ r.why ≠ .restore s.uids) →
           (∀ e ∈ s.crews, e.2.launch = n → e.2.index < l.next → e.2.started = true) → d.status = .running ∧ d.started = true)) ∧
     (Tbl.find? s.launches n = some l → Tbl.find? l.sets m = some set →
       let w (x : Nat) : Word64 := BitVec.ofNat 64 x
       let producer : Nat := if l.pkt.producer = 255 then k.producer else l.pkt.producer
       let table : Nat := if l.pkt.cpt = 0 then 0 else l.next / l.pkt.cpt
       ((s.startCrew n p).sub p).mailbox = [Config.transName set, l.pkt.argbase, l.serial, w scrBase,
         w (l.next + 2 ^ 32 * l.pkt.ncrew), w (table + 2 ^ 32 * k.teams + 2 ^ 48 * k.lanes),
         w (ctxMap ((freeContexts m (s.crewsAt p)).take k.teams) + 2 ^ 8 * producer + 2 ^ 16 * m + 2 ^ 24 * l.fn), 0]) ∧
     (Tbl.find? s.launches n = some l → Tbl.find? l.sets m = some set →
       (∀ i, i < k.teams → Tbl.find? (s.startCrew n p).teams (4 * s.uids + i) = some
         { crew := s.uids, index := i, nlane := k.lanes, regs := { srCrew := l.next, srTeam := i }
           ctl := { pc := k.ovl * 2 ^ 15 + k.entry, active := maskOf k.lanes fun _ => true, priv := l.priv } }) ∧
       (∃ l', Tbl.find? (s.startCrew n p).launches n = some l' ∧ l' = { l with next := l.next + 1 }) ∧
       ((s.sub p).halfA ≠ some (set, k.ovl) → (∃ d, Tbl.find? (s.startCrew n p).crews s.uids = some d ∧ d.status = .filling) ∧
         { half := .a, set := set, overlay := k.ovl, fn := l.fn, why := .entry s.uids } ∈ ((s.startCrew n p).sub p).loads)) ∧
     -- a restore
     (s.tableCrews cn = [(cn, c)] → s.restoreOk cn c p = true → exec (.crewRestore cn [p]) s = .next (s.restoreCrew cn p)) ∧
     (s.tableCrews cn = [(cn, c)] → s.restoreOk cn c p = false → exec (.crewRestore cn [p]) s = .next s) ∧
     ((s.tableCrews cn).length = subs.length → subs ≠ [] → (∀ q ∈ subs, q.1 / 8 = board) → subs.Nodup →
       (∀ e ∈ (s.tableCrews cn).zip subs, s.restoreOk e.1.1 e.1.2 e.2 = true) →
       exec (.crewRestore cn subs) s = .next (((s.tableCrews cn).zip subs).foldl (fun s e => s.restoreCrew e.1.1 e.2) s)) ∧
     (s.restoreOk cn c p = true → (∃ w, c.status = .saved w) ∧ (s.fn c.fn).state = .running ∧
       s.boardServes c.fn (p.1 / 8) = true ∧ m = c.split ∧
       s.hasRoom c.fn m p c.nteam (c.scratchBytes + c.spill) (s.crewsAt p) = true) ∧
     (Tbl.find? s.crews cn = some c → (s.fn c.fn).trctl.getLsbD 0 = false → Tbl.sortedFrom 0 s.teams = true →
       s.needLoad p cn c .a c.needA ++ s.needLoad p cn c .b c.needB ≠ [] → (s.sub p).fn = c.fn →
       (∃ d, Tbl.find? (s.restoreCrew cn p).crews cn = some d ∧ d.place = some p ∧ d.status = .restoring ∧
         d.scratch = c.scratch ∧ d.window = c.window ∧ d.tracks = c.tracks ∧ d.ranges = c.ranges) ∧
       ∀ uid t, Tbl.find? s.teams uid = some t → t.crew = cn → ∃ u, Tbl.find? (s.restoreCrew cn p).teams uid = some u ∧
         u.regs = t.regs ∧ u.ctl = t.ctl ∧ u.trap = t.trap ∧ u.eng = t.eng ∧
         u.link.stopped = false ∧ u.link.resync = true ∧ u.link.monitor = t.link.monitor.map fun x => { x with hit := true }) ∧
     (Tbl.find? s.crews cn = some c → (s.fn c.fn).trctl.getLsbD 0 = false →
       s.needLoad p cn c .a c.needA ++ s.needLoad p cn c .b c.needB = [] → (s.sub p).fn = c.fn → c.started = true →
       (∀ r ∈ (s.sub p).loads, r.why ≠ .entry cn ∧ r.why ≠ .restore cn) → (∀ r ∈ c.savedLoads, r.why = .tokens) →
       (∃ uid t, Tbl.find? s.teams uid = some t ∧ t.crew = cn ∧ t.status = .runnable) →
       ∃ d, Tbl.find? (s.restoreCrew cn p).crews cn = some d ∧ d.place = some p ∧ d.status = .running)) ∧
  (∀ (s : State) (board v : Nat),
     let c := s.brd board
     let pos := (s.slice board).pos
     let turn : Nat → Nat := fun pos => if pos % (brdSla c + brdSlb c) < brdSla c then brdVfa c else brdVfb c
     let next := turn (pos + 1)
     let stands : State → Nat → Option Nat → Prop := fun s pos running =>
       Tbl.get s.dev.slices {} board = { pos := pos, running := running, pair := some (brdVfa c, brdVfb c) }
     -- what a function's slice lets out
     let opens : State → Nat → State → Prop := fun s w s' =>
       let s0 := s.modFn w fun f => { f with withheld := [], msix := [] }
       (((s.fn w).withheld = [] ∨ ∃ y, (s.fn w).withheld = [y] ∧ s0.deliveryWaits y = false) →
         (s'.fn w).withheld = [] ∧ (s'.fn w).msix = []) ∧
       ((s.fn w).withheld = [] →
         s'.outbox = s.outbox ++ ((s.fn w).msix.filter fun n => !(s.fn w).masked.contains n).map (OutMsg.msix w))
     let begins : Nat → Prop := fun at_ => ∃ s1, stands s1 at_ (some (turn at_)) ∧
       (∀ q ∈ boardSubs (brdSplit c) board, s.crewsAt q = [] → (s1.sub q).halfA = none ∧ (s1.sub q).halfB = none) ∧
       opens ((s.emptyHalves board).putSlice board { pos := at_, running := some (turn at_), pair := some (brdVfa c, brdVfb c) })
         (turn at_) s1 ∧
       (s1.sliceUsed (turn at_) board = true → exec (.sliceStart board) s = .next s1) ∧
       (s1.sliceUsed (turn at_) board = false →
         ∃ s2, exec (.sliceStart board) s = .next s2 ∧ stands s2 (at_ + 1) none ∧
           ({ s2 with dev := { s2.dev with slices := s1.dev.slices } } : State) = s1)
     let start := if s.sliceUsed (brdVfa c) board = true ∨ s.sliceUsed (brdVfb c) board = false then 0 else brdSla c
     ((s.slice board).running = some v → next ≠ v → s.sliceUsed next board = false → ∃ s', exec (.sliceExpiry board) s = .next s' ∧
       stands s' (pos + 1 + (if brdVfa c = next then brdSla c else brdSlb c)) (some v) ∧ s'.crews = s.crews ∧ opens s next s') ∧
     ((s.slice board).running = some v → (next = v ∨ s.sliceUsed next board = true) → ∃ s', exec (.sliceExpiry board) s = .next s' ∧
       stands s' (pos + 1) none ∧
       ∀ k d core sub, Tbl.find? s.crews k = some d → d.place = some (core, sub) → core / 8 = board → d.status = .running →
         ∃ e, Tbl.find? s'.crews k = some e ∧ e.status = .stopping .slice) ∧
     ((s.slice board).running = none → exec (.sliceExpiry board) s = .next s) ∧
     (brdMode c = 2 → s.brdMoving board = false → (s.slice board).running = none → s.boardCrews board = [] →
       begins (if s.slice board = {} then start else pos)) ∧
     (brdMode c = 2 → s.brdMoving board = false → s.slice board = {} → (∀ e ∈ s.boardCrews board, e.2.fn = turn start) →
       begins start) ∧
     (brdMode c = 2 → s.brdMoving board = false → s.slice board = {} → (∃ e ∈ s.boardCrews board, e.2.fn ≠ turn start) →
       ∃ s', exec (.sliceStart board) s = .next s' ∧ s'.dev.slices = s.dev.slices ∧
         ∀ k d core sub, Tbl.find? s.crews k = some d → d.place = some (core, sub) → core / 8 = board → d.fn ≠ turn start →
           d.status = .running → ∃ e, Tbl.find? s'.crews k = some e ∧ e.status = .stopping .slice) ∧
     (brdMode c ≠ 2 ∨ s.brdMoving board = true ∨ (s.slice board).running ≠ none ∨ (s.slice board ≠ {} ∧ s.boardCrews board ≠ []) →
       exec (.sliceStart board) s = .next s))

/-- Launches (R245 to R255, R326, R327, R349). A write to a launch window submits a packet, or is refused and counted; an
accepted one takes a serial and an entry; the dispatcher finds it ready when its awaited objects are complete, ends it with
their STATUS when one is not 0, or with STATUS 1 when one cannot be read, and binds it to its extents and to a set for every
split mode it permits; it completes when every crew has retired, and its object takes STAMP, ARRIVED, FLAGS and STATUS. A set is
ready, or current in place of another, once every overlay is translated and the carve-out has room, for which the set that
nothing uses and that was bound longest ago is removed; without room it waits (R322, R325, R327). What waits for a slice group under
test, or a channel never granted, is read and written later (R392, R409). The model's own: an awaited object in a poisoned granule
ends the launch as an unreadable one does (log entry 24), the bytes that a set takes (log entry 109), and a set re-optimised counted
as bound when it completes (log entry 28). -/
def Obligations.LaunchEvents : Prop :=
  ∀ (s : State) (v off n : Nat) (bytes : List Byte) (l : Launch) (ext : List Extent) (i : Image) (k : Kernel) (x : TransSet)
    (p : Place) (y : Completion) (st core : Nat) (packed : List (Nat × List Byte)),
    let f := s.fn v
    let r := leNat bytes
    let refused : Nat → State := fun w => s.modFn v fun f => { f with refused := f.refused + 1, lastref := BitVec.ofNat 64 w }
    let done : Completion := { fn := l.fn, addr := l.pkt.signal, serial := l.serial, flags := l.flags, status := l.status
                               arrive := true, extents := l.extents }
    (s.dev.phase = 15 → exec (.launchWindowWrite v off bytes) s = .next s) ∧
    (s.dev.phase ≠ 15 → (bytes.length ≠ 64 ∨ off % 64 ≠ 0 ∨ 0xF40 < off) →
      exec (.launchWindowWrite v off bytes) s = .next (refused 4)) ∧
    (s.dev.phase ≠ 15 → bytes.length = 64 → off % 64 = 0 → off ≤ 0xF40 →
      (∀ e, s.packetFails v r = some e → exec (.launchWindowWrite v off bytes) s = .next (refused (3 + 256 * e))) ∧
      (s.packetFails v r = none → f.quota.toNat % 2 ^ 14 ≤ s.poolHeld v →
        exec (.launchWindowWrite v off bytes) s = .next (refused 1)) ∧
      (s.packetFails v r = none → s.poolHeld v < f.quota.toNat % 2 ^ 14 → 64 ≤ s.poolHeld v → 6144 ≤ s.sharedUsed →
        exec (.launchWindowWrite v off bytes) s = .next (refused 2)) ∧
      (s.packetFails v r = none → s.poolHeld v < f.quota.toNat % 2 ^ 14 → (s.poolHeld v < 64 ∨ s.sharedUsed < 6144) →
        s.imageOf v ((packetOf r).kernel / 2 ^ 16) = some i → i.kernels[(packetOf r).kernel % 2 ^ 16]? = some k →
        ∃ s', exec (.launchWindowWrite v off bytes) s = .next s' ∧ (s'.fn v).serial = f.serial + 1 ∧
          (s'.fn v).accepted = f.accepted + 1 ∧ ∃ l', Tbl.find? s'.launches s.uids = some l' ∧ l'.fn = v ∧ l'.serial = f.serial ∧
            l'.pkt = packetOf r ∧ l'.kern = k ∧ l'.priv = (if v = 0 ∧ i.keySlot = 0 then .h else .u) ∧ l'.ready = false)) ∧
    -- readiness
    (Tbl.find? s.launches n = some l → l.ready = false → l.halted = false → l.pkt.await0 = 0 → l.pkt.await1 = 0 →
      s.listWaits l.fn = false → s.extentList l.fn = (some ext, s) → List.find? (fun i : Image => i.fn == l.fn && i.num == l.image) s.images = some i →
      ∃ s' l', exec (.launchReady n) s = .next s' ∧ Tbl.find? s'.launches n = some l' ∧ l'.ready = true ∧ l'.extents = ext ∧
        (∀ m, m < 3 → l.pkt.splits.testBit m = true → ∃ z, Tbl.find? l'.sets m = some z ∧ (Tbl.find? s'.sets z).isSome = true)) ∧
    (Tbl.find? s.launches n = some l → l.ready = false → l.halted = false → s.listWaits l.fn = false →
      s.extentList l.fn = (none, s) → l.pkt.await0 = 0 → l.pkt.await1 = 0 →
      let unbound : Launch := { l with ready := true, extents := [] }
      s.signalWaits unbound = false → exec (.launchReady n) s = .next (s.endLaunch n unbound 0 1)) ∧
    (Tbl.find? s.launches n = some l → (l.ready = true ∨ l.halted = true ∨ s.listWaits l.fn = true) →
      exec (.launchReady n) s = .next s) ∧
    (Tbl.find? s.launches n = some l → l.ready = false → l.halted = false → s.listWaits l.fn = false → (s.extentList l.fn).2 = s →
      l.pkt.await0 ≠ 0 → l.pkt.await1 = 0 →
      let list := (s.extentList l.fn).1.getD []
      let at_ := s.objPlace l.fn list l.pkt.await0.toNat false
      let here : Prop := at_ = (some p, s) ∧ s.objWaits l.fn list l.pkt.await0.toNat false = false
      let read : Prop := here ∧ s.markedIn p 16 = false ∧ ∀ j, j < 16 → s.inFlight (p.add j) = false
      let o := objOf (s.readNat p 16)
      (s.objWaits l.fn list l.pkt.await0.toNat false = true → exec (.launchReady n) s = .next s) ∧
      (read → o.status = 0 → (o.arrived - o.expected).toInt < 0 → exec (.launchReady n) s = .next s) ∧
      (read → o.status.toNat = st + 1 → s.signalWaits l = false →
        exec (.launchReady n) s = .next (s.endLaunch n l 0 (st + 1))) ∧
      ((at_ = (none, s) ∧ s.objWaits l.fn list l.pkt.await0.toNat false = false ∨ here ∧ s.markedIn p 16 = true) →
        s.signalWaits l = false → exec (.launchReady n) s = .next (s.endLaunch n l 0 1))) ∧
    -- completion
    (Tbl.find? s.launches n = some l → s.launchOver n l = false → exec (.launchComplete n) s = .next s) ∧
    (Tbl.find? s.launches n = some l → s.signalWaits l = true → exec (.launchComplete n) s = .next s) ∧
    (Tbl.find? s.launches n = some l → s.launchOver n l = true → s.signalWaits l = false →
      (l.pkt.signal = 0 → exec (.launchComplete n) s = .next { s with launches := Tbl.erase s.launches n }) ∧
      (l.pkt.signal ≠ 0 → (s.descheduled l.fn = true ∨ (s.fn l.fn).withheld ≠ []) → exec (.launchComplete n) s =
        .next { s.modFn l.fn (fun f => { f with withheld := f.withheld ++ [done] }) with launches := Tbl.erase s.launches n }) ∧
      (l.pkt.signal ≠ 0 → s.descheduled l.fn = false → (s.fn l.fn).withheld = [] → ∃ s', exec (.launchComplete n) s = .next s' ∧
        s'.launches = Tbl.erase s.launches n ∧ s'.mem = (s.deliver done).mem ∧ s'.host = (s.deliver done).host)) ∧
    -- the write of an object without a LINK
    (s.objPlace y.fn y.extents y.addr.toNat true = (some p, s) →
      (∀ j, j < 32 → s.inFlight (p.add j) = false) → s.readNat (p.add 24) 8 = 0 →
      (∀ j j', j < 32 → j' < 32 → j ≠ j' → s.cell (p.add j) ≠ s.cell (p.add j')) →
      let o := objOf (s.readNat p 16)
      s.deliver y = (s.writeNat (p.add 16) 8 y.serial.toNat).writeNat p 16
        ((if y.arrive = true then o.arrived + 1 else o.arrived).toNat + o.expected.toNat * 2 ^ 32 +
          (o.flags ||| y.flags).toNat * 2 ^ 64 + (if o.status = 0 then y.status % 2 ^ 32 else o.status.toNat) * 2 ^ 96)) ∧
    -- translation
    (let table := packTable packed
     let size := packedSize table
     let covered : Prop := ∀ o ∈ x.overlays, ∃ z ∈ packed, z.1 = o.1
     let works : Nat → Prop := fun w => core < 16 ∧ { kind := 10, num := core } ∉ s.dev.testing ∧ s.barred 5 core w = false
     let bound : Prop := ∃ z ∈ s.launches, (∃ m ∈ z.2.sets, m.2 = n) ∧ works z.2.fn
     let fits : State → Prop := fun s => s.cacheUsed + size ≤ s.tcsize
     let newer : TransSet := { x with bound := s.uids, packed := table }
     let reopt : Prop := f.tctl.getLsbD 0 = true ∧ f.tctl.toNat / 256 % 256 = x.domain ∧ x.current = true ∧ x.ready = true ∧ works v
     let done : State → State := fun s => { s with sets := Tbl.insert s.sets n { x with ready := true, packed := table } }
     let renewed : State → State := fun s =>
       { s with uids := s.uids + 1, sets := Tbl.insert (Tbl.insert s.sets n { x with current := false }) s.uids newer }
     (∀ z ∈ packed, (packed.map Prod.fst).Nodup → Tbl.find? table z.1 = some ⟨z.2, crc32c z.2⟩) ∧
     (∀ k z, s.oldestSet = some k → Tbl.sortedFrom 0 s.sets = true → Tbl.find? s.sets k = some z →
       s.setUsed k z = false ∧ ∀ e ∈ s.sets, s.setUsed e.1 e.2 = false → z.bound ≤ e.2.bound) ∧
     (Tbl.find? s.sets n = some x → x.ready = false → x.fetching = none → covered → bound →
       (fits s → exec (.translationDone ⟨n, core, packed⟩) s = .next (done s)) ∧
       (¬ fits s → s.oldestSet = none → exec (.translationDone ⟨n, core, packed⟩) s = .next s) ∧
       (∀ k, ¬ fits s → s.oldestSet = some k → fits { s with sets := Tbl.erase s.sets k } →
         exec (.translationDone ⟨n, core, packed⟩) s = .next (done { s with sets := Tbl.erase s.sets k }))) ∧
     (Tbl.find? s.sets n = some x → (x.ready = true ∨ x.fetching ≠ none ∨ ¬ covered ∨ ¬ bound) →
       exec (.translationDone ⟨n, core, packed⟩) s = .next s) ∧
     (Tbl.find? s.sets n = some x → covered →
       (reopt → fits s → exec (.reoptSetComplete v ⟨n, core, packed⟩) s = .next (renewed s)) ∧
       (reopt → ¬ fits s → s.oldestSet = none → exec (.reoptSetComplete v ⟨n, core, packed⟩) s = .next s) ∧
       (¬ reopt → exec (.reoptSetComplete v ⟨n, core, packed⟩) s = .next s)))


/-! ### Paging, registers, functions -/

/-- Page requests (R351, R354 to R356, R389, R395). A response answers the pending request that its ID names, once; INVAL takes a
page from every team of the function; a granted page enters the final pass; a refused one traps with REASON 2, or 3 where the
walk failed stage 2, and with REASON 4 when a fourth walk fails; a request takes a reserved entry while the function has one,
with its record in the ring, and waits otherwise; arbiter 6 gives the oldest waiting request of the function it chooses a shared
entry. A device in FAILED takes no write (R419). What waits for a slice group under test, or a channel never granted, waits (R392,
R409). That a reserved bit of PRRESP, PRQHEAD or INVAL is refused with code 1 is the model's reading (log entry 49, DEDUCED). -/
def Obligations.PagingEvents : Prop :=
  ∀ (s : State) (v uid e va gen tier : Nat) (hyper : Bool) (x : Word64) (p : PrqEntry) (r : PageReq) (t : Team) (y : ProbeState)
    (pa : Nat) (host w : Bool) (rest : List PageReq),
    -- PRRESP
    (s.dev.phase ≠ 15 →
      (x.toNat < 2 ^ 17 → x.toNat % 1024 = e → x.toNat / 1024 % 64 = gen → Tbl.find? s.dev.prq e = some p → p.req = some r →
        p.gen = gen → p.answer = none → (if hyper = true then r.kind = 2 else r.kind = 1 ∧ r.fn = v) →
        (s.fn r.fn).state ≠ .resetting →
        exec (.prresp v hyper x) s = .next { s with dev := { s.dev with
          prq := Tbl.insert s.dev.prq e { p with answer := some (!x.getLsbD 16) } } }) ∧
      (x.toNat < 2 ^ 17 → x.toNat % 1024 = e → Tbl.find? s.dev.prq e = some p →
        (p.req = none ∨ p.gen ≠ x.toNat / 1024 % 64 ∨ p.answer ≠ none) → exec (.prresp v hyper x) s = .next s) ∧
      (2 ^ 17 ≤ x.toNat → exec (.prresp v hyper x) s = .next (s.modFn v fun f => { f with cfgerr := 1 })) ∧
      -- the ring registers, with nothing held back
      (x.toNat < 2 ^ 16 → (s.fn v).ringHeld = [] → ∃ s', exec (.prqhead v false x) s = .next s' ∧ (s'.fn v).prqhead = x ∧
        ({ s' with fns := s.fns } : State) = s ∧ ∀ u, u ≠ v → s'.fn u = s.fn u) ∧
      (x.toNat < 2 ^ 16 → s.dev.hheld = [] →
        exec (.prqhead v true x) s = .next { s with dev := { s.dev with hhead := x } }) ∧
      (2 ^ 16 ≤ x.toNat → exec (.prqhead v hyper x) s = .next (s.modFn v fun f => { f with cfgerr := 1 })) ∧
      ((x = 0 ∨ (x.toNat < 2 ^ 56 ∧ x.toNat / 16 % 256 = 0 ∧ 4 ≤ x.toNat % 16 ∧ x.toNat % 16 ≤ 12)) → (s.fn v).ringHeld = [] →
        ∃ s', exec (.prqbase v false x) s = .next s' ∧ (s'.fn v).prqbase = x ∧
        ({ s' with fns := s.fns } : State) = s ∧ ∀ u, u ≠ v → s'.fn u = s.fn u) ∧
      (x ≠ 0 → (2 ^ 56 ≤ x.toNat ∨ x.toNat / 16 % 256 ≠ 0 ∨ x.toNat % 16 < 4 ∨ 12 < x.toNat % 16) →
        exec (.prqbase v hyper x) s = .next (s.modFn v fun f => { f with cfgerr := 1 })) ∧
      -- INVAL
      (x.toNat % 4096 = 0 → ∃ s', exec (.inval v x) s = .next s' ∧ ({ s' with teams := s.teams } : State) = s ∧
        (∀ u a b, Tbl.find? s.teams u = some a → Tbl.find? s'.teams u = some b → s.fnOf a = v →
          (∀ z, z ∈ b.link.pages ↔ z ∈ a.link.pages ∧ z.va ≠ x.toNat) ∧ b.regs = a.regs ∧ b.ctl = a.ctl ∧ b.status = a.status) ∧
        (∀ u a, Tbl.find? s.teams u = some a → s.fnOf a ≠ v → Tbl.find? s'.teams u = some a)) ∧
      (x.toNat % 4096 ≠ 0 → exec (.inval v x) s = .next (s.modFn v fun f => { f with cfgerr := 1 }))) ∧
    (s.dev.phase = 15 → exec (.prresp v hyper x) s = .next s ∧ exec (.prqhead v hyper x) s = .next s ∧
      exec (.prqbase v hyper x) s = .next s ∧ exec (.inval v x) s = .next s) ∧
    -- replay
    (Tbl.find? s.teams uid = some t → t.link.probe = some y → s.crewRuns t = true →
      s.duePage y = some (va, .requested e) → Tbl.find? s.dev.prq e = some p → p.req = some r →
      (p.answer = some false → exec (.probeReplay uid) s = .next (((s.endRequest r.fn e).modProbe uid fun z =>
        z.setPage va (.refused (if r.kind = 2 then 3 else 2))).finishProbe uid)) ∧
      (p.answer = some true → ((s.endRequest r.fn e).walk r.fn va).1 = .valid pa host w →
        exec (.probeReplay uid) s = .next ((((s.endRequest r.fn e).walk r.fn va).2.modProbe uid fun z =>
          z.setPage va (.granted pa host w)).finishProbe uid)) ∧
      (p.answer = some true → ((s.endRequest r.fn e).walk r.fn va).1 = .waits → exec (.probeReplay uid) s = .next s) ∧
      (p.answer = some true → (∀ pa host w, ((s.endRequest r.fn e).walk r.fn va).1 ≠ .valid pa host w) →
        ((s.endRequest r.fn e).walk r.fn va).1 ≠ .waits →
        (r.rep = 3 → exec (.probeReplay uid) s = .next ((((s.endRequest r.fn e).walk r.fn va).2.modProbe uid fun z =>
          z.setPage va (.refused 4)).finishProbe uid)) ∧
        (r.rep ≠ 3 → exec (.probeReplay uid) s =
          .next (((s.endRequest r.fn e).walkPage uid va (r.rep + 1)).finishProbe uid)))) ∧
    (Tbl.find? s.teams uid = some t → t.link.probe = some y → (s.duePage y = none ∨ s.crewRuns t = false) →
      exec (.probeReplay uid) s = .next s) ∧
    -- a request
    (let z := s.makeRequest r
     let free : Nat → Prop := fun q => q < 1024 ∧ (Tbl.find? s.dev.prq q).bind PrqEntry.req = none
     let id : Nat → Nat := fun q => ((Tbl.find? s.dev.prq q).map fun o => (o.gen + 1) % 64).getD 0
     (s.fn r.fn).prqWait = [] →
       (z.fn r.fn).vprq = (s.fn r.fn).vprq + 1 ∧
       (16 ≤ s.prqHeld r.fn false → (z.fn r.fn).prqWait = [r] ∧ z.dev = s.dev ∧ z.mem = s.mem ∧ z.host = s.host) ∧
       (s.prqHeld r.fn false < 16 → (∃ q, free q) → (z.fn r.fn).prqWait = [] ∧ ∃ q o, free q ∧ Tbl.find? z.dev.prq q = some o ∧
         o.req = some r ∧ o.shared = false ∧ o.answer = none ∧ o.gen = id q ∧
         ∀ l, r.kind = 1 → (s.fn r.fn).ringHeld = [] → s.ringPlace r.fn 1 = some l → o.written = true ∧
           (z.fn r.fn).prqtail = BitVec.ofNat 64 (((s.fn r.fn).prqtail.toNat + 1) % 65536) ∧
           z.mem = (s.writeBytes l (r.bytes q (id q))).mem)) ∧
    -- the final pass of a probe of one lane
    (∀ (lane : Nat) (a : Word64), Tbl.find? s.teams uid = some t → t.link.probe = some y → y.lanes = [(lane, a, none)] →
      lane < t.nlane → t.nlane ≤ 1024 → a.toNat / 4096 * 4096 = va → s.lostOverlay t t.ctl.bank t.ctl.pc = none →
      (y.pages = [(va, .refused 2)] → s.finishProbe uid = ((s.modTeam uid fun z =>
          { z with status := .runnable, link := { z.link with probe := none } }).raise uid
          { cause := .probe, addr := a, info := BitVec.ofNat 32 (lane + 2 * 2 ^ 19), done := t.ctl.skip }).modTeam uid fun z =>
        { z with link := { z.link with pages := z.link.pages.map fun e => { e with fresh := false } } }) ∧
      (y.pages = [(va, .granted pa host w)] → t.link.pages = [] → (s.extentsOf t).length < 2048 →
        ∃ t', Tbl.find? (s.finishProbe uid).teams uid = some t' ∧ t'.status = .runnable ∧ t'.ctl.pc = t.ctl.pc + 4 ∧
          t'.regs.v y.dest lane = (if w = true then 3 else 1) ∧
          t'.link.pages = [{ va := va, pa := pa, host := host, w := w }])) ∧
    -- a shared entry
    ((s.arbiter 6).choose 1024 s.sharedWaiters = some (v, tier) → (s.fn v).prqWait = r :: rest →
      exec .prqEntryGrant s = .next ((({ s with dev := { s.dev with
          arbiters := Tbl.insert s.dev.arbiters 6 ((s.arbiter 6).grant v tier) } } : State).modFn v fun f =>
        { f with prqWait := rest }).takeEntry r true)) ∧
    (s.sharedWaiters = [] → exec .prqEntryGrant s = .next s)

/-- Configuration registers (R348, R365, R372 to R375, R388, R410, R418, R429, R431, R440): a value within its limits is taken and
changes nothing else; a value outside them leaves the register and gives the window the code of R375. A key slot that holds zero
takes a write, and is locked from its first nonzero one until a device reset; that KEY_SLOT_WRITE writes its eight registers together,
and locks them as one, is the model's reading (log entry 60, DEDUCED). A device in FAILED takes no write (R419). -/
def Obligations.RegisterEvents : Prop :=
  ∀ (s : State) (v n : Nat) (x : Word64),
    let code : Nat → Nat → Out := fun w c => .next (s.modFn w fun f => { f with cfgerr := c })
    let sets : (Fn → Fn) → Out := fun f => .next (s.modFn v f)
    let off : Prop := v ≠ 0 ∧ (s.fn v).state = .off
    let gib : Prop := x.toNat < 2 ^ 40 ∧ x.toNat % 2 ^ 30 = 0
    let quotas : Prop := x.toNat / 2 ^ 32 ≤ 4096 ∧ x.toNat / 2 ^ 24 % 2 ^ 8 = 0 ∧ x.toNat / 2 ^ 16 % 256 ≤ 128 ∧
      x.toNat / 2 ^ 14 % 4 = 0 ∧ 64 ≤ x.toNat % 2 ^ 14 ∧ x.toNat % 2 ^ 14 ≤ 8192
    let rates : Prop := x.toNat < 2 ^ 24 ∧ 1 ≤ x.toNat / 2 ^ 20 ∧ x.toNat / 2 ^ 17 % 8 = 0 ∧ x.toNat / 2 ^ 11 % 32 = 0 ∧
      x.toNat % 2 ^ 11 ≤ 1024
    let sum : Nat := guarSum (fun w => if w = v then x else (s.fn w).rate n) (s.metered n)
    let staged : Nat := (List.range 32).foldl (fun m w => if w = v then m else m + (s.fn w).stgq.toNat) 0
    let blocks : Prop := x.toNat < 2 ^ 27 ∧ x.toNat % 64 = 0
    let key := s.dev.keys.get (List.replicate 8 0) v
    (s.dev.phase = 15 → ∀ k0 ks, (∀ i ∈ [Instr.flog0 v x, .trhead v x, .s2base v x, .s2bound v x, .quota v x, .rate v n x, .stgq v x,
      .errcnt x, .keySlotWrite v k0 ks, .fabid x, .planemap x, .linkEnable n x, .tgresolve x], exec i s = .next s)) ∧
    (s.dev.phase ≠ 15 →
    (x = 0 → exec (.flog0 v x) s = sets fun f => { f with flog0 := 0, flog1 := 0, flog2 := 0, flog3 := 0 }) ∧
    (x ≠ 0 → exec (.flog0 v x) s = .next s) ∧
    (x.toNat < 2 ^ 32 → (s.fn v).trWait = [] → ∃ s', exec (.trhead v x) s = .next s' ∧ (s'.fn v).trhead = x ∧
      ({ s' with fns := s.fns } : State) = s ∧ ∀ u, u ≠ v → s'.fn u = s.fn u) ∧
    (2 ^ 32 ≤ x.toNat → exec (.trhead v x) s = .next s) ∧
    (gib → off → exec (.s2base v x) s = sets (fun f => { f with s2base := x }) ∧
      exec (.s2bound v x) s = sets fun f => { f with s2bound := x }) ∧
    (¬ gib → exec (.s2base v x) s = code v 1 ∧ exec (.s2bound v x) s = code v 1) ∧
    (gib → ¬ off → exec (.s2base v x) s = code v 2 ∧ exec (.s2bound v x) s = code v 2) ∧
    (quotas → off → exec (.quota v x) s = sets fun f => { f with quota := x }) ∧
    (¬ quotas → exec (.quota v x) s = code v 1) ∧ (quotas → ¬ off → exec (.quota v x) s = code v 2) ∧
    (n < 7 → rates → sum ≤ 1024 → exec (.rate v n x) s = sets fun f => { f with rates := Tbl.set f.rates rateInit n x }) ∧
    (n < 7 → ¬ rates → exec (.rate v n x) s = code v 1) ∧ (n < 7 → rates → 1024 < sum → exec (.rate v n x) s = code v 6) ∧
    (blocks → staged + x.toNat ≤ s.fab.stgsize * 2 ^ 20 → exec (.stgq v x) s = sets fun f => { f with stgq := x }) ∧
    (¬ blocks → exec (.stgq v x) s = code v 1) ∧
    (blocks → s.fab.stgsize * 2 ^ 20 < staged + x.toNat → exec (.stgq v x) s = code v 6) ∧
    (exec (.errcnt x) s = .next (if x = 0 then { s with dev := { s.dev with errcnt := 0 } } else s)) ∧
    (∀ (k0 : Word64) (ks : List Word64),
      (1 ≤ v → v ≤ 15 → (∀ z ∈ key, z = 0) → exec (.keySlotWrite v k0 ks) s =
        .next { s with dev := { s.dev with keys := Tbl.insert s.dev.keys v ((List.range 8).map fun i => (k0 :: ks).getD i 0) } }) ∧
      ((v = 0 ∨ 15 < v ∨ ∃ z ∈ key, z ≠ 0) → exec (.keySlotWrite v k0 ks) s = .next s)) ∧
    -- the fabric's registers
    (x.toNat < 2 ^ 17 → x.toNat / 2 ^ 10 % 64 = 0 → (∀ k, k < 16 → (s.link k).state = 0) →
      exec (.fabid x) s = .next { s with fab := { s.fab with fabid := x } }) ∧
    (x.toNat < 2 ^ 17 → x.toNat / 2 ^ 10 % 64 = 0 → n < 16 → (s.link n).state ≠ 0 → exec (.fabid x) s = code 0 8) ∧
    ((2 ^ 17 ≤ x.toNat ∨ x.toNat / 2 ^ 10 % 64 ≠ 0) → exec (.fabid x) s = code 0 1) ∧
    (x.toNat < 2 ^ 48 → x.toNat / 2 ^ 24 % 256 = 0 →
      exec (.planemap x) s = if 0 < (mapGen x - mapGen (s.fab.pendingMap.getD s.fab.planemap)).toInt then
        .next { s with fab := { s.fab with pendingMap := some x } } else code 0 1) ∧
    (n < 16 → x.toNat % 2 ^ 32 < 8 → x.getLsbD 2 = true → (s.link n).retired = false →
      exec (.linkEnable n x) s = .next (s.modLink n fun l => { l with en := true, state := if l.state = 0 then 1 else l.state })) ∧
    (n < 16 → 8 ≤ x.toNat % 2 ^ 32 → exec (.linkEnable n x) s = code 0 1) ∧
    (n < 16 → x.toNat % 2 ^ 32 < 8 → (s.link n).retired = true → exec (.linkEnable n x) s = .next s) ∧
    (∀ r : DestRec, x.toNat < 2 ^ 34 → x.toNat / 2 ^ 31 % 2 = 0 →
      List.find? (fun r : DestRec => groupBits r.gid == x.toNat % 2 ^ 31 && r.st == .inDoubt) s.fab.recs = some r →
      (x.toNat / 2 ^ 32 = 1 → exec (.tgresolve x) s = .next (s.settleRec r true)) ∧
      (x.toNat / 2 ^ 32 = 2 → exec (.tgresolve x) s = .next (s.settleRec r false))) ∧
    ((∀ r ∈ s.fab.recs, r.st ≠ .inDoubt) → x.toNat < 2 ^ 34 → x.toNat / 2 ^ 31 % 2 = 0 → x.toNat / 2 ^ 32 = 1 →
      exec (.tgresolve x) s = .next s) ∧
    ((2 ^ 34 ≤ x.toNat ∨ x.toNat / 2 ^ 31 % 2 ≠ 0 ∨ x.toNat / 2 ^ 32 % 4 = 0 ∨ x.toNat / 2 ^ 32 % 4 = 3) →
      exec (.tgresolve x) s = code 0 1))

/-- The assignment and virtual functions. BRDCFG and SGCFG (R372 to R374), and writes through a configuration window by level
(R225, R375, R413, R419). An enable that passes its checks prepares the function under a fresh key; its scrub leaves every byte of
its carve-out zero, and every mark and counter, and it runs; a reset, or a function-level reset, of a running function stops it at once and takes its
crews, images and page requests; it ends with every launch's object written and the function's registers as reset leaves them;
once they can be written; and a period of an arbiter takes in the rates, at which what the device held back goes on (R377, R388, R389,
R399, R400, R402, R404, R409, R420, R424, R438). The order of SGCFG's refusals 1, 7, 2 and 6 is the model's (log entry 50, DEDUCED), and
so is which counters a scrub of a shared window resets (log entry 124). -/
def Obligations.FunctionEvents : Prop :=
  (∀ (s : State) (b g v off : Nat) (x : Word64),
     let code : Nat → Out := fun c => .next (s.modFn 0 fun f => { f with cfgerr := c })
     let boardOk : Prop := x.toNat < 2 ^ 30 ∧ x.toNat / 2 ^ 18 % 4 = 0 ∧ x.toNat / 2 ^ 13 % 8 = 0 ∧ x.toNat / 2 ^ 5 % 8 = 0 ∧
       brdSplit x ≠ 3 ∧
       (if brdMode x = 2 then brdVfb x ≠ brdVfa x ∧ 1 ≤ brdSla x ∧ 1 ≤ brdSlb x
         else brdVfb x = 0 ∧ brdSla x = 0 ∧ brdSlb x = 0 ∧ (brdMode x = 1 ∨ brdVfa x = 0))
     let groupOk : Prop := x.toNat < 2 ^ 18 ∧ x.toNat / 2 ^ 5 % 2 ^ 11 = 0 ∧ sgMode x ≠ 2 ∧ (sgMode x = 1 ∨ sgOwner x = 0)
     let allOff : Prop := ∀ u ∈ s.sgAffected (s.sg g) x, u ≠ 0 ∧ (s.fn u).state = .off
     let s1 : State := { s with dev := { s.dev with sgcfg := Tbl.set s.dev.sgcfg 0 g x } }
     let rated : Prop := ∀ a, a < 3 → guarSum (fun w => (s.fn w).rate a) (s1.metered a) ≤ 1024
     -- a board without crews
     (s.dev.phase ≠ 15 → b < 24 → boardOk → s.boardCrews b = [] → ∃ s', exec (.brdcfg b x) s = .next s' ∧ s'.brd b = x ∧
       (∀ i, i ≠ b → s'.brd i = s.brd i) ∧ s'.crews = s.crews ∧ s'.teams = s.teams ∧ s'.mem = s.mem ∧ s'.fns = s.fns) ∧
     -- a board whose crews the value moves keeps its old value until they have stopped
     (∀ k c core sub, s.dev.phase ≠ 15 → b < 24 → boardOk → Tbl.find? s.crews k = some c → c.place = some (core, sub) → core / 8 = b →
       c.status = .running → s.crewStays x c = false → ∃ s' c', exec (.brdcfg b x) s = .next s' ∧ s'.brd b = s.brd b ∧
         Tbl.find? s'.crews k = some c' ∧ ∃ why, c'.status = .stopping why) ∧
     (∀ k c, s.dev.phase ≠ 15 → b < 24 → boardOk → Tbl.sortedFrom 0 s.crews = true → Tbl.find? s.crews k = some c →
       c.table = none → (c.place.map (fun p => p.1 / 8) ≠ some b ∨ s.crewStays x c = true) →
       ∃ s', exec (.brdcfg b x) s = .next s' ∧ Tbl.find? s'.crews k = some c) ∧
     (s.dev.phase = 15 → exec (.brdcfg b x) s = .next s ∧ exec (.sgcfg g x) s = .next s) ∧
     (s.dev.phase ≠ 15 → b < 24 → ¬ boardOk → exec (.brdcfg b x) s = code 1) ∧
     (s.dev.phase ≠ 15 → g < 16 → groupOk → allOff → rated → (s.dev.retiredGroups.get false g = false ∨ sgMode x = 0) →
       exec (.sgcfg g x) s = .next s1) ∧
     (s.dev.phase ≠ 15 → g < 16 → ¬ groupOk → exec (.sgcfg g x) s = code 1) ∧
     (s.dev.phase ≠ 15 → g < 16 → groupOk → s.dev.retiredGroups.get false g = true → (sgMode x = 1 ∨ sgMode x = 3) → exec (.sgcfg g x) s = code 7) ∧
     (s.dev.phase ≠ 15 → g < 16 → groupOk → s.dev.retiredGroups.get false g = false → ¬ allOff → exec (.sgcfg g x) s = code 2) ∧
     (s.dev.phase ≠ 15 → g < 16 → groupOk → s.dev.retiredGroups.get false g = false → allOff → ¬ rated → exec (.sgcfg g x) s = code 6) ∧
     -- by level
     (v < 32 → s.dev.phase ≠ 15 → off = 0xD00 → ∀ atH, exec (.configRegisterWrite { atH := atH, window := v, offset := off } x) s =
         if x.toNat < 2 ^ 56 ∧ x.toNat % 16 = 0 then .next (s.modFn v fun f => { f with lttptr := x })
         else .next (s.modFn v fun f => { f with cfgerr := 1 })) ∧
     (v < 32 → (0xE50 ≤ off ∧ off ≤ 0xEB8 ∨ 0x1000 ≤ off) →
       exec (.configRegisterWrite { atH := false, window := v, offset := off } x) s = .next s) ∧
     (s.dev.phase = 15 → off ≠ 0x1408 → exec (.configRegisterWrite { atH := true, window := v, offset := off } x) s = .next s) ∧
     (off % 8 ≠ 0 → exec (.configRegisterWrite { atH := true, window := v, offset := off } x) s = .next s)) ∧
  (∀ (s : State) (v arb inst : Nat),
     let f := s.fn v
     let code : Nat → Out := fun c => .next (s.modFn v fun f => { f with cfgerr := c })
     let enables : Out := .next (({ s with uids := s.uids + 1 } : State).modFn v fun f =>
       { f with state := .preparing, en := true, key := s.uids, poisoned := 0 })
     let checked : Prop := 1 ≤ v ∧ v ≤ 31 ∧ s.checkpointing = false ∧ s.dev.phase ≠ 15
     (checked → f.state = .off → s.enableCode v = 0 → exec (.vfEnable v) s = enables) ∧
     (checked → f.state = .off → s.enableCode v ≠ 0 → exec (.vfEnable v) s = code (s.enableCode v)) ∧
     (checked → f.state ≠ .off → exec (.vfEnable v) s = .next s) ∧
     (s.enableCode v = 0 ↔ ((s.boardsOf v ≠ [] ∨ (s.rated v = true ∧ s.poolExists = true)) ∧ f.s2bound ≠ 0 ∧
       f.s2base.toNat + f.s2bound.toNat ≤ s.s2limit v ∧
       (s.rated v = true → ∀ w, w < 32 → w ≠ v → s.rated w = true → (s.fn w).state ≠ .off → carvesMeet f (s.fn w) = false))) ∧
     (s.dev.phase = 15 → exec (.vfEnable v) s = .next s ∧ exec (.vfReset v) s = .next s ∧ exec (.vfFlr v) s = .next s) ∧
     (s.dev.phase ≠ 15 → 1 ≤ v → v ≤ 31 → s.checkpointing = true →
       exec (.vfEnable v) s = code 8 ∧ exec (.vfReset v) s = code 8 ∧ exec (.vfFlr v) s = code 8) ∧
     -- the scrub
     (f.state = .preparing → ∃ s', exec (.vfScrubDone v) s = .next s' ∧ (s'.fn v).state = .running ∧ (s'.fn v).serial = 1 ∧
       (s'.fn v).poisoned = f.poisoned ∧ (s'.fn v).key = f.key ∧
       (∀ a, s.inCarve v a = true → peek s'.mem a = 0) ∧ (∀ a, s.inCarve v a = false → peek s'.mem a = peek s.mem a) ∧
       (∀ k, s.inCarve v (k * 64) = true → s'.dev.poison.get false k = false ∧ Tbl.find? s'.dev.stored k = none ∧
         (k * 64 % 2 ^ 35 < 30 * 2 ^ 30 →
           (∀ w, w < 32 → w ≠ v → s.rated w = true → (s.fn w).state ≠ .off → s.inCarve w (k * 64) = false) →
           (s'.dev.counters.get {} (k / 64)).minors.get 0 (k % 64) = 0)) ∧
       (∀ n, Tbl.find? s'.fab.streams (v * 1024 + n % 1024) = none) ∧ (∀ u, u ≠ v → s'.fn u = s.fn u)) ∧
     (f.state ≠ .preparing → exec (.vfScrubDone v) s = .next s) ∧
     -- a reset
     (checked → f.state = .running → ∃ s', exec (.vfReset v) s = .next s' ∧ exec (.vfFlr v) s = .next s' ∧
       (s'.fn v).state = .resetting ∧ (s'.fn v).en = false ∧ (∀ k c, Tbl.find? s'.crews k = some c → c.fn ≠ v) ∧
       (∀ i ∈ s'.images, i.fn ≠ v) ∧ (s'.fn v).prqWait = [] ∧ (s'.fn v).ringHeld = [] ∧
       (∀ k p, Tbl.find? s'.dev.prq k = some p → p.req.map PageReq.fn ≠ some v) ∧
       (∀ k l, Tbl.find? s'.launches k = some l → l.fn = v → l.halted = true) ∧ (∀ b, b < 24 → s'.sliceVf b ≠ some v)) ∧
     (checked → f.state ≠ .running → exec (.vfReset v) s = .next s ∧ exec (.vfFlr v) s = .next s) ∧
     (f.state = .resetting → s.resetWaits v = true → exec (.vfResetDone v) s = .next s) ∧
     (f.state = .resetting → s.resetWaits v = false → ∃ s', exec (.vfResetDone v) s = .next s' ∧ (s'.fn v).state = .off ∧ (s'.fn v).en = false ∧
       (s'.fn v).s2base = f.s2base ∧ (s'.fn v).s2bound = f.s2bound ∧ (s'.fn v).quota = f.quota ∧ (s'.fn v).rates = f.rates ∧
       (s'.fn v).tctl = f.tctl ∧ (s'.fn v).imgstat = 0 ∧ (s'.fn v).withheld = [] ∧ (s'.fn v).msix = [] ∧ (s'.fn v).flog0 = 0 ∧
       (∀ k l, (k, l) ∈ s'.launches → l.fn ≠ v) ∧
       (∀ q : Nat × Nat, (s.sub q).fn = v → (s'.sub q).halfA = none ∧ (s'.sub q).halfB = none ∧ (s'.sub q).loads = [])) ∧
     (f.state ≠ .resetting → exec (.vfResetDone v) s = .next s) ∧
     -- a period of an arbiter
     (s.dev.hheld = [] → (∀ u, u < 32 → (s.fn u).ringHeld = [] ∧ (s.fn u).trWait = [] ∧ (s.fn u).withheld = [] ∧ (s.fn u).msix = []) →
       ({ s.flushHeld with fns := s.fns } : State) = s ∧ ∀ u, s.flushHeld.fn u = s.fn u) ∧
     (arb < 7 → ∃ x : Arbiter, exec (.bucketRefill arb inst) s = .next ({ s with dev := { s.dev with
         arbiters := Tbl.insert s.dev.arbiters (arbKey arb inst) x } } : State).flushHeld ∧ x.granted = [] ∧
       (∀ u, u < 32 → x.rateOf u = if arb < 3 ∧ s.rated u = false then 0 else (s.fn u).rate arb) ∧
       (∀ u, u < 32 → x.tokens u = min (rateDepth (x.rateOf u) * x.share (s.arbCapacity arb) u)
         ((s.arbiter (arbKey arb inst)).tokens u + x.share (s.arbCapacity arb) u))))


/-! ### Images, boot, attestation, checkpoints, errors -/

/-- Images (R77, R409, R415 to R417, R419): a command that comes while one runs gets code 8; IMGCMD holds an accepted one; a load
of a running function begins, and at its end, which a translation core under test does not reach, the image that passed every check
of R77 takes the lowest free number, or IMGSTAT takes the code of the first check that failed; an unload, from which on no new
launch of the image is accepted, waits until no accepted launch of the image is left, and frees its number; none is heard in
phase 15. -/
def Obligations.ImageEvents : Prop :=
  ∀ (s : State) (v n core : Nat) (l : List Byte) (p : Parts) (i : Image),
    let f := s.fn v
    let busy : Prop := f.imgstat.toNat % 4 = 1
    let ends : Word64 → State → Out := fun w s' => .next ((s'.modFn v fun f => { f with imgstat := w, imgSource := [] }).msi v 1)
    let takes : Nat → State := fun c => s.modFn v fun f => { f with imgcmd := BitVec.ofNat 64 c }
    let stat : Nat → Nat → Nat → Nat → Word64 := fun kcount image code state =>
      BitVec.ofNat 64 (kcount % 2 ^ 16 * 2 ^ 32 + image * 2 ^ 16 + code * 2 ^ 8 + state)
    let works : Prop := core < 16 ∧ s.dev.testing.contains { kind := 10, num := core } = false
    (s.dev.phase = 15 → exec (.imgLoad v) s = .next s ∧ exec (.imgUnload v n) s = .next s) ∧
    (s.dev.phase ≠ 15 →
      (busy → exec (.imgLoad v) s = .next (s.modFn v fun f => { f with cfgerr := 8 }) ∧
        (n < 64 → exec (.imgUnload v n) s = .next (s.modFn v fun f => { f with cfgerr := 8 }))) ∧
      (¬ busy → f.state ≠ .running → exec (.imgLoad v) s = ends (stat 0 0 10 3) (takes 1)) ∧
      (¬ busy → f.state = .running → ∃ s', exec (.imgLoad v) s = .next s' ∧ (s'.fn v).imgstat = 1 ∧ (s'.fn v).imgcmd = 1 ∧
        s' = ((takes 1).imageSource v).2.modFn v fun f =>
          { f with imgstat := 1, imgSource := ((takes 1).imageSource v).1.getD [] }) ∧
      (¬ busy → n < 64 → s.imageOf v n = none → exec (.imgUnload v n) s = ends (stat 0 0 9 3) (takes (n * 2 ^ 16 + 2))) ∧
      (¬ busy → n < 64 → s.imageOf v n = some i → ∃ s', exec (.imgUnload v n) s = .next s' ∧ s'.imageOf v n = none ∧
        (s'.fn v).imgstat = 1 ∧ (s'.fn v).imgcmd = BitVec.ofNat 64 (n * 2 ^ 16 + 2) ∧ s'.launches = s.launches ∧
        s'.images.length = s.images.length) ∧
      (64 ≤ n → exec (.imgUnload v n) s = .next (s.modFn v fun f => { f with cfgerr := 1 }))) ∧
    -- the end of a load whose source has not changed since it began
    ((¬ works ∨ s.sourceWaits v = true) → exec (.imgLoadDone (v, core)) s = .next s) ∧
    (works → s.sourceWaits v = false → busy → f.imgcmd = 1 → f.state = .running → (s.imageSource v).1 = none →
      exec (.imgLoadDone (v, core)) s = ends (stat 0 0 8 3) s) ∧
    (works → s.sourceWaits v = false → busy → f.imgcmd = 1 → f.state = .running → s.imageSource v = (some l, s) → f.imgSource = l →
      (∀ c, s.checkImage v l = .error c → exec (.imgLoadDone (v, core)) s = ends (stat 0 0 c 3) s) ∧
      (s.checkImage v l = .ok p → s.freeImage v = none → exec (.imgLoadDone (v, core)) s = ends (stat 0 0 7 3) s) ∧
      (s.checkImage v l = .ok p → s.freeImage v = some n →
        exec (.imgLoadDone (v, core)) s = ends (stat p.headers.length n 0 2) { s with images := s.images ++ [p.image v n l] })) ∧
    (¬ busy → exec (.imgLoadDone (v, core)) s = .next s ∧ exec (.imgUnloadDone v) s = .next s) ∧
    (busy → f.imgcmd.toNat % 4 = 2 → f.imgcmd.toNat / 2 ^ 16 = n →
      ((∀ e ∈ s.launches, ¬ (e.2.fn = v ∧ e.2.image = n)) → exec (.imgUnloadDone v) s =
        ends (stat 0 0 0 2) { s with images := s.images.filter fun i => !(i.fn == v && i.num == n) }) ∧
      ((∃ e ∈ s.launches, e.2.fn = v ∧ e.2.image = n) → exec (.imgUnloadDone v) s = .next s))

/-- Boot, resets and checkpoints (R402, R414, R418 to R420, R422 to R424, R434). Power-on begins at phase 0 with nothing loaded;
each phase completes into the next or fails for a reason; phase 0 runs a staged firmware that verifies, and fails under one that
does not; the last applies the boot partition, under which VF 0 runs; a device reset, however it is asked, returns the package to
phase 0 with its key slots and translations gone, its device memory and what is retired as they were. A save stops every crew and
ends, once each is saved, with the state written under CKBASE; a restore, with every other function off, brings that state back, or
fails with its code; one command runs at a time, and none is heard in phase 15. The model's own: VF 0's carve-out at boot begins at 0
(log entry 11), what a reset keeps, and of its units (log entries 58 and 59), when a save or a restore ends with code 5 or 6 (log entry
61), what is written under CKBASE (log entry 62), and what follows a firmware that is refused (log entry 91). -/
def Obligations.BootAndCheckpointEvents : Prop :=
  (∀ (s : State) (fail : Nat) (x : Word64) (w : Firmware),
     let again : Instr → Prop := fun i => ∃ s', exec i s = .next s' ∧ s'.dev.phase = 0 ∧ s'.dev.fail = 0 ∧ s'.dev.keys = [] ∧
       s'.sets = [] ∧ s'.images = [] ∧ s'.launches = [] ∧ s'.crews = [] ∧ s'.teams = [] ∧ s'.fns = [] ∧ s'.subs = [] ∧
       s'.dev.brdcfg = [] ∧ s'.dev.sgcfg = [] ∧ s'.dev.retiredCols = s.dev.retiredCols ∧
       s'.dev.retiredGroups = s.dev.retiredGroups ∧ s'.dev.safe = s.dev.safe ∧ s'.dev.firmware = s.dev.firmware ∧
       s'.dev.staged = s.dev.staged ∧
       ∀ e ∈ s'.fab.links, e.2 = ({ retired := true, state := 3 } : Link)
     let good : Firmware → Prop := fun w =>
       slhVerify slh256s Config.fusedKey (Config.firmwareMessage w.image w.policy w.version) w.sig = true
     let accepted : Firmware → Prop := fun w => good w ∧ Config.rollback ≤ w.version
     -- boot goes on with a firmware that is accepted, and fails for what it does not meet
     let verdict : Firmware → State → Prop := fun w s' =>
       (accepted w → s'.dev.phase = 1 ∧ s'.dev.fail = 0) ∧ (¬ accepted w → s'.dev.phase = 15) ∧
       (¬ good w → s'.dev.fail = 1) ∧ (good w → w.version < Config.rollback → s'.dev.fail = 2)
     (∃ s', exec .powerOn s = .next s' ∧ s'.dev.phase = 0 ∧ s'.mem = [] ∧ s'.fns = [] ∧ s'.crews = [] ∧ s'.teams = [] ∧
       s'.images = [] ∧ s'.sets = [] ∧ s'.dev.keys = [] ∧ s'.host = s.host ∧ s'.dev.retiredCols = s.dev.retiredCols ∧
       s'.dev.retiredGroups = s.dev.retiredGroups ∧ s'.dev.safe = s.dev.safe ∧ s'.dev.firmware = s.dev.firmware ∧
       s'.dev.staged = s.dev.staged ∧ ∀ n, (Tbl.get s.fab.links {} n).retired = true → (Tbl.get s'.fab.links {} n).state = 3) ∧
     (s.dev.phase ≤ 3 → 1 ≤ fail → fail ≤ 5 → ∃ s', exec (.bootPhaseAdvance fail) s = .next s' ∧ s'.dev.phase = 15 ∧
       s'.dev.fail = fail) ∧
     (s.dev.phase = 0 → s.dev.staged = none → ∃ s', exec (.bootPhaseAdvance 0) s = .next s' ∧ verdict s.running s' ∧
       s'.dev.firmware = s.dev.firmware ∧ s'.dev.staged = none) ∧
     (s.dev.phase = 0 → s.dev.staged = some w → ∃ s', exec (.bootPhaseAdvance 0) s = .next s' ∧ verdict w s' ∧
       s'.dev.staged = none ∧ (accepted w → s'.dev.firmware = some w) ∧ (¬ accepted w → s'.dev.firmware = s.dev.firmware)) ∧
     (1 ≤ s.dev.phase → s.dev.phase ≤ 3 → ∃ s', exec (.bootPhaseAdvance 0) s = .next s' ∧ s'.dev.phase = s.dev.phase + 1 ∧
       s'.dev.fail = 0 ∧ (s.dev.phase = 1 → s'.dev.testing = []) ∧
       (s.dev.phase = 2 → s'.dev.tcshare = (s.policy.cacheShare.val + 1) * 2 ^ 26 ∧ s'.dev.deviceKey = s.uids)) ∧
     (s.dev.phase = 3 → ∃ s', exec (.bootPhaseAdvance 0) s = .next s' ∧ (s'.fn 0).state = .running ∧ (s'.fn 0).en = true ∧
       (s'.fn 0).serial = 1 ∧ (s'.fn 0).s2base = 0 ∧ (s'.fn 0).s2bound.toNat ≤ s'.s2limit 0 ∧
       (s'.fn 0).s2bound.toNat ≤ s.policy.bootBound * 2 ^ 30 ∧
       (s'.fn 0).key = s.uids ∧ s'.fab.stgsize = s.policy.stagingMiB.val ∧ ∀ a, s'.inCarve 0 a = true → peek s'.mem a = 0) ∧
     (3 < s.dev.phase → exec (.bootPhaseAdvance fail) s = .next s) ∧
     (x.getLsbD 0 = true → again (.devrst x)) ∧ (x.getLsbD 0 = false → exec (.devrst x) s = .next s) ∧
     again .pcieReset ∧ again .vendorResetMessage) ∧
  (∀ (s : State) (err : Nat) (c : Checkpoint),
     let ends : Nat → State → Out := fun code s' => .next (({ s' with
       dev := { s'.dev with ckstat := BitVec.ofNat 64 (if code = 0 then 2 else code * 2 ^ 8 + 3) } } : State).msi 0 4)
     let takes : Word64 → State := fun c => { s with dev := { s.dev with ckcmd := c } }
     let running : Prop := s.dev.ckstat.toNat % 4 = 1
     let quiet : Prop := ∀ v, v < 32 → (s.fn v).state ≠ .preparing ∧ (s.fn v).state ≠ .resetting
     let alone : Prop := ∀ v, 1 ≤ v → v < 32 → (s.fn v).state = .off
     let written : Checkpoint → List Byte := fun c => (List.range s.ckneed.toNat).map (Config.ckByte c.image)
     (s.dev.phase = 15 → exec .ckptSave s = .next s ∧ exec .ckptRestore s = .next s) ∧
     (s.dev.phase ≠ 15 →
       (running → exec .ckptSave s = .next (s.modFn 0 fun f => { f with cfgerr := 8 }) ∧
         exec .ckptRestore s = .next (s.modFn 0 fun f => { f with cfgerr := 8 })) ∧
       (¬ running → s.dev.cklen.toNat < s.ckneed.toNat → exec .ckptSave s = ends 1 (takes 1)) ∧
       (¬ running → s.ckneed.toNat ≤ s.dev.cklen.toNat → ¬ quiet → exec .ckptSave s = ends 6 (takes 1)) ∧
       (¬ running → s.ckneed.toNat ≤ s.dev.cklen.toNat → quiet → ∃ s', exec .ckptSave s = .next s' ∧ s'.dev.ckstat = 1 ∧
         s'.dev.ckcmd = 1 ∧ ∀ k d, Tbl.find? s.crews k = some d → d.status = .running →
           ∃ e, Tbl.find? s'.crews k = some e ∧ e.status = .stopping .checkpoint) ∧
       (¬ running → ¬ alone → exec .ckptRestore s = ends 5 (takes 2)) ∧
       (¬ running → alone → ((s.fn 0).state = .preparing ∨ (s.fn 0).state = .resetting) →
         exec .ckptRestore s = ends 6 (takes 2)) ∧
       (¬ running → alone → (s.fn 0).state ≠ .preparing → (s.fn 0).state ≠ .resetting →
         exec .ckptRestore s = .next { s with dev := { s.dev with ckcmd := 2, ckstat := 1 } })) ∧
     (¬ running → exec (.ckptDone err) s = .next s) ∧
     (running → exec (.ckptDone 2) s = ends 2 s) ∧
     (running → s.dev.ckcmd = 2 → exec (.ckptDone 3) s = ends 3 s) ∧
     (let z := s.settleGranules
      running → s.dev.ckcmd = 1 → (∀ e ∈ s.crews, e.2.place = none) → s.sealed = true → exec (.ckptDone 0) s =
        ends 0 { z with host := pokes z.host z.dev.ckbase.toNat (written z.checkpoint)
                        dev := { z.dev with safe := Tbl.insert z.dev.safe z.dev.ckbase.toNat z.checkpoint } }) ∧
     ({ s.settleGranules with fresh := s.fresh, dev := s.dev } : State) = s ∧ s.settleGranules.dev.poison = s.dev.poison ∧
     (running → s.dev.ckcmd = 1 → ((∃ e ∈ s.crews, e.2.place ≠ none) ∨ s.sealed = false) → exec (.ckptDone 0) s = .next s) ∧
     (running → s.dev.ckcmd = 2 → Tbl.find? s.dev.safe s.dev.ckbase.toNat = none → exec (.ckptDone 0) s = ends 3 s) ∧
     (running → s.dev.ckcmd = 2 → Tbl.find? s.dev.safe s.dev.ckbase.toNat = some c →
       peeks s.host s.dev.ckbase.toNat s.ckneed.toNat ≠ written c → exec (.ckptDone 0) s = ends 3 s) ∧
     (running → s.dev.ckcmd = 2 → Tbl.find? s.dev.safe s.dev.ckbase.toNat = some c →
       peeks s.host s.dev.ckbase.toNat s.ckneed.toNat = written c → c.retiredCols = s.dev.retiredCols →
       c.retiredGroups = s.dev.retiredGroups → ∃ s', exec (.ckptDone 0) s = .next s' ∧ s'.mem = c.mem ∧
         (∀ v, v ≠ 0 → s'.fn v = Tbl.get c.fns (Fn.init v) v) ∧
         ({ s'.fn 0 with msix := [], pending := [] } : Fn) = { Tbl.get c.fns (Fn.init 0) 0 with msix := [], pending := [] } ∧
         s'.teams = c.teams ∧ s'.crews = c.crews ∧ s'.launches = c.launches ∧ s'.images = c.images ∧ s'.dev.sgcfg = c.sgcfg ∧
         s'.dev.brdcfg = c.brdcfg ∧ s'.dev.poison = c.poison ∧ s'.dev.prq = c.prq ∧ s'.dev.stored = c.stored ∧
         s'.dev.counters = c.counters ∧ s'.dev.parents = c.parents ∧ s'.dev.roots = c.roots ∧ s'.dev.ckstat = 2 ∧
         ∀ k x, Tbl.find? s'.sets k = some x → x.ready = false) ∧
     (running → s.dev.ckcmd = 2 → Tbl.find? s.dev.safe s.dev.ckbase.toNat = some c →
       peeks s.host s.dev.ckbase.toNat s.ckneed.toNat = written c →
       (c.retiredCols ≠ s.dev.retiredCols ∨ c.retiredGroups ≠ s.dev.retiredGroups) → exec (.ckptDone 0) s = ends 4 s))

/-- Attestation and management (R421, R422): the connection settles a version, then capabilities, then algorithms (SHA3-384, and
SLH-DSA-SHAKE-256f as an extended algorithm), a request out of its turn answered ERROR UnexpectedRequest, but that a certificate of
another slot than 0, and a measurement of an index that there is not, is answered ERROR InvalidRequest whatever the turn; digests,
certificate, challenge and measurements, each a SHA3-384 digest of what it covers as the response is formed, are then answered; and
the management commands. Each sends its one answer and changes nothing but the connection. The form of the answers (log entry 57) and
the bytes that each measurement covers (log entry 98) are the model's. -/
def Obligations.AttestationEvents : Prop :=
  ∀ (s : State) (tr version nonce index slot command arg sensor w : Nat) (u : Firmware), tr < 2 → (tr = 1 ∨ s.dev.phase ≠ 15) →
    let c := s.spdm tr
    let answers : Instr → Nat → List Nat → Spdm → Prop := fun i code body x =>
      exec i s = .next { s.putSpdm tr x with outbox := s.outbox ++ [.spdm tr code body] }
    let error : Instr → Nat → Prop := fun i e => answers i 0x7F [e] c
    let settled : Instr → Nat → List Nat → Prop := fun i code body =>
      (c.algs = true → answers i code body c) ∧ (c.algs = false → error i 4)
    let hash : List Byte → Nat := fun l => beNat (sha3x384 l)
    let all : List Nat := (List.range 5).map fun i => s.measurement (i + 1)
    let signed : List Nat → List Nat := fun l => l ++ [Config.signature l]
    let bytes : Word64 → List Byte := fun x => leBytes 8 x.toNat
    s.measurement 1 = hash Config.bootRom ∧
    s.measurement 2 = hash s.running.image ∧
    s.measurement 3 = hash (s.running.policy ++ (s.keyOf 0).flatMap bytes) ∧
    s.measurement 4 = hash ((List.range 15).flatMap fun n => (s.keyOf (n + 1)).flatMap bytes) ∧
    s.measurement 5 = hash ((s.topo :: ((List.range 24).map s.colsvc ++ [s.sgsvc])).flatMap bytes) ∧
    answers (.getVersion tr) 0x04 [0x12, 0x13] { version := some 0 } ∧
    (c.version = some 0 → (version = 0x12 ∨ version = 0x13) →
      answers (.getCapabilities tr version) 0x61 [version] { version := some version, caps := true }) ∧
    (c.version = some 0 → version ≠ 0x12 → version ≠ 0x13 → error (.getCapabilities tr version) 0x41) ∧
    (c.version ≠ some 0 → error (.getCapabilities tr version) 4) ∧
    (c.caps = true → answers (.negotiateAlgorithms tr) 0x63 [384, Config.extAlgorithm] { c with algs := true }) ∧
    (c.caps = false → error (.negotiateAlgorithms tr) 4) ∧
    settled (.getDigests tr) 0x01 [0, hash Config.certChain] ∧
    settled (.getCertificate tr 0) 0x02 (Config.certChain.map BitVec.toNat) ∧
    (slot ≠ 0 → error (.getCertificate tr slot) 1) ∧
    settled (.challenge tr nonce) 0x03 (signed (nonce :: hash Config.certChain :: all)) ∧
    settled (.getMeasurements tr 0 nonce) 0x60 (signed [nonce, 5]) ∧
    settled (.getMeasurements tr 255 nonce) 0x60 (signed (nonce :: all)) ∧
    (1 ≤ index → index ≤ 5 → settled (.getMeasurements tr index nonce) 0x60 (signed [nonce, s.measurement index])) ∧
    (5 < index → index ≠ 255 → error (.getMeasurements tr index nonce) 1) ∧
    error (.spdmUnsupportedRequest tr) 7 ∧
    exec (.mctpControl 1 arg) s = .next { s with
      dev := { s.dev with mctpEid := arg % 256 }, outbox := s.outbox ++ [.mctp 0 [arg % 256]] } ∧
    exec (.mctpControl 2 arg) s = .next { s with outbox := s.outbox ++ [.mctp 0 [s.dev.mctpEid]] } ∧
    exec (.mctpControl 5 arg) s = .next { s with outbox := s.outbox ++ [.mctp 0 [0, 1, 5, 0x7F]] } ∧
    (command ≠ 1 → command ≠ 2 → command ≠ 5 →
      exec (.mctpControl command arg) s = .next { s with outbox := s.outbox ++ [.mctp 5 []] }) ∧
    (900 ≤ w → w ≤ 1800 → exec (.pldmMonitoring sensor (some w)) s = .next { s with
      dev := { s.dev with powerCap := w }, outbox := s.outbox ++ [.mctp 0 [w]] }) ∧
    (w < 900 ∨ 1800 < w → exec (.pldmMonitoring sensor (some w)) s = .next { s with outbox := s.outbox ++ [.mctp 2 []] }) ∧
    (sensor ≤ 12 → ∃ y, exec (.pldmMonitoring sensor none) s =
      .next { s with fresh := s.fresh + 1, outbox := s.outbox ++ [.mctp 0 [y]] }) ∧
    (12 < sensor → exec (.pldmMonitoring sensor none) s = .next { s with outbox := s.outbox ++ [.mctp 2 []] }) ∧
    (s.dev.received = some u → exec .pldmFirmwareUpdate s = .next { s with
      dev := { s.dev with received := none, staged := some u }, outbox := s.outbox ++ [.mctp 0 []] }) ∧
    (s.dev.received = none → exec .pldmFirmwareUpdate s = .next { s with outbox := s.outbox ++ [.mctp 1 []] })

/-- Errors, tests, counters (R403 to R411): an error is counted in ERRCNT and recorded; one that stands marks its granule; a unit's
test ends, once the crews on its sub-cores have stopped, with its RESULT, and a lasting fault retires what it names: one column's
share or every column of a core, a slice group, a link; a writeback, which waits for a re-encryption and for a test of its slice
group, stores the granule encrypted under its next minor counter, and an overflow re-encrypts its page; a re-encryption of a block of
a higher level stores the other blocks below it under the new counters. That a translation core retires nothing and shared storage
all four columns (log entry 54), and that an error of an L2 line marks both its granules (log entry 94), is the model's reading. -/
def Obligations.ReliabilityEvents : Prop :=
  ∀ (s : State) (unit num k granule level : Nat) (cls : ErrClass) (place : ErrPlace),
    let u : UnitId := { kind := unit, num := num }
    let clsCode : Nat := match cls with
      | .corrected => 1 | .uncorrectable => 2 | .tagMismatch => 3 | .counterBlock => 4
    let sat : Nat → Nat := fun n => if n < 2 ^ 32 - 1 then n + 1 else n
    let lo := s.dev.errcnt.toNat % 2 ^ 32
    let hi := s.dev.errcnt.toNat / 2 ^ 32
    let page := granule / 64
    let block := s.counterBlock 1 page
    let minor := block.minors.get 0 (granule % 64)
    let tested : Prop := s.dev.testing.contains u = true
    let stopped : Prop := ∀ p ∈ s.unitSubs u, s.crewsAt p = []
    let r := s.dev.errrec0.toNat
    let named : Prop := r / 2 ^ 40 % 256 = unit ∧ r / 2 ^ 24 % 2 ^ 16 = num ∧ r / 2 ^ 8 % 256 = 0
    -- the columns that a lasting fault retires
    let columns : Option Nat → List Nat → Prop := fun share l => ∃ s', exec (.selfTestDone unit num true share) s = .next s' ∧
      s'.dev.testing.contains u = false ∧ s'.dev.retiredGroups = s.dev.retiredGroups ∧
      ∀ n, s'.dev.retiredCols.get false n = (l.contains n || s.dev.retiredCols.get false n)
    (1 ≤ unit → unit ≤ 11 → tested → (∀ c, place ≠ .saved c) →
      ∃ s', exec (.errorDetect unit num cls place) s = .next s' ∧
        s'.dev.errcnt = (if cls = .corrected then BitVec.ofNat 64 (hi * 2 ^ 32 + sat lo)
          else BitVec.ofNat 64 (sat hi * 2 ^ 32 + lo)) ∧
        s'.dev.errrec0 = BitVec.ofNat 64 (unit * 2 ^ 40 + num % 2 ^ 16 * 2 ^ 24 + clsCode * 2 ^ 16 + s.errVf place % 32) ∧
        (∀ j, cls = .corrected → s'.dev.poison.get false j = s.dev.poison.get false j) ∧
        (place = .mem k → cls ≠ .corrected → s'.dev.poison.get false (k / 64) = true) ∧
        (place = .mem k → unit ≠ 2 → ∀ j, j ≠ k / 64 → s'.dev.poison.get false j = s.dev.poison.get false j) ∧
        (place = .mem k → unit = 2 → cls ≠ .corrected → s'.dev.poison.get false (k / 128 * 2) = true ∧
          s'.dev.poison.get false (k / 128 * 2 + 1) = true)) ∧
    (1 ≤ unit → unit ≤ 10 → ∃ s', exec (.errorDetect unit num cls place) s = .next s' ∧ s'.dev.testing.contains u = true) ∧
    ((unit = 0 ∨ 11 < unit) → exec (.errorDetect unit num cls place) s = .next s) ∧
    (∀ lasting share, ¬ (tested ∧ stopped) → exec (.selfTestDone unit num lasting share) s = .next s) ∧
    (unit ≠ 11 → tested → stopped → ∃ s', exec (.selfTestDone unit num false none) s = .next s' ∧
      s'.dev.testing.contains u = false ∧ s'.dev.retiredCols = s.dev.retiredCols ∧ s'.dev.retiredGroups = s.dev.retiredGroups ∧
      s'.dev.errrec0 = if named then BitVec.ofNat 64 (r + 2 ^ 8) else s.dev.errrec0) ∧
    (∀ share, tested → stopped → 3 ≤ unit →
      (unit = 9 → columns share [num]) ∧
      (∀ c, unit ≤ 5 → share = some c → c < 4 → columns share [4 * num + c]) ∧
      (unit ≤ 5 → share = none → columns share [4 * num, 4 * num + 1, 4 * num + 2, 4 * num + 3]) ∧
      (6 ≤ unit → unit ≤ 8 → columns share [4 * num, 4 * num + 1, 4 * num + 2, 4 * num + 3]) ∧
      (unit = 10 → columns share [])) ∧
    (1 ≤ unit → unit ≤ 2 → tested → stopped → ∃ s', exec (.selfTestDone unit num true none) s = .next s' ∧
      s'.dev.retiredGroups.get false (if unit = 1 then num / 32 else num / 8) = true) ∧
    (unit = 11 → tested → stopped → ∃ s', exec (.selfTestDone unit num true none) s = .next s' ∧
      (Tbl.get s'.fab.links {} num).retired = true) ∧
    (s.dev.phase ≠ 15 → exec (.errcnt 0) s = .next { s with dev := { s.dev with errcnt := 0 } }) ∧
    (∀ x : Word64, (x ≠ 0 ∨ s.dev.phase = 15) → exec (.errcnt x) s = .next s) ∧
    -- counters
    ((s.pageBusy page = true ∨ s.groupTested (64 * granule / 2 ^ 35) = true) → exec (.l2Writeback granule) s = .next s) ∧
    (s.pageBusy page = false → s.groupTested (64 * granule / 2 ^ 35) = false →
      ∃ s', exec (.l2Writeback granule) s = .next s' ∧ s'.mem = s.mem ∧
        Tbl.find? s'.dev.stored granule = some (s'.seal granule) ∧
        (minor < 127 → (s'.counterBlock 1 page).major = block.major ∧
          (s'.counterBlock 1 page).minors.get 0 (granule % 64) = minor + 1 ∧
          (∀ g, g ≠ granule % 64 → (s'.counterBlock 1 page).minors.get 0 g = block.minors.get 0 g) ∧
          (s'.counterBlock 1 page).busy = false) ∧
        (127 ≤ minor → (s'.counterBlock 1 page).major = block.major + 1 ∧
          (s'.counterBlock 1 page).minors.get 0 (granule % 64) = 1 ∧
          (∀ g, g ≠ granule % 64 → (s'.counterBlock 1 page).minors.get 0 g = 0) ∧ (s'.counterBlock 1 page).busy = true)) ∧
    (1 ≤ level → level ≤ 3 → ∃ s', exec (.reencryptDone level num) s = .next s' ∧ (s'.counterBlock level num).busy = false ∧
      (s'.counterBlock level num).major = (s.counterBlock level num).major ∧
      (s'.counterBlock level num).minors = (s.counterBlock level num).minors ∧ s'.mem = s.mem ∧
      (level = 1 → (s.counterBlock 1 num).busy = true → ∀ g, g < 64 → (s.counterBlock 1 num).minors.get 0 g = 0 →
        Tbl.find? s'.dev.stored (64 * num + g) = some (s'.seal (64 * num + g))) ∧
      (2 ≤ level → (s.counterBlock level num).busy = true → ∀ g, g < 64 → (s.counterBlock level num).minors.get 0 g = 0 →
        let key := 4 * (64 * num + g) + (level - 1)
        Tbl.find? s'.dev.blockTags key = Tbl.find? (s'.tagBlock (level - 1) (64 * num + g)).dev.blockTags key))

/-! ### The engines (R180 to R184, R192, R193, R197, R267 to R273, R280 to R289, R332, R336, R364) -/

/-- Copies (R180, R181, R280 to R283, R285 to R287, R409). A copy within the package whose sources have not changed since its issue
leaves at every element's destination the bytes of its source; a batch completes in its turn when all its copies have been
performed, what they delivered stands then, its flags go to NFLAGS and its marks to the oldest stamp that covers it; gathers are
counted in order; a segment of a cp.red is combined once; an operation whose read meets an error that stands starts anew, a gather
from the row, the error counted and the unit tested, and carries poison at the third time or when the fault lasts. That a replay
checks no unit again is the model's reading (log entry 79), and so is how the outcome of a core's self-test reaches the operation
(log entry 115). -/
def Obligations.EngineCopyEvents : Prop :=
  ∀ (s : State) (uid id k elem unit num : Nat) (t : Team) (o : CopyOp) (b : Batch) (rest : List Batch) (gs : List CopyOp)
    (pl : Nat × Nat),
    let n := o.desc.elem
    let found : Prop := Tbl.find? s.teams uid = some t ∧ s.placeOf t = some pl
    let flags : Regs → List CopyOp → Regs := fun r l => l.foldl (fun r o => r.raise o.flags) r
    let rests : Team → Team → Prop := fun t t' => t'.ctl = t.ctl ∧ t'.status = t.status ∧ t'.trap = t.trap
    -- every place answers, and none waits
    let answers : Prop := ∀ e ∈ o.elems, e.1.remote = false ∧ e.2.remote = false ∧ s.refuses e.1 n = false ∧ s.refuses e.2 n = false ∧
      s.placeWaits (s.fnOf t) e.1 = false ∧ s.placeWaits (s.fnOf t) e.2 = false
    let local_ : Prop := o.kind ≠ .red ∧ o.done = false ∧ o.susp = none ∧ o.pending = 0 ∧ o.sent = false ∧ o.err = false ∧
      o.tested = none ∧ o.watches = [] ∧ o.progress = 0 ∧ o.vals = [] ∧ o.bad = [] ∧ o.poison = false ∧ answers
    let apart : Prop := (∀ e ∈ o.elems, ∀ e' ∈ o.elems, ∀ i j, i < n → j < n → s.cell (e.1.add i) ≠ s.cell (e'.2.add j)) ∧
      (∀ (i j : Nat) (e e' : Place × Place), i < j → o.elems[i]? = some e → o.elems[j]? = some e' → ∀ x y, x < n → y < n →
        s.cell (e.2.add x) ≠ s.cell (e'.2.add y)) ∧
      (∀ e ∈ o.elems, ∀ x y, x < n → y < n → x ≠ y → s.cell (e.2.add x) ≠ s.cell (e.2.add y)) ∧
      (∀ e ∈ o.elems, ∀ x, x < n → s.cell (e.2.add x) ≠ none) ∧
      (∀ e ∈ o.elems, e.2.within o.src.place o.src.span = false)
    let settled : Place → Prop := fun p => (s.past t.crew o.snap).readBytes p n = s.readBytes p n ∧ s.markedIn p n = false ∧
      ∀ i, i < n → s.inFlight (p.add i) = false
    -- a copy is performed
    (found → List.find? (fun o : CopyOp => o.id == id) t.eng.batchOps = some o → t.eng.copyDue o = true → local_ → apart →
      (∀ e ∈ o.elems, settled e.1) → o.kind ≠ .gather → ∃ s' t', exec (.batchComplete uid (some id)) s = .next s' ∧
        Tbl.find? s'.teams uid = some t' ∧ rests t t' ∧ t'.regs = t.regs ∧
        (∀ o', List.find? (fun o : CopyOp => o.id == id) t'.eng.batchOps = some o' → o'.done = true) ∧
        (∀ e ∈ o.elems, s'.readBytes e.2 n = s.readBytes e.1 n) ∧
        ∀ q, (∀ e ∈ o.elems, ∀ i, i < n → s.cell (e.2.add i) ≠ s.cell q) → s'.byteAt q = s.byteAt q) ∧
    (found → List.find? (fun o : CopyOp => o.id == id) t.eng.batchOps = some o → t.eng.copyDue o = false →
      exec (.batchComplete uid (some id)) s = .next s) ∧
    -- a batch completes
    (found → t.eng.closed = b :: rest → (∀ o ∈ b.ops, o.done = true) → ∃ s' t', exec (.batchComplete uid none) s = .next s' ∧
      Tbl.find? s'.teams uid = some t' ∧ rests t t' ∧ t'.eng.closed = rest ∧ t'.regs = flags t.regs b.ops ∧
      (t.eng.stamps = [] → t'.eng.openPoison = (t.eng.openPoison || b.ops.any fun o => o.poison) ∧
        t'.eng.openErr = (t.eng.openErr || b.ops.any fun o => o.err)) ∧
      (∀ m l, t.eng.stamps = m :: l → b.seq ≤ m.upto → ∃ m' l', t'.eng.stamps = m' :: l' ∧
        m' = { m with poison := m.poison || b.ops.any fun o => o.poison, err := m.err || b.ops.any fun o => o.err }) ∧
      ((∀ o ∈ b.ops, o.kind = .red) → s'.mem = s.mem ∧ s'.host = s.host ∧ s'.crews = s.crews) ∧
      (b.ops = [o] → o.kind ≠ .red → o.err = false → answers → apart → o.vals.length = o.elems.length →
        (∀ v ∈ o.vals, v.length = n) → (∀ x ∈ rest.flatMap Batch.ops ++ t.eng.open_, ∀ e ∈ o.elems, ∀ i, i < n →
          x.writes (e.2.add i) = false) →
        ∀ (i : Nat) (e : Place × Place) (v : List Byte), o.elems[i]? = some e → o.vals[i]? = some v → s'.readBytes e.2 n = v)) ∧
    (found → t.eng.closed = b :: rest → (∃ o ∈ b.ops, o.done = false) → exec (.batchComplete uid none) s = .next s) ∧
    -- gathers are counted in order
    (found → t.eng.gathers = o :: gs → o.id = id → (∀ x ∈ gs, x.id ≠ id) → o.done = false → o.susp = none → o.pending = 0 →
      o.tested = none → o.sent = true → o.mustAsk = false → ∃ s' t', exec (.gatherComplete uid id) s = .next s' ∧
        Tbl.find? s'.teams uid = some t' ∧ rests t t' ∧ t'.eng.gathers = gs.dropWhile fun x => x.done) ∧
    (found → t.eng.gathers = o :: gs → o.id ≠ id → o.done = false → (∀ x ∈ gs, x.id = id → x.done = true) →
      ∃ s' t', exec (.gatherComplete uid id) s = .next s' ∧ Tbl.find? s'.teams uid = some t' ∧
        t'.eng.gathers.length = gs.length + 1) ∧
    -- a segment of a cp.red
    (found → List.find? (fun o : CopyOp => o.id == id && o.kind == .red) t.eng.batchOps = some o → t.eng.copyDue o = true →
      o.ready = true → o.mustAsk = false → o.sent = false → o.watches = [] → k < o.segments → answers →
      (o.applied.contains k = true → exec (.cpredSegmentApply uid id k) s = .next (s.putCopy uid o)) ∧
      (o.applied.contains k = false → (redOp o.desc.op).isSome = true →
        ∃ (s' : State) (o' : CopyOp), exec (.cpredSegmentApply uid id k) s = .next (s'.putCopy uid o') ∧ o'.applied = k :: o.applied ∧
          o'.done = o.done ∧ (∀ q, (∀ e ∈ o.segment k, ∀ i, i < n → s.cell (e.2.2.add i) = none ∨ s.cell (e.2.2.add i) ≠ s.cell q) →
            s'.byteAt q = s.byteAt q) ∧
          ∀ i src dst op x, o.segment k = [(i, src, dst)] → o.err = false → o.bad = [] → settled src →
            (∀ e ∈ s.teams, ∀ y ∈ e.2.eng.flying, y.kind ≠ .red → ∀ j, j < n → y.writes (dst.add j) = false) →
            o.overlaps dst = false → (∀ j, j < n → s.overwritten (dst.add j) = false) →
            (∀ x y, x < n → y < n → x ≠ y → s.cell (dst.add x) ≠ s.cell (dst.add y)) → (∀ x, x < n → s.cell (dst.add x) ≠ none) →
            redOp o.desc.op = some op →
            atomNew op (BitVec.ofNat 64 (leNat (s.readBytes dst n))) (BitVec.ofNat 64 (leNat (s.readBytes src n))) 0 = some x →
            s'.readBytes dst n = leBytes n x.toNat)) ∧
    -- an uncorrectable error of a read
    (∀ src dst, found → List.find? (fun o : CopyOp => o.id == id) t.eng.flying = some o → o.elems[elem]? = some (src, dst) →
      let key := if o.kind = .gather then elem / o.desc.count0 else 0
      let first := if o.kind = .gather then elem / o.desc.count0 * o.desc.count0 else 0
      let times := Tbl.get o.abandons 0 key
      let heard : Prop := o.ready = true ∧ o.sent = false ∧ src.remote = false ∧ s.markedIn src n = false ∧ 1 ≤ unit ∧ unit ≤ 11
      let anew : CopyOp := { o with
        progress := min o.progress first, seen := max o.seen o.progress, vals := o.vals.take first
        bad := o.bad.filter fun k => decide (k < first), remote := [], asked := false
        abandons := Tbl.insert o.abandons key (times + 1), tested := some (unit, num)
        failed := { row := key, granule := src.granule, test := some (unit, num) } :: o.failed }
      let others := anew.failed.filter fun f => !(f.row == key)
      let counted := (s.countError unit num .uncorrectable (s.errPlace (s.fnOf t) src)).modTeam uid fun t =>
        { t with link := { t.link with replays := t.link.replays + 1 } }
      (heard → times < 2 → exec (.copyAbandon uid id elem (unit, num)) s = .next ((counted.putCopy uid anew).testUnit unit num)) ∧
      (heard → times = 2 → exec (.copyAbandon uid id elem (unit, num)) s = .next
        ((((anew.failed.filter fun f => f.row == key).foldl (fun s f => s.setMark f.granule true) counted).putCopy uid
          { anew with poison := true, failed := others, tested := none }).testUnit unit num)) ∧
      ((¬ heard ∨ 3 ≤ times) → exec (.copyAbandon uid id elem (unit, num)) s = .next s)) ∧
    (found → o ∈ t.eng.flying → o.id = id → (∃ f ∈ o.failed, f.test = some (unit, num)) → 3 ≤ unit → unit ≤ 10 →
      s.dev.testing.contains { kind := unit, num := num } = true → (∀ p ∈ s.unitSubs { kind := unit, num := num }, s.crewsAt p = []) →
      ∃ s' t', exec (.selfTestDone unit num true none) s = .next s' ∧ Tbl.find? s'.teams uid = some t' ∧
        ∃ o' ∈ t'.eng.flying, o'.id = id ∧ o'.poison = true ∧ o'.tested = none)

/-- Stamps, advances, suspensions and rollbacks. The oldest stamp, once every batch it covers and every access before it is
complete, writes the number of its last batch with its poison and error bits; a pending advance of a track applies when what it
waits for is complete, and then the device writes the track's record (R182 to R184, R284). The oldest stamp, a copy, fill or
gather, or a matrix operation, that meets a watchpoint stops before the watched access with the progress record of R364; a
rollback shows in its counters and in the trace alone (R332, R336, R366, R369). That a stamp of any scope waits for the fabric
accesses before it (log entry 81), and the order in which an acc.st's first watched unit is sought (log entry 70), are the model's
readings. -/
def Obligations.StampAndStopEvents : Prop :=
  (∀ (s : State) (uid slot : Nat) (t : Team) (m : Stamp) (rest : List Stamp) (a : Advance) (k : TrackObj) (pl : Nat × Nat),
     let found : Prop := Tbl.find? s.teams uid = some t ∧ s.placeOf t = some pl
     let due : Prop := m.susp = none ∧ m.sent = false ∧ (∀ b ∈ t.eng.closed, m.upto < b.seq) ∧
       (∀ o ∈ t.eng.fabric, m.fab < o.idx ∨ o.pending = 0) ∧ m.watches = [] ∧ s.placeWaits (s.fnOf t) m.place = false
     (found → t.eng.stamps = m :: rest → due → m.place.remote = false → s.refuses m.place 8 = false →
       exec (.stampWrite uid) s = .next
         ((s.writeNat m.place 8 (m.upto % 2 ^ 32 + (if m.poison = true then 2 ^ 32 else 0) + (if m.err = true then 2 ^ 33 else 0))).modTeam
           uid fun t => { t with eng := { t.eng with stamps := rest } })) ∧
     (found → t.eng.stamps = m :: rest → ((∃ b ∈ t.eng.closed, b.seq ≤ m.upto) ∨ m.sent = true ∨ m.susp ≠ none) →
       exec (.stampWrite uid) s = .next s) ∧
     (found → List.find? (fun a : Advance => a.slot == slot) t.eng.advances = some a → s.track t.crew slot = some k →
       (if a.producer = true then ∀ b ∈ t.eng.closed, a.after < b.seq else ∀ m ∈ t.eng.mats, a.after < m.seq) →
       let k' : TrackObj := if a.producer = true then { k with p := k.p + a.n } else { k with c := k.c + a.n }
       exec (.trkAdvanceApply uid slot) s = .next ((((s.putTrack t.crew slot k').writeNat (.scratch t.crew (k.addr.toNat - scrBase)) 16
         (k'.p.toNat + 2 ^ 32 * k'.c.toNat + 2 ^ 64 * k'.depth + 2 ^ 96)).modTeam uid
           fun t => { t with eng := { t.eng with advances := t.eng.advances.erase a } }).checkDeadlock t.crew)) ∧
     (found → List.find? (fun a : Advance => a.slot == slot) t.eng.advances = some a →
       (if a.producer = true then ∃ b ∈ t.eng.closed, b.seq ≤ a.after else ∃ m ∈ t.eng.mats, m.seq ≤ a.after) →
       exec (.trkAdvanceApply uid slot) s = .next s)) ∧
  (∀ (s : State) (uid id kind : Nat) (t : Team) (m : Stamp) (rest : List Stamp) (h : EngHit) (pl : Nat × Nat) (mo : MatOp)
     (arr : ArrayObj) (zero inArray : Bool) (ra rb : RangeObj) (sa sb : Nat) (g : Geometry) (act : Mask) (o : CopyOp) (dst : Side)
     (ctl : Word) (draws : List Word),
     let found : Prop := Tbl.find? s.teams uid = some t ∧ s.placeOf t = some pl ∧ t.status = .runnable
     let rests : State → Team → Prop := fun s' t' => t'.ctl = t.ctl ∧ t'.regs = t.regs ∧ t'.status = .runnable ∧ s'.mem = s.mem ∧
       s'.host = s.host ∧ s'.crews = s.crews
     (found → t.eng.stamps = m :: rest → m.id = id → t.eng.stampDue m = true →
       sideHit m.watches m.addr.toNat 8 false true = some h → m.exempt = false →
       exec (.engineWatchSuspend uid 2 id) s = .next (s.modTeam uid fun t => { t with eng := t.eng.modStamp id fun m => { m with
         susp := some { watch := h.watch, addr := BitVec.ofNat 64 h.addr, lane := 0, write := h.write, size := 3
                        prog0 := BitVec.ofNat 64 (7 * 2 ^ 56 + m.vpc % 2 ^ 32), prog1 := 0 } } })) ∧
     (found → List.find? (fun o : CopyOp => o.id == id) t.eng.flying = some o → o.kind ≠ .red →
       (t.eng.copyDue o = true ∨ o.kind = .gather) → o.ready = true → o.mustAsk = false → o.sent = false → o.err = false →
       o.vals.length ≤ o.progress →
       (∀ e ∈ o.elems, s.refuses e.1 o.desc.elem = false ∧ s.refuses e.2 o.desc.elem = false ∧
         s.placeWaits (s.fnOf t) e.1 = false ∧ s.placeWaits (s.fnOf t) e.2 = false) → o.firstHit = some (o.progress, h) →
       ∃ s' t' o', exec (.engineWatchSuspend uid 0 id) s = .next s' ∧ Tbl.find? s'.teams uid = some t' ∧ rests s' t' ∧
         List.find? (fun o : CopyOp => o.id == id) t'.eng.flying = some o' ∧ o'.susp = some
           { watch := h.watch, addr := BitVec.ofNat 64 h.addr, lane := 0, write := h.write, size := o.desc.esz
             prog0 := BitVec.ofNat 64 ((if o.kind = .fill then 5 else if o.kind = .gather then 6 else 4) * 2 ^ 56 + o.vpc % 2 ^ 32)
             prog1 := if o.kind = .gather then BitVec.ofNat 64
                 (((o.rows[o.progress / o.desc.count0]?).map GatherRow.lane).getD 0 * 2 ^ 32 + o.progress % o.desc.count0)
               else BitVec.ofNat 64 o.progress }) ∧
     (found → t.matAt id = some (mo, arr) → mo.kind = .mma zero ra rb sa sb g act → t.mmaHit mo arr = some (mo.progress, h) →
       mo.seq = id → ∃ s' t', exec (.engineWatchSuspend uid 1 id) s = .next s' ∧ Tbl.find? s'.teams uid = some t' ∧ rests s' t' ∧
         ∃ x, List.find? (fun m : MatOp => m.seq == id) t'.eng.mats = some x ∧ x.susp = some
           { watch := h.watch, addr := BitVec.ofNat 64 h.addr, lane := h.addr / (arr.n * 256) * 8 + h.addr / 32 % 8, write := h.write, size := 2
             prog0 := BitVec.ofNat 64 ((if zero = true then 2 else 1) * 2 ^ 56 +
               (h.addr / (arr.n * 256) * 8 + h.addr / 32 % 8) / 8 * 2 ^ 48 + mo.progress % 65536 * 2 ^ 32 + mo.vpc % 2 ^ 32)
             prog1 := 0 }) ∧
     (found → t.matAt id = some (mo, arr) → mo.kind = .accSt dst ctl draws → t.stHit mo arr = some (mo.progress, inArray, h) →
       mo.seq = id → mo.sent = false → s.sideWaits (s.fnOf t) dst = false →
       let row := mo.progress / (arr.n * 256) * 8 + mo.progress / 32 % 8
       ∃ s' t', exec (.engineWatchSuspend uid 1 id) s = .next s' ∧ Tbl.find? s'.teams uid = some t' ∧ rests s' t' ∧
         ∃ x, List.find? (fun m : MatOp => m.seq == id) t'.eng.mats = some x ∧ x.susp = some
           { watch := h.watch, addr := BitVec.ofNat 64 h.addr, lane := if inArray = true then row else 0, write := h.write
             size := if inArray = true then 2 else (stBits ctl / 8).log2
             prog0 := BitVec.ofNat 64 (3 * 2 ^ 56 + row / 8 * 2 ^ 48 + mo.vpc % 2 ^ 32), prog1 := BitVec.ofNat 64 mo.progress }) ∧
     (2 < kind → exec (.engineWatchSuspend uid kind id) s = .next s) ∧
     (found → 1 ≤ kind → kind ≤ 3 → (s.fn (s.fnOf t)).trctl.getLsbD 0 = false →
       exec (.regionRollback uid kind) s = .next (s.putTeam uid { t with link := { t.link with
         rollbacks := t.link.rollbacks + 1, aliases := if kind = 2 then t.link.aliases + 1 else t.link.aliases } })) ∧
     ((kind = 0 ∨ 3 < kind) → exec (.regionRollback uid kind) s = .next s))

/-- Matrix operations (R94, R165, R193, R197, R267, R273): one whose array's earlier operations have been performed is performed;
it completes, in issue order, when all older ones have been performed too, and then its flags go to its array's FLAGS word and to
NFLAGS together (the model's reading, log entry 121). An mma takes its chunks over the whole
of its array and changes no memory, and an acc.st writes its units at its destination and no other byte. -/
def Obligations.EngineMatrixEvents : Prop :=
  ∀ (s : State) (uid seq : Nat) (t : Team) (m : MatOp) (arr : ArrayObj) (rest : List MatOp) (pl : Nat × Nat) (zero : Bool)
    (ra rb : RangeObj) (sa sb : Nat) (g : Geometry) (act : Mask) (dst : Side) (ctl : Word) (draws : List Word) (c : Crew),
    let found : Prop := Tbl.find? s.teams uid = some t ∧ s.placeOf t = some pl ∧ t.eng.mats = m :: rest ∧ m.seq = seq ∧
      (∀ x ∈ rest, x.seq ≠ seq) ∧ m.done = false ∧ m.susp = none ∧ m.watches = [] ∧
      (Tbl.find? t.eng.arrays m.array).bind SlotOf.obj = some arr ∧ Pool.gen t.eng.arrays m.array = m.gen
    let rests : State → Team → Prop := fun s' t' => t'.ctl = t.ctl ∧ t'.status = t.status ∧ t'.trap = t.trap ∧ s'.mem = s.mem ∧
      s'.host = s.host ∧ s'.crews = s.crews
    -- complete with flags f, and so are the younger operations that waited for it; its array's elements are e
    let counted : Team → Flags → Tbl Word → Prop := fun t' f e => t'.eng.mats = rest.dropWhile (fun m => m.done) ∧
      t'.regs = t.regs.raise ((rest.takeWhile fun m => m.done).foldl (fun f m => f ||| m.flags) f) ∧
      ∃ a, (Tbl.find? t'.eng.arrays m.array).bind SlotOf.obj = some a ∧ a.n = arr.n ∧ a.elems = e ∧
        a.flags = arr.flags ||| ((rest.takeWhile fun m => m.done).filter fun x => x.array == m.array && x.gen == m.gen).foldl
          (fun f x => f ||| x.flags) f
    (found → m.read = none → m.kind = .mma zero ra rb sa sb g act → Tbl.find? s.crews t.crew = some c →
      let r := mmaChunks m.snap c zero ra rb g arr.n t.nlane act m.progress m.chunks (activeQuarters t.nlane act) s (arr.elems, m.flags)
      ∃ s' t', exec (.mmaComplete uid seq) s = .next s' ∧ Tbl.find? s'.teams uid = some t' ∧ rests s' t' ∧
        counted t' (r.2.2 ||| if rb.nf = true then flagSKIPOFF else 0) r.2.1) ∧
    -- an operation behind another on its array waits
    (∀ x y, Tbl.find? s.teams uid = some t → t.eng.mats = x :: y :: rest → y.seq = seq → x.seq ≠ seq → y.array = x.array →
      y.read = none → x.read = none → x.done = false →
      exec (.mmaComplete uid seq) s = .next s ∧ exec (.accStComplete uid seq) s = .next s) ∧
    (found → m.kind = .accSt dst ctl draws → m.sent = true → m.pending = 0 →
      ∃ s' t', exec (.accStComplete uid seq) s = .next s' ∧ Tbl.find? s'.teams uid = some t' ∧ rests s' t' ∧
        counted t' m.flags arr.elems) ∧
    (found → m.kind = .accSt dst ctl draws → m.sent = true → m.pending ≠ 0 → exec (.accStComplete uid seq) s = .next s) ∧
    (found → m.read = none → m.kind = .accSt dst ctl draws → m.sent = false → m.pending = 0 → m.progress = 0 → m.exempt = none →
      dst.place.remote = false → s.sideWaits (s.fnOf t) dst = false →
      (∀ w ∈ t.storeWrites m arr, w.at_ < t.arrayLen arr ∧ s.refuses (dst.place.add w.off) w.data.length = false) →
      ∃ s' t', exec (.accStComplete uid seq) s = .next s' ∧ Tbl.find? s'.teams uid = some t' ∧
        t'.ctl = t.ctl ∧ t'.status = t.status ∧ t'.trap = t.trap ∧
        counted t' ((t.storeWrites m arr).foldl (fun f w => f ||| w.flags) m.flags) arr.elems ∧
        ((∀ w ∈ t.storeWrites m arr, ∀ x ∈ t.storeWrites m arr, ∀ i j, i < w.data.length → j < x.data.length →
            w.off + i = x.off + j → w = x ∧ i = j) →
          (∀ i j, s.cell (dst.place.add i) = s.cell (dst.place.add j) → s.cell (dst.place.add i) ≠ none → i = j) →
          (∀ w ∈ t.storeWrites m arr, ∀ i, i < w.data.length → s.cell (dst.place.add (w.off + i)) ≠ none) →
          ∀ w ∈ t.storeWrites m arr, s'.readBytes (dst.place.add w.off) w.data.length = w.data) ∧
        (∀ q, (∀ w ∈ t.storeWrites m arr, ∀ i, i < w.data.length →
            s.cell (dst.place.add (w.off + i)) = none ∨ s.cell (dst.place.add (w.off + i)) ≠ s.cell q) →
          s'.byteAt q = s.byteAt q))

/-! ### The fabric (R335, R424, R429 to R438, R447) -/

/-- Links (R409, R429 to R434, R446). A trained link comes up and what waits goes out; a link that goes down is tested, and loses
what it carried: its requests with reason 3, and the peer fetches on it. A flit whose check, KIND and reserved bits are right is
taken: an idle flit acknowledges, a NACK resends from its SEQ, and the eighth round takes the link down, a message flit in order is
accepted, and its acknowledgment frees the retry buffer; any other flit is discarded, the first with a NACK. A message goes out in
flits of rising SEQ, which the retry buffer keeps. A plane map is applied when nothing sent under the old one is left, and requests
that waited for it go out under the new one; a request whose plane has no link up fails after its wait with reason 5. The model's
readings: a flit with a KIND above 3 or a nonzero reserved bit is taken as one whose check fails, and only message flits take a SEQ
(log entry 112); a link that was lost starts again with nothing on it (log entry 37). -/
def Obligations.FabricLinkEvents : Prop :=
  ∀ (s : State) (k seq id : Nat) (nodes : List Nat) (flit : List Byte) (room : Bool) (m : Word64) (r : FabReq) (msg : OutMsg),
    let l := s.link k
    let head := leNat (flit.take 4)
    let kind := head / 2 ^ 24 % 16
    let checked : List Byte → Prop := fun f => (crc32c (f.take 60)).toNat = leNat (f.drop 60)
    let intact : Prop := checked flit ∧ kind ≤ 3 ∧ head / 2 ^ 28 = 0
    let ack := head / 2 ^ 12 % 4096
    let quiet : Prop := s.fab.requests = [] ∧ s.fab.wires = [] ∧ ∀ e ∈ s.fab.streams, e.2.failed = false
    -- a link whose flits up to an ACK are delivered
    let upTo : Nat → Link → Link := fun ack l =>
      let newly := (ack + 4096 - l.txAcked) % 4096
      if 0 < newly ∧ newly ≤ (l.txNext + 4096 - l.txAcked) % 4096 then { l with txAcked := ack, rounds := 0, retry := l.retry.drop newly }
      else l
    -- what goes out as a message, in flits
    let goes : State → State → OutMsg → Prop := fun s s' msg => ∃ b : List (List Byte),
      let flits := (List.range b.length).map fun i =>
        flitBytes ((s.link k).txNext + i) (s.link k).rxNext (if i = 0 then 1 else 2) (b.getD i [])
      b ≠ [] ∧ b.length ≤ 4095 - ((s.link k).txNext + 4096 - (s.link k).txAcked) % 4096 ∧
      (∀ f ∈ flits, f.length = 64 ∧ checked f) ∧ s'.outbox = s.outbox ++ flits.map (fun f => .flit k f) ++ [msg] ∧
      (s'.link k).retry = (s.link k).retry ++ flits ∧ (s'.link k).txNext = ((s.link k).txNext + b.length) % 4096
    (k < 16 → l.state = 1 → l.en = true → l.retired = false → quiet →
      let up : State := s.modLink k fun l => { l with state := 2 }
      exec (.linkUp k nodes) s =
        .next { up with fab := { up.fab with lostNodes := s.fab.lostNodes.filter fun n => !nodes.contains n } }) ∧
    ((l.state ≠ 1 ∨ l.retired = true) → exec (.linkUp k nodes) s = .next s) ∧
    (k < 16 → (l.state = 1 ∨ l.state = 2) → ∃ s', exec (.linkDown k) s = .next s' ∧ (s'.link k).state = 3 ∧
      s'.dev.testing.contains { kind := 11, num := k } = true ∧ (∀ q ∈ s'.fab.requests, q.link ≠ some k) ∧
      (∀ w ∈ s'.fab.wires, w.link ≠ some k) ∧ ∀ e ∈ s'.sets, e.2.fetching ≠ some k) ∧
    ((l.state = 0 ∨ l.state = 3) → exec (.linkDown k) s = .next s) ∧
    -- flits
    (s.linkRoom k = true → goes s (s.sendMessage k msg) msg) ∧
    (k < 16 → l.state = 2 → s.dev.phase ≠ 15 → flit.length = 64 → intact → quiet →
      (kind = 0 → exec (.flitReceive k flit room) s = .next (s.modLink k (upTo ack))) ∧
      (kind = 3 → exec (.flitReceive k flit room) s = exec (.nackReceive k ack) s) ∧
      (1 ≤ kind → kind ≤ 2 → head % 4096 = l.rxNext → room = true →
        exec (.flitReceive k flit room) s =
          .next (s.modLink k fun l => { upTo ack l with rxNext := (l.rxNext + 1) % 4096, nacked := false }))) ∧
    (k < 16 → l.state = 2 → s.dev.phase ≠ 15 → flit.length = 64 →
      (¬ intact ∨ 1 ≤ kind ∧ kind ≤ 2 ∧ (head % 4096 ≠ l.rxNext ∨ room = false)) →
      (l.nacked = true → exec (.flitReceive k flit room) s = .next s) ∧
      (l.nacked = false → exec (.flitReceive k flit room) s = .next ((s.modLink k fun l => { l with nacked := true }).emit
        (.flit k (flitBytes l.txNext l.rxNext 3 (List.replicate 56 0)))))) ∧
    (s.dev.phase = 15 → exec (.flitReceive k flit room) s = .next s) ∧
    ((16 ≤ k ∨ l.state ≠ 2) → exec (.flitReceive k flit room) s = .next s ∧ exec (.nackReceive k seq) s = .next s) ∧
    (k < 16 → l.state = 2 → seq < 4096 → (seq + 4096 - l.txAcked) % 4096 < (l.txNext + 4096 - l.txAcked) % 4096 → l.rounds < 7 →
      ∃ s', exec (.nackReceive k seq) s = .next s' ∧
        s'.outbox = s.outbox ++ (l.retry.drop ((seq + 4096 - l.txAcked) % 4096)).map (fun f => .flit k f) ∧
        (s'.link k).retries = min (l.retries + 1) (2 ^ 32 - 1) ∧ (s'.link k).state = 2 ∧
        (seq ≠ l.txAcked → l.txAcked < 4096 → (s'.link k).txAcked = seq)) ∧
    (k < 16 → l.state = 2 → seq < 4096 → (l.txNext + 4096 - l.txAcked) % 4096 ≤ (seq + 4096 - l.txAcked) % 4096 →
      exec (.nackReceive k seq) s = .next s) ∧
    (k < 16 → l.state = 2 → seq = l.txAcked → l.txAcked < 4096 → l.txNext % 4096 ≠ l.txAcked % 4096 → l.rounds = 7 →
      ∃ s', exec (.nackReceive k seq) s = .next s' ∧ (s'.link k).state = 3) ∧
    -- planes
    (s.fab.pendingMap = some m → quiet →
      exec .planemapApply s = .next { s with fab := { s.fab with planemap := m, pendingMap := none } }) ∧
    (s.fab.pendingMap = some m → s.fab.requests = [r] → s.fab.wires = [] → r.link = none → r.release = none → s.fabValid = true →
      let b : State := { s with fab := { s.fab with planemap := m, pendingMap := none } }
      b.route r.raddr = some k → b.linkRoom k = true → b.barred 3 k r.fn = false →
      ∃ s', exec .planemapApply s = .next s' ∧ s'.fab.requests = [{ r with link := some k }] ∧
        goes b s' (.request { r with link := some k }) ∧
        (s'.stream r.fn r.node).sent = if remoteWrites r.op = true then ((s.stream r.fn r.node).sent + 1) % 2 ^ 32
          else (s.stream r.fn r.node).sent) ∧
    (s.fab.pendingMap = some m → (∃ q ∈ s.fab.requests, q.link ≠ none) → exec .planemapApply s = .next s) ∧
    (s.fab.pendingMap = none → exec .planemapApply s = .next s) ∧
    (List.find? (fun r : FabReq => r.id == id && r.link.isNone) s.fab.requests = some r →
      (s.route r.raddr = none → exec (.planeWaitTimeout id) s = .next (s.endRequests [r] (.fail 5))) ∧
      (s.route r.raddr ≠ none → exec (.planeWaitTimeout id) s = .next s)) ∧
    ((∀ q ∈ s.fab.requests, q.id ≠ id) → exec (.planeWaitTimeout id) s = .next s)

/-- Requests (R335, R409, R424, R430, R435, R436, R438, R447). At its target a plain request is performed on the function's
guest-physical bytes, or refused with reason 1 outside its carve-out, and answered on its plane; a release whose writes have not
all arrived is held, and performed when they have; requests wait during a save and while their slice group is under test. At its
origin an answer ends its request. A node that is lost takes its held releases with it, and every access to it fails; a set is
served to a peer with its check values under a signature, and what a peer sends is installed only with a right signature, key
and checks. Nothing comes in on a plane with no link up, or once boot has failed (R419, R434). The model's readings: ARRIVED counts the
performed writes of other nodes alone (log entry 36), and what is signed of a set, and how a message holds it, are the model's
choice (log entry 89). -/
def Obligations.FabricRequestEvents : Prop :=
  ∀ (s : State) (plane node fn id raddr n base imgid split xver domain k : Nat) (data sig : List Byte) (p : PeerSet)
    (a : RemoteAnswer) (op : RemoteOp) (r : FabReq) (h : HeldRelease) (x : TransSet) (t : Team) (lane : Nat),
    let runs : Prop := (s.fn fn).state = .running
    let answered : State → RemoteAnswer → Out := fun s' a => .next (s'.sendWire (.answer plane node id raddr a))
    let key := fn * 1024 + node
    let counted : State → State := fun s' => { s' with fab := { s'.fab with
      arrived := Tbl.insert s'.fab.arrived key ((Tbl.get s'.fab.arrived 0 key + 1) % 2 ^ 32) } }
    let free : RemoteOp → Prop := fun op => s.planeDelivers plane = true ∧ s.checkpointing = false ∧ s.remoteWaits fn raddr op = false
    let w : Wire := .answer plane node id raddr a
    -- performed or refused
    (free (.store data) → runs → node ≠ s.node → raddr + data.length ≤ (s.fn fn).s2bound.toNat →
      exec (.fabricRequestReceive (plane, node) fn id raddr (.store data) none) s =
        answered (counted (s.writeBytes (.gpa fn raddr) data)) .done) ∧
    (free (.load n) → runs → raddr + n ≤ (s.fn fn).s2bound.toNat → s.markedIn (.gpa fn raddr) n = false →
      (∀ i, i < n → s.inFlight (.gpa fn (raddr + i)) = false) →
      exec (.fabricRequestReceive (plane, node) fn id raddr (.load n) none) s = answered s (.data (s.readBytes (.gpa fn raddr) n))) ∧
    (free (.load n) → runs → raddr + n ≤ (s.fn fn).s2bound.toNat → s.markedIn (.gpa fn raddr) n = true →
      exec (.fabricRequestReceive (plane, node) fn id raddr (.load n) none) s = answered s .poison) ∧
    (free (.store data) → (¬ runs ∨ (s.fn fn).s2bound.toNat < raddr + data.length) →
      exec (.fabricRequestReceive (plane, node) fn id raddr (.store data) none) s = answered s (.fail 1)) ∧
    (free op → (BitVec.ofNat 32 (Tbl.get s.fab.arrived 0 key) - BitVec.ofNat 32 n).toInt < 0 →
      exec (.fabricRequestReceive (plane, node) fn id raddr op (some n)) s = .next { s with fab := { s.fab with
        heldReleases := s.fab.heldReleases ++
          [{ origin := node, fn := fn, id := id, raddr := raddr, op := op, n := n, plane := plane }] } }) ∧
    (free op → 0 ≤ (BitVec.ofNat 32 (Tbl.get s.fab.arrived 0 key) - BitVec.ofNat 32 n).toInt →
      exec (.fabricRequestReceive (plane, node) fn id raddr op (some n)) s =
        exec (.fabricRequestReceive (plane, node) fn id raddr op none) s) ∧
    (free op → exec (.fabricRequestReceive (plane, node) fn id raddr op none) s = .next (s.serveRemote plane node fn id raddr op)) ∧
    (¬ free op → exec (.fabricRequestReceive (plane, node) fn id raddr op none) s = .next s) ∧
    -- an answer takes its plane
    (s.fab.wires = [] → s.fabValid = true → s.planeLink plane raddr = some k → s.linkRoom k = true →
      ∃ flits last, (s.sendWire w).outbox = s.outbox ++ flits.map (fun f => .flit k f) ++ [.wire k w] ∧ flits ≠ [] ∧
        (s.sendWire w).fab.wires = [{ body := w, link := some k, last := last }]) ∧
    (s.fab.wires = [] → s.planeLink plane raddr = none → (s.sendWire w).outbox = s.outbox ∧
      (s.sendWire w).fab = { s.fab with wires := [{ body := w }] }) ∧
    -- held releases
    (s.checkpointing = false → List.find? (fun h : HeldRelease => h.origin == node && h.id == id) s.fab.heldReleases = some h →
      let kept : State := { s with fab := { s.fab with
        heldReleases := s.fab.heldReleases.filter fun h => !(h.origin == node && h.id == id) } }
      (0 ≤ (BitVec.ofNat 32 (Tbl.get s.fab.arrived 0 (h.fn * 1024 + node)) - BitVec.ofNat 32 h.n).toInt →
        s.remoteWaits h.fn h.raddr h.op = false → s.dev.phase ≠ 15 →
        exec (.fabricReleasePerform node id) s = .next (kept.serveRemote h.plane node h.fn id h.raddr h.op)) ∧
      ((BitVec.ofNat 32 (Tbl.get s.fab.arrived 0 (h.fn * 1024 + node)) - BitVec.ofNat 32 h.n).toInt < 0 →
        exec (.fabricReleasePerform node id) s = .next s) ∧
      (node ≠ s.node → exec (.releaseCountTimeout node id) s =
        .next (kept.sendWire (.answer h.plane node id h.raddr (.fail 4))))) ∧
    (List.find? (fun r : FabReq => r.id == id && r.link.isNone && r.release.isSome) s.fab.requests = some r →
      exec (.releaseCountTimeout s.node id) s =
        .next (if (s.stream r.fn r.node).failed = true then s.endRequests [r] (.fail 4) else s)) ∧
    (s.delivers = true → exec (.streamReset fn node base) s = .next { s with fab := { s.fab with
      arrived := Tbl.insert s.fab.arrived key (base % 2 ^ 32) } }) ∧
    (s.delivers = false → exec (.streamReset fn node base) s = .next s) ∧
    (s.planeDelivers plane = true ↔ s.fabValid = true ∧ s.dev.phase ≠ 15 ∧ plane < 8 ∧
      ((s.link (2 * plane)).state = 2 ∨ (s.link (2 * plane + 1)).state = 2)) ∧
    -- at the origin
    (List.find? (fun r : FabReq => r.id == id && r.link.isSome) s.fab.requests = some r →
      exec (.fabricResponseReceive id a) s = .next (s.endRequests [r] a)) ∧
    ((∀ r ∈ s.fab.requests, r.id ≠ id) → exec (.fabricResponseReceive id a) s = .next s) ∧
    (s.fab.requests = [r] → r.use = .access lane → Tbl.find? s.teams r.uid = some t → s.fab.groups = [] → s.fab.streams = [] →
      s.fab.wires = [] →
      -- a write that has landed is heard by the monitors on its line (R164)
      let hears : Option Monitor → Option Monitor := fun m => m.map fun x =>
        if remoteWrites r.op && answerLands a && x.line == (2, (r.node * 2 ^ 46 + r.raddr) / 128) then { x with hit := true } else x
      s.endRequests [r] a = ({ s with
          fab := { s.fab with requests := [] }
          teams := s.teams.map fun e => (e.1, { e.2 with link := { e.2.link with monitor := hears e.2.link.monitor } }) } : State).putTeam
        r.uid { t with link := { t.link with
          answers := Tbl.insert t.link.answers lane a, monitor := hears t.link.monitor } }) ∧
    -- lost nodes
    (node ≠ s.node → s.fab.lostNodes.contains node = false → ∃ s', exec (.nodeLost node) s = .next s' ∧
      s'.fab.lostNodes = node :: s.fab.lostNodes ∧ (∀ h ∈ s'.fab.heldReleases, h.origin ≠ node) ∧
      (∀ q ∈ s'.fab.requests, q.node ≠ node) ∧
      (∀ f raddr, s.fabValid = true → s'.fabricFails f (.fabric node raddr) = some 2)) ∧
    (node = s.node ∨ s.fab.lostNodes.contains node = true → exec (.nodeLost node) s = .next s) ∧
    -- peers
    (let peers : Prop := (s.fn fn).tctl.getLsbD 1 = true ∧ s.fabValid = true ∧ s.barred 5 0 fn = false ∧ s.delivers = true
     let message : PeerSet → List Byte := fun p => Config.peerMessage p.imgid p.split p.xver p.domain p.packed
     let served : PeerSet := { imgid := imgid, split := split, xver := xver, domain := domain
                               packed := x.packed.map fun e => (e.1, e.2.bytes, e.2.check) }
     let good : Prop := slhVerify slh256f (Config.identityKey node) (message p) sig = true ∧ p.imgid = x.imgid ∧ p.split = x.split ∧
       p.xver = s.xver ∧ p.domain = (s.fn fn).tctl.toNat / 256 % 256 ∧ (∀ o ∈ x.overlays, ∃ e ∈ p.packed, e.1 = o.1) ∧
       ∀ e ∈ p.packed, crc32c e.2.1 = e.2.2
     let packed : Tbl Packed := p.packed.foldl (fun t e => Tbl.insert t e.1 ⟨e.2.1, e.2.2⟩) []
     (s.currentSet imgid split domain = some k → Tbl.find? s.sets k = some x → x.ready = true → xver = s.xver →
       peers → (s.fn fn).tctl.toNat / 256 % 256 = domain →
       exec (.peerFetchRequest node fn imgid split xver domain) s =
         .next (s.sendWire (.peerServe fn node served (Config.sign (message served))))) ∧
     ((s.currentSet imgid split domain = none ∨ ¬ peers ∨ xver ≠ s.xver) →
       exec (.peerFetchRequest node fn imgid split xver domain) s = .next s) ∧
     (s.currentSet p.imgid p.split p.domain = some k → Tbl.find? s.sets k = some x → x.fetching ≠ none → peers →
       (good → s.cacheUsed + packedSize packed ≤ s.tcsize → exec (.peerFetchReceive fn node p.imgid p.split p.xver p.domain ⟨p.packed, sig⟩) s =
         .next { s with sets := Tbl.insert s.sets k { x with fetching := none, ready := true, packed := packed } }) ∧
       (¬ good → exec (.peerFetchReceive fn node p.imgid p.split p.xver p.domain ⟨p.packed, sig⟩) s =
         .next { s with sets := Tbl.insert s.sets k { x with fetching := none } })) ∧
     (s.currentSet p.imgid p.split p.domain = some k → Tbl.find? s.sets k = some x → x.fetching = none →
       exec (.peerFetchReceive fn node p.imgid p.split p.xver p.domain ⟨p.packed, sig⟩) s = .next s) ∧
     (Tbl.find? s.sets k = some x → exec (.peerFetchTimeout k) s =
       .next { s with sets := Tbl.insert s.sets k { x with fetching := none } }))

/-- Messages of transaction groups. At a destination (R409, R426, R438, R441, R442, R444): staged bytes are charged and published by a
COMMIT alone, at once, while no slice group that they reach is under test; PREPARE is answered READY when every store has come,
waits for the others, and is acknowledged where no record is; ABORT and FORGET take a record away, and stores that come later for
one refused or discarded are discarded, charging nothing (which of them are still to come: log entry 123); nothing comes while no
link delivers (R434); when its origin is lost a READY
record queries the other destinations, and any other goes, that it committed being kept for queries (log entry 111). At the origin
(R214, R443): the last READY commits a group whose team's earlier accesses are complete; the first REFUSE aborts it with its reason
and node; the last acknowledgment of COMMIT or ABORT sends FORGET and makes it DONE. -/
def Obligations.GroupEvents : Prop :=
  (∀ (s : State) (gid : GroupId) (src raddr count : Nat) (data : List Byte) (dests answers lost : List Nat) (r : DestRec) (c : Bool),
     let v := gid.vf
     let here : Prop := List.find? (fun r => r.gid == gid) s.fab.recs = some r
     let absent : Prop := List.find? (fun r => r.gid == gid) s.fab.recs = none
     let tells_ : GroupBody → State → Out := fun b s' => .next (s'.sendGroup { gid := gid, src := s.node, dst := gid.origin, body := b })
     let open_ : Prop := s.delivers = true
     let free : Prop := open_ ∧ (s.checkpointing = false ∨ src = s.node)
     let calm : Prop := open_ ∧ s.publishWaits gid = false
     let late : Prop := ∃ x ∈ s.fab.late, x.gid = gid
     let prompt : Prop := ∀ x ∈ s.fab.late, x.gid ≠ gid
     let cleared : State := { s with fab := { s.fab with outcomes := s.fab.outcomes.filter (· != gid) } }
     let becomes : RecState → State := fun st => s.putRec { r with st := st, bytes := [] }
     let refused : Nat → State := fun n => s.putRec { r with st := .refused n, bytes := [], arrived := r.arrived + 1 }
     let told : State := { s with fab := { s.fab with late := s.fab.late.filter fun x => x.gid != gid } }
     -- the record is gone, and what is still to come of its group is known
     let gone : State := { s with fab := { s.fab with
       recs := s.fab.recs.filter (fun r => r.gid != gid), indoubt := s.fab.indoubt.filter (· != gid)
       late := s.fab.late.filter (fun x => x.gid != gid) ++
         if r.total = some r.arrived then [] else [{ gid := gid, arrived := r.arrived, total := r.total }] } }
     let bytes := stageBytes r.bytes raddr data
     let room : Prop := (s.fn v).state = .running ∧ (raddr < 2 ^ 60 → raddr + data.length ≤ (s.fn v).s2bound.toNat) ∧
       r.arrived < 2 ^ 24 ∧ s.stageCharge v + 64 * ((granules bytes).length - (granules r.bytes).length) ≤ (s.fn v).stgq.toNat
     (free → here → r.st = .staging → room →
       exec (.stagedStoreReceive gid src raddr data) s = .next (s.putRec { r with bytes := bytes, arrived := r.arrived + 1 })) ∧
     (free → here → r.st = .held (r.arrived + 1) dests → room → exec (.stagedStoreReceive gid src raddr data) s =
       .next ((s.putRec { r with bytes := bytes, arrived := r.arrived + 1, st := .ready dests }).sendGroup
         { gid := r.gid, src := s.node, dst := r.gid.origin, body := .ready })) ∧
     (free → here → r.st = .staging → (s.fn v).state ≠ .running →
       exec (.stagedStoreReceive gid src raddr data) s = .next (refused 4)) ∧
     (free → here → r.gid = gid → r.st = .held count dests → (s.fn v).state ≠ .running →
       exec (.stagedStoreReceive gid src raddr data) s = tells_ (.refuse 4) (refused 4)) ∧
     (free → here → r.st = .staging → (s.fn v).state = .running →
       (raddr < 2 ^ 60 → raddr + data.length ≤ (s.fn v).s2bound.toNat) → r.arrived < 2 ^ 24 →
         (granules bytes).length ≠ (granules r.bytes).length → (granules r.bytes).length ≤ (granules bytes).length →
       (s.fn v).stgq.toNat < s.stageCharge v + 64 * ((granules bytes).length - (granules r.bytes).length) →
       exec (.stagedStoreReceive gid src raddr data) s = .next (refused 2)) ∧
     (free → here → (∃ n, r.st = .refused n) →
       exec (.stagedStoreReceive gid src raddr data) s = .next (s.putRec { r with arrived := r.arrived + 1 })) ∧
     (free → absent → late → ∃ s', exec (.stagedStoreReceive gid src raddr data) s = .next s' ∧ s'.fab.recs = s.fab.recs ∧
       s'.mem = s.mem ∧ s'.host = s.host ∧ s'.outbox = s.outbox) ∧
     (free → absent → prompt → 16384 ≤ s.recCount → exec (.stagedStoreReceive gid src raddr data) s =
       .next (cleared.putRec { gid := gid, st := .refused 2, arrived := 1 })) ∧
     (free → absent → prompt → s.recCount < 16384 → (s.fn v).state = .running → (raddr < 2 ^ 60 → raddr + data.length ≤ (s.fn v).s2bound.toNat) →
       s.stageCharge v + 64 * (granules (stageBytes [] raddr data)).length ≤ (s.fn v).stgq.toNat →
       exec (.stagedStoreReceive gid src raddr data) s =
         .next (cleared.putRec { gid := gid, bytes := stageBytes [] raddr data, arrived := 1 })) ∧
     -- PREPARE
     (free → absent → exec (.prepare gid src count dests) s = tells_ .acknowledge s) ∧
     (free → here → r.st = .staging → r.gid = gid → r.arrived = count →
       exec (.prepare gid src count dests) s = tells_ .ready (s.putRec { r with total := some count, st := .ready dests })) ∧
     (free → here → r.st = .staging → r.arrived ≠ count →
       exec (.prepare gid src count dests) s = .next (s.putRec { r with total := some count, st := .held count dests })) ∧
     (∀ n, free → here → r.st = .refused n → exec (.prepare gid src count dests) s =
       tells_ (.refuse n) (s.putRec { r with total := some count })) ∧
     ((s.checkpointing = true ∧ src ≠ s.node ∨ ¬ open_) → exec (.prepare gid src count dests) s = .next s ∧
       exec (.stagedStoreReceive gid src raddr data) s = .next s) ∧
     -- COMMIT, ABORT, FORGET
     (calm → here → r.gid = gid → r.st = .ready dests → gid.origin = s.node → exec (.commit gid) s =
       tells_ .acknowledge ((s.publish r).putRec { r with st := .decided true, bytes := [] })) ∧
     (calm → here → r.gid = gid → r.st = .ready dests → gid.origin ≠ s.node →
       let out : State := (s.publish r).putRec { r with st := .decided true, bytes := [] }
       let k := v * 1024 + gid.origin
       exec (.commit gid) s = tells_ .acknowledge { out with fab := { out.fab with
         arrived := Tbl.insert out.fab.arrived k ((Tbl.get out.fab.arrived 0 k + 1) % 2 ^ 32) } }) ∧
     (¬ calm → exec (.commit gid) s = .next s ∧ exec (.queryAnswer gid src true) s = .next s) ∧
     (¬ open_ → exec (.abort gid) s = .next s ∧ exec (.forget gid) s = .next s ∧ exec (.query gid src) s = .next s ∧
       exec (.queryAnswer gid src c) s = .next s ∧ exec (.ready gid src) s = .next s ∧ exec (.refuse gid src count) s = .next s ∧
       exec (.acknowledge gid src c) s = .next s) ∧
     (∀ (b : Byte), r.bytes = [(raddr, b)] → raddr < 2 ^ 60 → s.publish r = s.writeBytes (.gpa r.gid.vf raddr) [b]) ∧
     (calm → here → r.st = .readyReset dests → exec (.commit gid) s = tells_ .acknowledgeReset (becomes (.decided true))) ∧
     (open_ → absent → exec (.commit gid) s = tells_ .acknowledge s ∧ exec (.abort gid) s = tells_ .acknowledge s ∧
       (prompt → exec (.forget gid) s = tells_ .acknowledge s) ∧
       ((∃ x ∈ s.fab.late, x.gid = gid ∧ x.total = none) → (∀ x ∈ s.fab.late, ∀ y ∈ s.fab.late, x.gid = y.gid → x = y) →
         exec (.forget gid) s = tells_ .acknowledge told)) ∧
     (open_ → here → (r.st = .ready dests ∨ r.st = .readyReset dests) → exec (.abort gid) s = tells_ .acknowledge (becomes (.decided false))) ∧
     (open_ → here → (r.st = .staging ∨ r.st = .held count dests ∨ r.st = .refused count) →
       exec (.abort gid) s = tells_ .acknowledge gone) ∧
     (open_ → here → r.st = .decided c → exec (.forget gid) s = .next
       { s with fab := { s.fab with recs := s.fab.recs.filter (fun r => r.gid != gid), indoubt := s.fab.indoubt.filter (· != gid) } }) ∧
     (here → (∀ c, r.st ≠ .decided c) → exec (.forget gid) s = .next s) ∧
     -- queries
     (open_ → here ∧ r.st = .decided true ∨ s.fab.outcomes.contains gid = true →
       exec (.query gid src) s = .next (s.sendGroup { gid := gid, src := s.node, dst := src, body := .queryAnswer true })) ∧
     (open_ → absent ∨ here ∧ r.st ≠ .decided true → s.fab.outcomes.contains gid = false →
       exec (.query gid src) s = .next (s.sendGroup { gid := gid, src := s.node, dst := src, body := .queryAnswer false })) ∧
     (calm → here → r.st = .querying dests answers lost →
       let out : State := s.publish r
       exec (.queryAnswer gid src true) s =
         .next (({ out with fab := { out.fab with indoubt := out.fab.indoubt.filter (· != r.gid) } } : State).putRec
           { r with st := .decided true, bytes := [] })) ∧
     (open_ → here → r.st = .querying dests answers lost → (∃ d ∈ dests, d ≠ src ∧ answers.contains d = false ∧ lost.contains d = false) →
       exec (.queryAnswer gid src false) s = .next (s.putRec { r with st := .querying dests (src :: answers) lost })) ∧
     (absent → exec (.queryAnswer gid src c) s = .next s) ∧
     -- a lost origin
     (∀ n, n ≠ s.node → s.fab.lostNodes.contains n = false → s.fab.recs = [r] → r.gid.origin = n →
       (r.st = .staging ∨ (∃ a b, r.st = .held a b) ∨ (∃ a, r.st = .refused a) ∨ r.st = .decided c) →
       ∃ s', exec (.nodeLost n) s = .next s' ∧ s'.fab.recs = [] ∧
         s'.fab.outcomes = if r.st = .decided true then r.gid :: s.fab.outcomes else s.fab.outcomes) ∧
     (∀ n, n ≠ s.node → s.fab.lostNodes.contains n = false → s.fab.recs = [r] → r.gid.origin = n → r.st = .ready dests →
       (∃ d ∈ dests, d ≠ s.node ∧ d ≠ n ∧ s.fab.lostNodes.contains d = false) →
       let others := dests.filter fun d => d != s.node
       let gone := others.filter fun d => (n :: s.fab.lostNodes).contains d
       ∃ s', exec (.nodeLost n) s = .next s' ∧ s'.fab.recs = [{ r with st := .querying others [] gone }])) ∧
  (∀ (s : State) (gid : GroupId) (src reason : Nat) (reset : Bool) (g : Group) (d : GroupDest),
     let own : Prop := s.delivers = true ∧ gid.origin = s.node ∧ Tbl.find? s.fab.groups gid.number = some g ∧ g.fn = gid.vf
     let sole : Prop := g.dests = [(src, d)]
     let asks : Prop := d.st = .asked
     let upd : (Group → Group) → State := fun f => { s with fab := { s.fab with groups := Tbl.insert s.fab.groups gid.number (f g) } }
     let to_ : GroupBody → GroupMsg := fun b => { gid := gid, src := s.node, dst := src, body := b }
     (own → sole → asks → g.phase = .preparing → s.groupQuiet g = true → g.told = false → src = s.node →
       exec (.ready gid src) s = .next ((upd fun g => { g with
         dests := [(src, { d with st := .ready })], phase := .committed, outcome := 1, told := true }).sendGroup (to_ .commit))) ∧
     (own → sole → asks → g.phase = .preparing → s.groupQuiet g = false → exec (.ready gid src) s =
       .next (upd fun g => { g with dests := [(src, { d with st := .ready })] })) ∧
     (own → sole → asks → g.phase = .preparing → g.told = false → exec (.refuse gid src reason) s = .next ((upd fun g => { g with
       dests := [(src, { d with st := .refused reason })], phase := .aborted, outcome := 2, reason := reason, node := some src
       told := true }).sendGroup (to_ (.abort reason)))) ∧
     (own → sole → g.told = true → (g.phase = .committed ∨ g.phase = .aborted) → d.st ≠ .acked → d.st ≠ .lost → g.freed = false →
       exec (.acknowledge gid src false) s = .next ((upd fun g => { g with
         dests := [(src, { d with st := .acked })], phase := .done }).sendGroup (to_ .forget))) ∧
     (own → sole → g.told = true → g.phase = .committed → g.reason = 0 → d.st ≠ .acked → d.st ≠ .lost → g.freed = false →
       exec (.acknowledge gid src true) s = .next ((upd fun g => { g with
         dests := [(src, { d with st := .acked })], phase := .done, reason := 4, node := some src }).sendGroup (to_ .forget))) ∧
     (own → sole → ¬ asks → exec (.ready gid src) s = .next s ∧ exec (.refuse gid src reason) s = .next s) ∧
     ((gid.origin ≠ s.node ∨ Tbl.find? s.fab.groups gid.number = none) → exec (.ready gid src) s = .next s ∧
       exec (.refuse gid src reason) s = .next s ∧ exec (.acknowledge gid src reset) s = .next s))

/-! ### Encodings, issue, reset, and what every step keeps -/

/-- Decoding (R25 to R27, R33, R34, R36, R42, R43, R46, R47, R51): the quad that the specification works out, its two illegal
variants, and words written out from the encoding tables. -/
def Obligations.DecodedWords : Prop :=
  let q : Quad := ⟨0xFF310000, 0x08240513, 0x4082070C, 0⟩
  let c := Counts.max
  decodeSlot c q 1 = .instr (.addI32 (some ⟨true, 3⟩) 200 5 9) ∧
  decodeSlot c q 2 = .instr (.cmpLtI32 none 4 7 6) ∧
  decodeSlot c q 3 = .instr .nop ∧
  decodeSlot c { q with w2 := 0x4082070D } 2 = .instr (.cmpLtI32 (some ⟨false, 1⟩) 4 7 6) ∧
  decodeSlot c { q with w1 := 0 } 1 = .illegal 0 4 ∧
  decodeSlot { c with nv := 200 } q 1 = .illegal 0 7 ∧
  -- major 18, FN 0, T 3, XB 2, VO 7, ORD 3, SCOPE 2
  decodeTableWord 32 0b10010_0000_0000011_00010_0000111_11_10 = some (.atomAddI32 3 2 7 .acqRel .device false false) ∧
  -- major 25, FN 0, condition not p5, offset -1
  decodeTableWord 32 0b11001_000_0101_1_1111111111111111111 = some (.bra ⟨true, 5⟩ (-1)) ∧
  -- major 16, FN 2, T 9, XB 1, VO 4, IMM4 -2, G 0
  decodeTableWord 32 0b10000_010_0001001_00001_0000100_1110_0 = some (.ldB32 none 9 1 4 (-2)) ∧
  decodeTableWord 32 1 = none ∧ decodeTableWord 32 (30 * 2 ^ 27) = none

/-- The words that stand for no instruction (R54): in any slot of any quad, a word of major 30 is an illegal encoding with reason
1, and a word whose FN names no mnemonic in its major one with reason 2; major 31 is the lender. -/
def Obligations.WordsWithoutMnemonic : Prop :=
  ∀ (c : Counts) (q : Quad) (i : Nat), i < 4 → q.word i < 2 ^ 32 →
    let w := q.word i
    let mj := w / 2 ^ 27
    let fn := if mj = 18 then w / 2 ^ 23 % 16 else if mj = 16 ∨ mj = 17 ∨ mj = 25 ∨ mj = 28 then w / 2 ^ 24 % 8 else w / 2 ^ 22 % 32
    let unnamed : Prop :=
      ((mj = 0 ∨ mj = 13) ∧ 7 ≤ fn) ∨ ((mj = 1 ∨ mj = 12) ∧ 16 ≤ fn) ∨ ((mj = 2 ∨ mj = 26) ∧ 6 ≤ fn) ∨ (mj = 3 ∧ 13 ≤ fn) ∨
      ((mj = 4 ∨ mj = 5 ∨ mj = 7 ∨ mj = 9 ∨ mj = 20) ∧ 8 ≤ fn) ∨ ((mj = 6 ∨ mj = 8 ∨ mj = 19 ∨ mj = 29) ∧ 10 ≤ fn) ∨
      ((mj = 10 ∨ mj = 15) ∧ 11 ≤ fn) ∨ ((mj = 11 ∨ mj = 14) ∧ 15 ≤ fn) ∨ ((mj = 17 ∨ mj = 25 ∨ mj = 28) ∧ fn = 7) ∨
      (mj = 21 ∧ 7 ≤ fn) ∨ (mj = 22 ∧ 4 ≤ fn) ∨ (mj = 23 ∧ 5 ≤ fn) ∨ (mj = 24 ∧ 6 ≤ fn) ∨ (mj = 27 ∧ 3 ≤ fn)
    (mj = 30 → decodeSlot c q i = .illegal i 1) ∧
    (unnamed → decodeSlot c q i = .illegal i 2) ∧
    (¬ unnamed → mj < 30 → opInfo mj (fnOf w) ≠ none) ∧
    (mj = 31 ↔ isLender w = true)

/-- Decode and encode agree: every instruction that the encoding admits, with every operand at every value it admits, has words,
and those words decode to it; a well-formed instruction is no event. -/
def Obligations.EncodeDecode : Prop :=
  ∀ (c : Counts) (i : Instr), i.wf c = true → ∃ e, encode i = some e ∧ decodeSlot c e.quad e.pos = .instr i

/-- The Pip4 codes and bytes (R83, R84): with the outlier shift 0 to 7, a byte's elements are its two nibbles' codes, or a
doublet and 0 where one nibble is 1000, or 0 and 0 where both are. -/
def Obligations.Pip4Bytes : Prop :=
  ∀ (osh lo hi : Nat), osh < 8 → lo < 16 → hi < 16 →
    let code : Nat → Int := fun c => if c < 8 then (c : Int) else -((16 - c : Nat) : Int)
    let doublet : Nat → Int := fun p => (if p / 8 = 1 then -1 else 1) * 2 ^ (3 + p % 8 + osh)
    (lo ≠ 8 → hi ≠ 8 → pip4Decode osh (lo + 16 * hi) = (code lo, code hi)) ∧
    (lo = 8 → hi ≠ 8 → pip4Decode osh (lo + 16 * hi) = (doublet hi, 0)) ∧
    (lo ≠ 8 → hi = 8 → pip4Decode osh (lo + 16 * hi) = (0, doublet lo)) ∧
    (lo = 8 → hi = 8 → pip4Decode osh (lo + 16 * hi) = (0, 0)) ∧
    (∀ p, p < 16 → p ≠ 8 → 8 ≤ (doublet p).natAbs ∧ (doublet p).natAbs ≤ 2 ^ 17 ∧ doublet p ≠ -(2 ^ (3 + osh)))

/-- How teams start (R24, R231, R371): a launch's teams start at privilege H exactly when it belongs to function 0 and its image
was verified under key slot 0, and at U otherwise; with every register zero or false but p0 and q0, every handle zero, no flag,
and nothing outstanding; a handle of generation 0 names nothing in a pool whose slots bear generations 1 to 255, which creating
and freeing keep. -/
def Obligations.TeamStart : Prop :=
  ∀ (s : State) (v r : Nat) (reserved : Bool) (img : Image) (k : Kernel) (l : Launch) (c index i n lane : Nat) (p : Pool TokenObj)
    (x : TokenObj) (h : Handle),
    let t := startTeam l c index i
    (s.imageOf v ((packetOf r).kernel / 2 ^ 16) = some img → img.kernels[(packetOf r).kernel % 2 ^ 16]? = some k →
      ∃ y, Tbl.find? (s.acceptLaunch v r reserved).launches s.uids = some y ∧ y.fn = v ∧ y.kern = k ∧ y.pkt = packetOf r ∧
        y.serial = (s.fn v).serial ∧ (y.priv = .h ↔ v = 0 ∧ img.keySlot = 0) ∧ (y.priv = .u ↔ ¬ (v = 0 ∧ img.keySlot = 0))) ∧
    t.ctl.priv = l.priv ∧
    (lane < 1024 → t.regs.v n lane = 0 ∧ t.regs.w n lane = 0 ∧ Mask.has (t.regs.p n) lane = decide (n = 0)) ∧
    t.regs.s n = 0 ∧ t.regs.x n = 0 ∧ t.regs.q n = decide (n = 0) ∧
    Tbl.get t.regs.hk 0 n = 0 ∧ Tbl.get t.regs.ha 0 n = 0 ∧ Tbl.get t.regs.ho 0 n = 0 ∧ Tbl.get t.regs.hy 0 n = 0 ∧
    Tbl.get t.regs.hh 0 n = 0 ∧
    t.regs.nflags = 0 ∧ t.link.monitor = none ∧ t.trap = {} ∧ t.eng = {} ∧ t.ctl.frames = [] ∧ t.ctl.returns = [] ∧
    (∀ lane, Mask.has t.ctl.active lane = decide (lane < l.kern.lanes ∧ lane < 1024)) ∧
    (Pool.genOk p = true → n < 256 → Pool.genOk (Pool.put p n x) = true ∧ Pool.genOk (Pool.free p n) = true ∧
      (h.toNat / 256 = 0 → Pool.live p h = none) ∧ (Pool.handle p n).toNat / 256 ≠ 0 ∧
      Pool.live (Pool.put p n x) (Pool.handle p n) = some x ∧ Pool.live (Pool.free (Pool.put p n x) n) (Pool.handle p n) = none)

/-- A step runs what stands at the pc (R16, R20, R37, R237, R261): with an empty agenda the sub-core in focus issues, and an issue,
an event, a message or an act of the world beside the opcode table at the head of the agenda is what the step brings about; the
selectors of the sub-cores then follow. A sub-core whose trace does not stop it issues for the context it selects, which at its safe
point may issue no more; its slot's instruction, or the illegal encoding found there, is performed with the pc at the slot. The agenda
and the focus are the model's (log entry 2), and so are the state in which a lone word is fetched (log entry 3) and what stands around
a word that the opcode table gives (log entry 92). -/
def Obligations.StepRunsDecoded : Prop :=
  ∀ (s : State) (l : List Act) (core sub uid n w : Nat) (t : Team) (i : Instr) (m : GroupMsg) (a : WorldAct),
    let b : State := ({ s with agenda := l } : State).safePointAt (core, sub)
    let quad := t.ctl.pc / 16 * 16
    let q := b.fetchQuad t quad
    let k := effectiveSlot q (t.ctl.pc % 16 / 4)
    let run : State := ({ b.modSub (core, sub) (fun c => { c with selected := some uid }) with self := some uid } : State).putTeam uid
      { t with status := .runnable, ctl := { t.ctl with pc := quad + 4 * k } }
    let issues : Prop := s.agenda = .issue core sub :: l ∨ s.agenda = [] ∧ l = [] ∧ s.focus = (core, sub)
    (issues → b.traceStopped (core, sub) = false → b.selectAt (core, sub) = some (uid, t) → Tbl.find? b.teams uid = some t →
      b.issueBarred (core, sub) t = false → t.link.detail = false →
      (t.status = .waiting ∨ b.lostOverlay t t.ctl.bank t.ctl.pc = none ∧ b.overlayIn t t.ctl.bank = some n ∧
        b.inOverlay t n quad = true) →
      (decodeSlot (b.countsOf t) q k = .instr i → step s = reselected (exec i run)) ∧
      (∀ slot reason, decodeSlot (b.countsOf t) q k = .illegal slot reason →
        step s = reselected (exec (.illegalEncoding slot reason) run))) ∧
    (issues → b.traceStopped (core, sub) = true → step s = reselected (.next (b.stopCycles (core, sub)))) ∧
    (issues → b.traceStopped (core, sub) = false → b.selectAt (core, sub) = none → step s = reselected (.next b)) ∧
    ((∀ k d, Tbl.find? s.crews k = some d → ∀ y, d.status ≠ .stopping y) → (∀ k e, Tbl.find? s.launches k = some e → e.halted = false) →
      b = { s with agenda := l }) ∧
    (s.agenda = .event i :: l → step s = reselected (exec i { s with agenda := l, self := none })) ∧
    (s.agenda = .message m :: l → step s = reselected (.next (({ s with agenda := l } : State).deliverMessage m))) ∧
    (s.agenda = .world a :: l → step s = reselected (.next (({ s with agenda := l } : State).worldAct a))) ∧
    (∀ (t : State) p, (p ∈ t.subs ∧ Tbl.sortedFrom 0 t.subs = true) → ∃ t', reselected (.next t) = .next t' ∧ t'.teams = t.teams ∧
      t'.mem = t.mem ∧ t'.crews = t.crews ∧
      (t'.sub (p.1 / 4, p.1 % 4)).selected = (t.selectAt (p.1 / 4, p.1 % 4)).map (·.1)) ∧
    (decodeTableWord 32 w = some i → ∃ x u y, step (State.reset.withFetchWord 32 w) = reselected (exec i x) ∧ Issuing x u y ∧
      Fresh x u y ∧ y.ctl.pc = 0 ∧ y.ctl.priv = .h ∧ y.nlane = 8 ∧ y.status = .runnable)

/-- The world beside the opcode table (R301, R305, R312, R413, R414, R422). A BAR read delivers 8 aligned bytes of a configuration
register of the window that the offset names, and any other access reads zero and writes nothing; a host store and a host load act
on the host memory that the device reads and writes; a masked vector pends until it is unmasked, and longer while its function is
descheduled (R397); an engine operation's reading of its sources changes nothing but what it has read. Masks and pending bits are those
of PCIe (PRESUMED, log entry 16); that an engine reads by acts of its own (log entry 6), that a lane of an atomic may be held back for
others (log entry 122), and the agenda that brings all this (log entry 2) are the model's. -/
def Obligations.WorldActs : Prop :=
  ∀ (s : State) (l : List Act) (fn bar off size addr v vec uid n : Nat) (bytes : List Byte) (op : EngRef) (t : Team) (w : Firmware),
    let b : State := { s with agenda := l }
    let brings : WorldAct → State → Prop := fun a s' => s.agenda = .world a :: l → step s = .next s'.reselect
    let data : Word64 → Prop := fun x => brings (.barRead fn bar off size) (b.emit (.barData fn bar off x))
    let whole : Prop := size = 8 ∧ off % 8 = 0
    let set : Bool → Nat → Nat → Prop := fun atH window offset =>
      (whole → data (b.cfgRead atH none window offset)) ∧
      (bytes.length = 8 → off % 8 = 0 → brings (.barWrite fn bar off bytes) (b.cfgWrite atH window offset (BitVec.ofNat 64 (leNat bytes)))) ∧
      (¬ (bytes.length = 8 ∧ off % 8 = 0) → brings (.barWrite fn bar off bytes) b)
    (¬ whole → data 0) ∧
    (fn = 0 → bar = 0 → off < 2 ^ 18 → set true 0 off) ∧
    (fn = 0 → bar = 4 → 2 ^ 16 ≤ off → off < 2 ^ 21 → set true (off / 2 ^ 16) (off % 2 ^ 16)) ∧
    (1 ≤ fn → fn < 32 → bar = 0 → off < 2 ^ 16 → set false fn off) ∧
    (fn < 32 → bar = 2 → off < 2 ^ 12 → whole → s.dev.phase ≠ 15 → data (b.windowRead fn off)) ∧
    (fn < 32 → bar = 2 → off < 2 ^ 12 → s.dev.phase ≠ 15 → brings (.barWrite fn bar off bytes) (b.windowWrite fn off bytes)) ∧
    (32 ≤ fn → data 0 ∧ brings (.barWrite fn bar off bytes) b) ∧
    -- the host as an agent of its memory
    brings (.store addr bytes) (b.writeBytes (.host addr) bytes) ∧
    (∀ a, (b.writeBytes (.host addr) bytes).byteAt (.host a) = (if addr ≤ a then bytes[a - addr]? else none).getD (b.byteAt (.host a))) ∧
    ((b.writeBytes (.host addr) bytes).mem = b.mem) ∧
    ((∀ i, i < n → b.inFlight (.host (addr + i)) = false) →
      brings (.load addr n) (b.emit (.hostData addr (b.readBytes (.host addr) n)))) ∧
    -- masks
    (let masked := b.maskVector v vec true
     brings (.maskVector v vec true) masked ∧ (masked.fn v).masked.contains vec = true ∧
     (b.descheduled v = false → masked.outbox = b.outbox ∧ (masked.msi v vec).outbox = b.outbox ∧
       ((masked.msi v vec).fn v).pending.contains vec = true)) ∧
    (let open_ := b.maskVector v vec false
     brings (.maskVector v vec false) open_ ∧ (open_.fn v).masked.contains vec = false ∧ (open_.fn v).pending.contains vec = false ∧
     open_.outbox = (if (b.fn v).pending.contains vec = true ∧ b.descheduled v = false then b.outbox ++ [.msix v vec] else b.outbox) ∧
     ((b.fn v).pending.contains vec = true → b.descheduled v = true → (open_.fn v).msix.contains vec = true)) ∧
    (Tbl.find? b.teams uid = some t → brings (.breakBefore uid n)
      (b.putTeam uid { t with ctl := { t.ctl with breaks := n :: t.ctl.breaks.filter (· != n) } })) ∧
    brings (.takeFirmware w) { b with dev := { b.dev with received := some w } } ∧
    brings (.assignAddress addr) { b with dev := { b.dev with i3cAddr := some addr } } ∧
    -- when an engine reads
    (∃ s', brings (.engineRead uid op) s' ∧ s'.mem = b.mem ∧ s'.host = b.host ∧ s'.crews = b.crews ∧ s'.outbox = b.outbox ∧
      (Tbl.find? b.teams uid = some t → ∃ t', Tbl.find? s'.teams uid = some t' ∧ t'.regs = t.regs ∧ t'.ctl = t.ctl ∧
        t'.status = t.status ∧ t'.trap = t.trap ∧ t'.link = t.link) ∧
      ∀ k, k ≠ uid → Tbl.find? s'.teams k = Tbl.find? b.teams k)

/-- After reset (R324, R355, R372, R375, R388, R415, R419, R429): boot is in phase 0; no launch, crew, team, image or set is
there; each function's DOMAIN is its number, REOPT is 1, its bounds, quotas, key mask and rates have their reset values; links are
closed. TRCTL and CKSTAT are zero, memory lists nothing and reads zero, and a step, with nothing that can issue, changes nothing:
these are the model's choices (log entries 5, 4 and 2). -/
def Obligations.ResetState : Prop :=
  ∀ (v a k : Nat) (p : Place),
    let s := State.reset
    s.dev.phase = 0 ∧ s.dev.ckstat = 0 ∧ s.teams = [] ∧ s.crews = [] ∧ s.launches = [] ∧ s.images = [] ∧ s.sets = [] ∧
    (s.fn v).state = .off ∧ (s.fn v).en = false ∧ (s.fn v).trctl = 0 ∧ (s.fn v).prqbase = 0 ∧ (s.fn v).s2bound = 0 ∧
    (v < 32 → (s.fn v).tctl.toNat = v * 256 + 1) ∧
    (s.fn v).quota.toNat = 64 + 128 * 2 ^ 16 + 128 * 2 ^ 32 ∧ (s.fn v).rate a = rateInit ∧
    (s.fn v).keymask.toNat = (if v = 0 then 0xFFFF else 0xFFFE) ∧
    (s.link k).state = 0 ∧ (s.link k).en = false ∧
    s.mem = [] ∧ s.host = [] ∧ s.byteAt p = 0 ∧ s.memOk = true ∧ s.teamsOk = true ∧ step s = .next s

/-- Every step keeps every memory in its canonical form: no address is listed twice or out of order, and none is listed that
reads as an unlisted one does. -/
def Obligations.StepKeepsMemory : Prop := ∀ (s s' : State), s.memOk = true → step s = .next s' → s'.memOk = true
end

