-- ==== Sys2Proof/Laws/Table.lean ====
section
/-! SUPPORT. Sparse tables: reading after writing, and the canonical form that writing keeps. -/

namespace Sys2Proof

variable {α : Type}

theorem Tbl.find?_insert (t : Tbl α) (n m : Nat) (a : α) :
    Tbl.find? (Tbl.insert t n a) m = if m = n then some a else Tbl.find? t m := by
  induction t with
  | nil => simp [Tbl.insert, Tbl.find?, eq_comm]
  | cons e t ih =>
    obtain ⟨k, v⟩ := e
    simp only [Tbl.insert]
    split
    · simp [Tbl.find?, eq_comm]
    · split
      · subst_vars
        by_cases h : m = k <;> simp [Tbl.find?, h, eq_comm]
      · by_cases h : k = m
        · have : m ≠ n := by omega
          simp [Tbl.find?, h, this]
        · simp [Tbl.find?, h, ih]

theorem Tbl.find?_erase (t : Tbl α) (n m : Nat) :
    Tbl.find? (Tbl.erase t n) m = if m = n then none else Tbl.find? t m := by
  induction t with
  | nil => simp [Tbl.erase, Tbl.find?]
  | cons e t ih =>
    obtain ⟨k, v⟩ := e
    simp only [Tbl.erase]
    by_cases h : k = n
    · rw [if_pos h, ih]
      by_cases h' : m = n
      · rw [if_pos h', if_pos h']
      · have : ¬ k = m := fun e => h' (e.symm.trans h)
        simp [h', Tbl.find?, this]
    · by_cases h' : k = m
      · have : m ≠ n := by omega
        simp [Tbl.find?, h', this]
      · simp [h, Tbl.find?, h', ih]

@[simp] theorem Tbl.find?_insert_self (t : Tbl α) (n : Nat) (a : α) : Tbl.find? (Tbl.insert t n a) n = some a := by
  simp [Tbl.find?_insert]

theorem Tbl.find?_insert_ne (t : Tbl α) {n m : Nat} (a : α) (h : m ≠ n) : Tbl.find? (Tbl.insert t n a) m = Tbl.find? t m := by
  simp [Tbl.find?_insert, h]

/-- The later of two entries of one number stands. -/
theorem Tbl.insert_insert (t : Tbl α) (n : Nat) (a b : α) : Tbl.insert (Tbl.insert t n a) n b = Tbl.insert t n b := by
  induction t with
  | nil => simp [Tbl.insert]
  | cons e t ih =>
    obtain ⟨k, v⟩ := e
    simp only [Tbl.insert]
    split
    · simp [Tbl.insert]
    · split
      · simp [Tbl.insert, *]
      · simp only [Tbl.insert, *]; simp

/-- Looking up after a change of every entry. -/
theorem Tbl.find?_map (t : Tbl α) (f : α → α) (n : Nat) :
    Tbl.find? (t.map fun e => (e.1, f e.2)) n = (Tbl.find? t n).map f := by
  induction t with
  | nil => rfl
  | cons e t ih =>
    obtain ⟨k, v⟩ := e
    simp only [List.map_cons, Tbl.find?]
    split
    · rfl
    · exact ih

theorem Tbl.get_insert (t : Tbl α) (d : α) (n m : Nat) (a : α) :
    Tbl.get (Tbl.insert t n a) d m = if m = n then a else Tbl.get t d m := by
  unfold Tbl.get
  rw [Tbl.find?_insert]
  split <;> rfl

theorem Tbl.get_set [DecidableEq α] (t : Tbl α) (d : α) (n m : Nat) (a : α) :
    Tbl.get (Tbl.set t d n a) d m = if m = n then a else Tbl.get t d m := by
  unfold Tbl.set
  by_cases h : a = d
  · rw [if_pos h]
    unfold Tbl.get
    rw [Tbl.find?_erase]
    split <;> simp [h]
  · rw [if_neg h, Tbl.get_insert]

theorem Tbl.find?_modify (t : Tbl α) (n m : Nat) (f : α → α) :
    Tbl.find? (Tbl.modify t n f) m = if m = n then (Tbl.find? t n).map f else Tbl.find? t m := by
  unfold Tbl.modify
  cases h : Tbl.find? t n with
  | none => by_cases e : m = n <;> simp [e, h]
  | some a => simp only [Tbl.find?_insert, Option.map_some]

theorem Tbl.sortedFrom_mono {t : Tbl α} {i j : Nat} (h : i ≤ j) (w : Tbl.sortedFrom j t = true) : Tbl.sortedFrom i t = true := by
  cases t with
  | nil => rfl
  | cons e t =>
    simp only [Tbl.sortedFrom, Bool.and_eq_true, decide_eq_true_eq] at w ⊢
    exact ⟨h.trans w.1, w.2⟩

theorem Tbl.sortedFrom_insert {t : Tbl α} {i n : Nat} (a : α) (h : i ≤ n) (w : Tbl.sortedFrom i t = true) :
    Tbl.sortedFrom i (Tbl.insert t n a) = true := by
  induction t generalizing i with
  | nil => simp [Tbl.insert, Tbl.sortedFrom, h]
  | cons e t ih =>
    obtain ⟨k, v⟩ := e
    simp only [Tbl.sortedFrom, Bool.and_eq_true, decide_eq_true_eq] at w
    simp only [Tbl.insert]
    split
    · rename_i hk
      simp only [Tbl.sortedFrom, Bool.and_eq_true, decide_eq_true_eq]
      exact ⟨h, hk, w.2⟩
    · split
      · rename_i hk
        subst hk
        simp only [Tbl.sortedFrom, Bool.and_eq_true, decide_eq_true_eq]
        exact ⟨h, w.2⟩
      · simp only [Tbl.sortedFrom, Bool.and_eq_true, decide_eq_true_eq]
        exact ⟨w.1, ih (by omega) w.2⟩

theorem Tbl.sortedFrom_erase {t : Tbl α} {i : Nat} (n : Nat) (w : Tbl.sortedFrom i t = true) :
    Tbl.sortedFrom i (Tbl.erase t n) = true := by
  induction t generalizing i with
  | nil => rfl
  | cons e t ih =>
    obtain ⟨k, v⟩ := e
    simp only [Tbl.sortedFrom, Bool.and_eq_true, decide_eq_true_eq] at w
    simp only [Tbl.erase]
    split
    · exact ih (Tbl.sortedFrom_mono (by omega) w.2)
    · simp only [Tbl.sortedFrom, Bool.and_eq_true, decide_eq_true_eq]
      exact ⟨w.1, ih w.2⟩

theorem Tbl.all_insert {t : Tbl α} {p : α → Bool} {n : Nat} {a : α} (h : p a = true) (w : (t.all fun e => p e.2) = true) :
    ((Tbl.insert t n a).all fun e => p e.2) = true := by
  induction t with
  | nil => simpa [Tbl.insert] using h
  | cons e t ih =>
    obtain ⟨k, v⟩ := e
    simp only [List.all_cons, Bool.and_eq_true] at w
    simp only [Tbl.insert]
    split
    · simp [List.all_cons, h, w.1, w.2]
    · split
      · simp only [List.all_cons, Bool.and_eq_true]
        exact ⟨h, w.2⟩
      · simp only [List.all_cons, Bool.and_eq_true]
        exact ⟨w.1, ih w.2⟩

theorem Tbl.all_erase {t : Tbl α} {p : α → Bool} (n : Nat) (w : (t.all fun e => p e.2) = true) :
    ((Tbl.erase t n).all fun e => p e.2) = true := by
  induction t with
  | nil => rfl
  | cons e t ih =>
    obtain ⟨k, v⟩ := e
    simp only [List.all_cons, Bool.and_eq_true] at w
    simp only [Tbl.erase]
    split
    · exact ih w.2
    · simp only [List.all_cons, Bool.and_eq_true]
      exact ⟨w.1, ih w.2⟩

/-- Writing keeps the canonical form. -/
theorem Tbl.wf_set [DecidableEq α] {t : Tbl α} {d : α} (n : Nat) (a : α) (w : Tbl.wf d t = true) :
    Tbl.wf d (Tbl.set t d n a) = true := by
  unfold Tbl.wf at w ⊢
  simp only [Bool.and_eq_true] at w ⊢
  unfold Tbl.set
  split
  · exact ⟨Tbl.sortedFrom_erase n w.1, Tbl.all_erase (p := fun x => decide (x ≠ d)) n w.2⟩
  · rename_i h
    exact ⟨Tbl.sortedFrom_insert a (Nat.zero_le n) w.1,
      Tbl.all_insert (p := fun x => decide (x ≠ d)) (by simpa using h) w.2⟩

end Sys2Proof
end

