-- ==== Sys2Proof/Laws/State.lean ====
section
/-! SUPPORT. What each update of the state, and of a team, leaves of every field. -/

namespace Sys2Proof.Machine

variable (s : State)

/-! `State.putTeam` -/

@[simp] theorem State.putTeam_agenda (uid : Nat) (t : Team) : (s.putTeam uid t).agenda = s.agenda := rfl
@[simp] theorem State.putTeam_self (uid : Nat) (t : Team) : (s.putTeam uid t).self = s.self := rfl
@[simp] theorem State.putTeam_focus (uid : Nat) (t : Team) : (s.putTeam uid t).focus = s.focus := rfl
@[simp] theorem State.putTeam_fresh (uid : Nat) (t : Team) : (s.putTeam uid t).fresh = s.fresh := rfl
@[simp] theorem State.putTeam_uids (uid : Nat) (t : Team) : (s.putTeam uid t).uids = s.uids := rfl
@[simp] theorem State.putTeam_teams (uid : Nat) (t : Team) : (s.putTeam uid t).teams = Tbl.insert s.teams uid t := rfl
@[simp] theorem State.putTeam_crews (uid : Nat) (t : Team) : (s.putTeam uid t).crews = s.crews := rfl
@[simp] theorem State.putTeam_launches (uid : Nat) (t : Team) : (s.putTeam uid t).launches = s.launches := rfl
@[simp] theorem State.putTeam_images (uid : Nat) (t : Team) : (s.putTeam uid t).images = s.images := rfl
@[simp] theorem State.putTeam_sets (uid : Nat) (t : Team) : (s.putTeam uid t).sets = s.sets := rfl
@[simp] theorem State.putTeam_subs (uid : Nat) (t : Team) : (s.putTeam uid t).subs = s.subs := rfl
@[simp] theorem State.putTeam_cycles (uid : Nat) (t : Team) : (s.putTeam uid t).cycles = s.cycles := rfl
@[simp] theorem State.putTeam_fns (uid : Nat) (t : Team) : (s.putTeam uid t).fns = s.fns := rfl
@[simp] theorem State.putTeam_dev (uid : Nat) (t : Team) : (s.putTeam uid t).dev = s.dev := rfl
@[simp] theorem State.putTeam_fab (uid : Nat) (t : Team) : (s.putTeam uid t).fab = s.fab := rfl
@[simp] theorem State.putTeam_mem (uid : Nat) (t : Team) : (s.putTeam uid t).mem = s.mem := rfl
@[simp] theorem State.putTeam_host (uid : Nat) (t : Team) : (s.putTeam uid t).host = s.host := rfl
@[simp] theorem State.putTeam_outbox (uid : Nat) (t : Team) : (s.putTeam uid t).outbox = s.outbox := rfl

/-! `State.modTeam` -/

@[simp] theorem State.modTeam_agenda (uid : Nat) (f : Team → Team) : (s.modTeam uid f).agenda = s.agenda := rfl
@[simp] theorem State.modTeam_self (uid : Nat) (f : Team → Team) : (s.modTeam uid f).self = s.self := rfl
@[simp] theorem State.modTeam_focus (uid : Nat) (f : Team → Team) : (s.modTeam uid f).focus = s.focus := rfl
@[simp] theorem State.modTeam_fresh (uid : Nat) (f : Team → Team) : (s.modTeam uid f).fresh = s.fresh := rfl
@[simp] theorem State.modTeam_uids (uid : Nat) (f : Team → Team) : (s.modTeam uid f).uids = s.uids := rfl
@[simp] theorem State.modTeam_teams (uid : Nat) (f : Team → Team) : (s.modTeam uid f).teams = Tbl.modify s.teams uid f := rfl
@[simp] theorem State.modTeam_crews (uid : Nat) (f : Team → Team) : (s.modTeam uid f).crews = s.crews := rfl
@[simp] theorem State.modTeam_launches (uid : Nat) (f : Team → Team) : (s.modTeam uid f).launches = s.launches := rfl
@[simp] theorem State.modTeam_images (uid : Nat) (f : Team → Team) : (s.modTeam uid f).images = s.images := rfl
@[simp] theorem State.modTeam_sets (uid : Nat) (f : Team → Team) : (s.modTeam uid f).sets = s.sets := rfl
@[simp] theorem State.modTeam_subs (uid : Nat) (f : Team → Team) : (s.modTeam uid f).subs = s.subs := rfl
@[simp] theorem State.modTeam_cycles (uid : Nat) (f : Team → Team) : (s.modTeam uid f).cycles = s.cycles := rfl
@[simp] theorem State.modTeam_fns (uid : Nat) (f : Team → Team) : (s.modTeam uid f).fns = s.fns := rfl
@[simp] theorem State.modTeam_dev (uid : Nat) (f : Team → Team) : (s.modTeam uid f).dev = s.dev := rfl
@[simp] theorem State.modTeam_fab (uid : Nat) (f : Team → Team) : (s.modTeam uid f).fab = s.fab := rfl
@[simp] theorem State.modTeam_mem (uid : Nat) (f : Team → Team) : (s.modTeam uid f).mem = s.mem := rfl
@[simp] theorem State.modTeam_host (uid : Nat) (f : Team → Team) : (s.modTeam uid f).host = s.host := rfl
@[simp] theorem State.modTeam_outbox (uid : Nat) (f : Team → Team) : (s.modTeam uid f).outbox = s.outbox := rfl

/-! `State.modCrew` -/

@[simp] theorem State.modCrew_agenda (c : Nat) (f : Crew → Crew) : (s.modCrew c f).agenda = s.agenda := rfl
@[simp] theorem State.modCrew_self (c : Nat) (f : Crew → Crew) : (s.modCrew c f).self = s.self := rfl
@[simp] theorem State.modCrew_focus (c : Nat) (f : Crew → Crew) : (s.modCrew c f).focus = s.focus := rfl
@[simp] theorem State.modCrew_fresh (c : Nat) (f : Crew → Crew) : (s.modCrew c f).fresh = s.fresh := rfl
@[simp] theorem State.modCrew_uids (c : Nat) (f : Crew → Crew) : (s.modCrew c f).uids = s.uids := rfl
@[simp] theorem State.modCrew_teams (c : Nat) (f : Crew → Crew) : (s.modCrew c f).teams = s.teams := rfl
@[simp] theorem State.modCrew_crews (c : Nat) (f : Crew → Crew) : (s.modCrew c f).crews = Tbl.modify s.crews c f := rfl
@[simp] theorem State.modCrew_launches (c : Nat) (f : Crew → Crew) : (s.modCrew c f).launches = s.launches := rfl
@[simp] theorem State.modCrew_images (c : Nat) (f : Crew → Crew) : (s.modCrew c f).images = s.images := rfl
@[simp] theorem State.modCrew_sets (c : Nat) (f : Crew → Crew) : (s.modCrew c f).sets = s.sets := rfl
@[simp] theorem State.modCrew_subs (c : Nat) (f : Crew → Crew) : (s.modCrew c f).subs = s.subs := rfl
@[simp] theorem State.modCrew_cycles (c : Nat) (f : Crew → Crew) : (s.modCrew c f).cycles = s.cycles := rfl
@[simp] theorem State.modCrew_fns (c : Nat) (f : Crew → Crew) : (s.modCrew c f).fns = s.fns := rfl
@[simp] theorem State.modCrew_dev (c : Nat) (f : Crew → Crew) : (s.modCrew c f).dev = s.dev := rfl
@[simp] theorem State.modCrew_fab (c : Nat) (f : Crew → Crew) : (s.modCrew c f).fab = s.fab := rfl
@[simp] theorem State.modCrew_mem (c : Nat) (f : Crew → Crew) : (s.modCrew c f).mem = s.mem := rfl
@[simp] theorem State.modCrew_host (c : Nat) (f : Crew → Crew) : (s.modCrew c f).host = s.host := rfl
@[simp] theorem State.modCrew_outbox (c : Nat) (f : Crew → Crew) : (s.modCrew c f).outbox = s.outbox := rfl

/-! `State.modLaunch` -/

@[simp] theorem State.modLaunch_agenda (l : Nat) (f : Launch → Launch) : (s.modLaunch l f).agenda = s.agenda := rfl
@[simp] theorem State.modLaunch_self (l : Nat) (f : Launch → Launch) : (s.modLaunch l f).self = s.self := rfl
@[simp] theorem State.modLaunch_focus (l : Nat) (f : Launch → Launch) : (s.modLaunch l f).focus = s.focus := rfl
@[simp] theorem State.modLaunch_fresh (l : Nat) (f : Launch → Launch) : (s.modLaunch l f).fresh = s.fresh := rfl
@[simp] theorem State.modLaunch_uids (l : Nat) (f : Launch → Launch) : (s.modLaunch l f).uids = s.uids := rfl
@[simp] theorem State.modLaunch_teams (l : Nat) (f : Launch → Launch) : (s.modLaunch l f).teams = s.teams := rfl
@[simp] theorem State.modLaunch_crews (l : Nat) (f : Launch → Launch) : (s.modLaunch l f).crews = s.crews := rfl
@[simp] theorem State.modLaunch_launches (l : Nat) (f : Launch → Launch) : (s.modLaunch l f).launches = Tbl.modify s.launches l f := rfl
@[simp] theorem State.modLaunch_images (l : Nat) (f : Launch → Launch) : (s.modLaunch l f).images = s.images := rfl
@[simp] theorem State.modLaunch_sets (l : Nat) (f : Launch → Launch) : (s.modLaunch l f).sets = s.sets := rfl
@[simp] theorem State.modLaunch_subs (l : Nat) (f : Launch → Launch) : (s.modLaunch l f).subs = s.subs := rfl
@[simp] theorem State.modLaunch_cycles (l : Nat) (f : Launch → Launch) : (s.modLaunch l f).cycles = s.cycles := rfl
@[simp] theorem State.modLaunch_fns (l : Nat) (f : Launch → Launch) : (s.modLaunch l f).fns = s.fns := rfl
@[simp] theorem State.modLaunch_dev (l : Nat) (f : Launch → Launch) : (s.modLaunch l f).dev = s.dev := rfl
@[simp] theorem State.modLaunch_fab (l : Nat) (f : Launch → Launch) : (s.modLaunch l f).fab = s.fab := rfl
@[simp] theorem State.modLaunch_mem (l : Nat) (f : Launch → Launch) : (s.modLaunch l f).mem = s.mem := rfl
@[simp] theorem State.modLaunch_host (l : Nat) (f : Launch → Launch) : (s.modLaunch l f).host = s.host := rfl
@[simp] theorem State.modLaunch_outbox (l : Nat) (f : Launch → Launch) : (s.modLaunch l f).outbox = s.outbox := rfl

/-! `State.modFn` -/

@[simp] theorem State.modFn_agenda (v : Nat) (f : Fn → Fn) : (s.modFn v f).agenda = s.agenda := rfl
@[simp] theorem State.modFn_self (v : Nat) (f : Fn → Fn) : (s.modFn v f).self = s.self := rfl
@[simp] theorem State.modFn_focus (v : Nat) (f : Fn → Fn) : (s.modFn v f).focus = s.focus := rfl
@[simp] theorem State.modFn_fresh (v : Nat) (f : Fn → Fn) : (s.modFn v f).fresh = s.fresh := rfl
@[simp] theorem State.modFn_uids (v : Nat) (f : Fn → Fn) : (s.modFn v f).uids = s.uids := rfl
@[simp] theorem State.modFn_teams (v : Nat) (f : Fn → Fn) : (s.modFn v f).teams = s.teams := rfl
@[simp] theorem State.modFn_crews (v : Nat) (f : Fn → Fn) : (s.modFn v f).crews = s.crews := rfl
@[simp] theorem State.modFn_launches (v : Nat) (f : Fn → Fn) : (s.modFn v f).launches = s.launches := rfl
@[simp] theorem State.modFn_images (v : Nat) (f : Fn → Fn) : (s.modFn v f).images = s.images := rfl
@[simp] theorem State.modFn_sets (v : Nat) (f : Fn → Fn) : (s.modFn v f).sets = s.sets := rfl
@[simp] theorem State.modFn_subs (v : Nat) (f : Fn → Fn) : (s.modFn v f).subs = s.subs := rfl
@[simp] theorem State.modFn_cycles (v : Nat) (f : Fn → Fn) : (s.modFn v f).cycles = s.cycles := rfl
@[simp] theorem State.modFn_fns (v : Nat) (f : Fn → Fn) : (s.modFn v f).fns = Tbl.insert s.fns v (f (s.fn v)) := rfl
@[simp] theorem State.modFn_dev (v : Nat) (f : Fn → Fn) : (s.modFn v f).dev = s.dev := rfl
@[simp] theorem State.modFn_fab (v : Nat) (f : Fn → Fn) : (s.modFn v f).fab = s.fab := rfl
@[simp] theorem State.modFn_mem (v : Nat) (f : Fn → Fn) : (s.modFn v f).mem = s.mem := rfl
@[simp] theorem State.modFn_host (v : Nat) (f : Fn → Fn) : (s.modFn v f).host = s.host := rfl
@[simp] theorem State.modFn_outbox (v : Nat) (f : Fn → Fn) : (s.modFn v f).outbox = s.outbox := rfl

/-! `State.modSub` -/

@[simp] theorem State.modSub_agenda (p : Nat × Nat) (f : SubCore → SubCore) : (s.modSub p f).agenda = s.agenda := rfl
@[simp] theorem State.modSub_self (p : Nat × Nat) (f : SubCore → SubCore) : (s.modSub p f).self = s.self := rfl
@[simp] theorem State.modSub_focus (p : Nat × Nat) (f : SubCore → SubCore) : (s.modSub p f).focus = s.focus := rfl
@[simp] theorem State.modSub_fresh (p : Nat × Nat) (f : SubCore → SubCore) : (s.modSub p f).fresh = s.fresh := rfl
@[simp] theorem State.modSub_uids (p : Nat × Nat) (f : SubCore → SubCore) : (s.modSub p f).uids = s.uids := rfl
@[simp] theorem State.modSub_teams (p : Nat × Nat) (f : SubCore → SubCore) : (s.modSub p f).teams = s.teams := rfl
@[simp] theorem State.modSub_crews (p : Nat × Nat) (f : SubCore → SubCore) : (s.modSub p f).crews = s.crews := rfl
@[simp] theorem State.modSub_launches (p : Nat × Nat) (f : SubCore → SubCore) : (s.modSub p f).launches = s.launches := rfl
@[simp] theorem State.modSub_images (p : Nat × Nat) (f : SubCore → SubCore) : (s.modSub p f).images = s.images := rfl
@[simp] theorem State.modSub_sets (p : Nat × Nat) (f : SubCore → SubCore) : (s.modSub p f).sets = s.sets := rfl
@[simp] theorem State.modSub_subs (p : Nat × Nat) (f : SubCore → SubCore) : (s.modSub p f).subs = Tbl.insert s.subs (subKey p) (f (s.sub p)) := rfl
@[simp] theorem State.modSub_cycles (p : Nat × Nat) (f : SubCore → SubCore) : (s.modSub p f).cycles = s.cycles := rfl
@[simp] theorem State.modSub_fns (p : Nat × Nat) (f : SubCore → SubCore) : (s.modSub p f).fns = s.fns := rfl
@[simp] theorem State.modSub_dev (p : Nat × Nat) (f : SubCore → SubCore) : (s.modSub p f).dev = s.dev := rfl
@[simp] theorem State.modSub_fab (p : Nat × Nat) (f : SubCore → SubCore) : (s.modSub p f).fab = s.fab := rfl
@[simp] theorem State.modSub_mem (p : Nat × Nat) (f : SubCore → SubCore) : (s.modSub p f).mem = s.mem := rfl
@[simp] theorem State.modSub_host (p : Nat × Nat) (f : SubCore → SubCore) : (s.modSub p f).host = s.host := rfl
@[simp] theorem State.modSub_outbox (p : Nat × Nat) (f : SubCore → SubCore) : (s.modSub p f).outbox = s.outbox := rfl

/-! `State.emit` -/

@[simp] theorem State.emit_agenda (m : OutMsg) : (s.emit m).agenda = s.agenda := rfl
@[simp] theorem State.emit_self (m : OutMsg) : (s.emit m).self = s.self := rfl
@[simp] theorem State.emit_focus (m : OutMsg) : (s.emit m).focus = s.focus := rfl
@[simp] theorem State.emit_fresh (m : OutMsg) : (s.emit m).fresh = s.fresh := rfl
@[simp] theorem State.emit_uids (m : OutMsg) : (s.emit m).uids = s.uids := rfl
@[simp] theorem State.emit_teams (m : OutMsg) : (s.emit m).teams = s.teams := rfl
@[simp] theorem State.emit_crews (m : OutMsg) : (s.emit m).crews = s.crews := rfl
@[simp] theorem State.emit_launches (m : OutMsg) : (s.emit m).launches = s.launches := rfl
@[simp] theorem State.emit_images (m : OutMsg) : (s.emit m).images = s.images := rfl
@[simp] theorem State.emit_sets (m : OutMsg) : (s.emit m).sets = s.sets := rfl
@[simp] theorem State.emit_subs (m : OutMsg) : (s.emit m).subs = s.subs := rfl
@[simp] theorem State.emit_cycles (m : OutMsg) : (s.emit m).cycles = s.cycles := rfl
@[simp] theorem State.emit_fns (m : OutMsg) : (s.emit m).fns = s.fns := rfl
@[simp] theorem State.emit_dev (m : OutMsg) : (s.emit m).dev = s.dev := rfl
@[simp] theorem State.emit_fab (m : OutMsg) : (s.emit m).fab = s.fab := rfl
@[simp] theorem State.emit_mem (m : OutMsg) : (s.emit m).mem = s.mem := rfl
@[simp] theorem State.emit_host (m : OutMsg) : (s.emit m).host = s.host := rfl
@[simp] theorem State.emit_outbox (m : OutMsg) : (s.emit m).outbox = s.outbox ++ [m] := rfl

/-! `State.later` -/

@[simp] theorem State.later_agenda (a : Act) : (s.later a).agenda = s.agenda ++ [a] := rfl
@[simp] theorem State.later_self (a : Act) : (s.later a).self = s.self := rfl
@[simp] theorem State.later_focus (a : Act) : (s.later a).focus = s.focus := rfl
@[simp] theorem State.later_fresh (a : Act) : (s.later a).fresh = s.fresh := rfl
@[simp] theorem State.later_uids (a : Act) : (s.later a).uids = s.uids := rfl
@[simp] theorem State.later_teams (a : Act) : (s.later a).teams = s.teams := rfl
@[simp] theorem State.later_crews (a : Act) : (s.later a).crews = s.crews := rfl
@[simp] theorem State.later_launches (a : Act) : (s.later a).launches = s.launches := rfl
@[simp] theorem State.later_images (a : Act) : (s.later a).images = s.images := rfl
@[simp] theorem State.later_sets (a : Act) : (s.later a).sets = s.sets := rfl
@[simp] theorem State.later_subs (a : Act) : (s.later a).subs = s.subs := rfl
@[simp] theorem State.later_cycles (a : Act) : (s.later a).cycles = s.cycles := rfl
@[simp] theorem State.later_fns (a : Act) : (s.later a).fns = s.fns := rfl
@[simp] theorem State.later_dev (a : Act) : (s.later a).dev = s.dev := rfl
@[simp] theorem State.later_fab (a : Act) : (s.later a).fab = s.fab := rfl
@[simp] theorem State.later_mem (a : Act) : (s.later a).mem = s.mem := rfl
@[simp] theorem State.later_host (a : Act) : (s.later a).host = s.host := rfl
@[simp] theorem State.later_outbox (a : Act) : (s.later a).outbox = s.outbox := rfl

/-! `State.modLink` -/

@[simp] theorem State.modLink_agenda (k : Nat) (f : Link → Link) : (s.modLink k f).agenda = s.agenda := rfl
@[simp] theorem State.modLink_self (k : Nat) (f : Link → Link) : (s.modLink k f).self = s.self := rfl
@[simp] theorem State.modLink_focus (k : Nat) (f : Link → Link) : (s.modLink k f).focus = s.focus := rfl
@[simp] theorem State.modLink_fresh (k : Nat) (f : Link → Link) : (s.modLink k f).fresh = s.fresh := rfl
@[simp] theorem State.modLink_uids (k : Nat) (f : Link → Link) : (s.modLink k f).uids = s.uids := rfl
@[simp] theorem State.modLink_teams (k : Nat) (f : Link → Link) : (s.modLink k f).teams = s.teams := rfl
@[simp] theorem State.modLink_crews (k : Nat) (f : Link → Link) : (s.modLink k f).crews = s.crews := rfl
@[simp] theorem State.modLink_launches (k : Nat) (f : Link → Link) : (s.modLink k f).launches = s.launches := rfl
@[simp] theorem State.modLink_images (k : Nat) (f : Link → Link) : (s.modLink k f).images = s.images := rfl
@[simp] theorem State.modLink_sets (k : Nat) (f : Link → Link) : (s.modLink k f).sets = s.sets := rfl
@[simp] theorem State.modLink_subs (k : Nat) (f : Link → Link) : (s.modLink k f).subs = s.subs := rfl
@[simp] theorem State.modLink_cycles (k : Nat) (f : Link → Link) : (s.modLink k f).cycles = s.cycles := rfl
@[simp] theorem State.modLink_fns (k : Nat) (f : Link → Link) : (s.modLink k f).fns = s.fns := rfl
@[simp] theorem State.modLink_dev (k : Nat) (f : Link → Link) : (s.modLink k f).dev = s.dev := rfl
@[simp] theorem State.modLink_fab (k : Nat) (f : Link → Link) : (s.modLink k f).fab = { s.fab with links := Tbl.insert s.fab.links k (f (s.link k)) } := rfl
@[simp] theorem State.modLink_mem (k : Nat) (f : Link → Link) : (s.modLink k f).mem = s.mem := rfl
@[simp] theorem State.modLink_host (k : Nat) (f : Link → Link) : (s.modLink k f).host = s.host := rfl
@[simp] theorem State.modLink_outbox (k : Nat) (f : Link → Link) : (s.modLink k f).outbox = s.outbox := rfl

/-! `State.modGroup` -/

@[simp] theorem State.modGroup_agenda (n : Nat) (f : Group → Group) : (s.modGroup n f).agenda = s.agenda := rfl
@[simp] theorem State.modGroup_self (n : Nat) (f : Group → Group) : (s.modGroup n f).self = s.self := rfl
@[simp] theorem State.modGroup_focus (n : Nat) (f : Group → Group) : (s.modGroup n f).focus = s.focus := rfl
@[simp] theorem State.modGroup_fresh (n : Nat) (f : Group → Group) : (s.modGroup n f).fresh = s.fresh := rfl
@[simp] theorem State.modGroup_uids (n : Nat) (f : Group → Group) : (s.modGroup n f).uids = s.uids := rfl
@[simp] theorem State.modGroup_teams (n : Nat) (f : Group → Group) : (s.modGroup n f).teams = s.teams := rfl
@[simp] theorem State.modGroup_crews (n : Nat) (f : Group → Group) : (s.modGroup n f).crews = s.crews := rfl
@[simp] theorem State.modGroup_launches (n : Nat) (f : Group → Group) : (s.modGroup n f).launches = s.launches := rfl
@[simp] theorem State.modGroup_images (n : Nat) (f : Group → Group) : (s.modGroup n f).images = s.images := rfl
@[simp] theorem State.modGroup_sets (n : Nat) (f : Group → Group) : (s.modGroup n f).sets = s.sets := rfl
@[simp] theorem State.modGroup_subs (n : Nat) (f : Group → Group) : (s.modGroup n f).subs = s.subs := rfl
@[simp] theorem State.modGroup_cycles (n : Nat) (f : Group → Group) : (s.modGroup n f).cycles = s.cycles := rfl
@[simp] theorem State.modGroup_fns (n : Nat) (f : Group → Group) : (s.modGroup n f).fns = s.fns := rfl
@[simp] theorem State.modGroup_dev (n : Nat) (f : Group → Group) : (s.modGroup n f).dev = s.dev := rfl
@[simp] theorem State.modGroup_fab (n : Nat) (f : Group → Group) : (s.modGroup n f).fab = { s.fab with groups := Tbl.modify s.fab.groups n f } := rfl
@[simp] theorem State.modGroup_mem (n : Nat) (f : Group → Group) : (s.modGroup n f).mem = s.mem := rfl
@[simp] theorem State.modGroup_host (n : Nat) (f : Group → Group) : (s.modGroup n f).host = s.host := rfl
@[simp] theorem State.modGroup_outbox (n : Nat) (f : Group → Group) : (s.modGroup n f).outbox = s.outbox := rfl

/-! `State.modStream` -/

@[simp] theorem State.modStream_agenda (v n : Nat) (f : TxStream → TxStream) : (s.modStream v n f).agenda = s.agenda := rfl
@[simp] theorem State.modStream_self (v n : Nat) (f : TxStream → TxStream) : (s.modStream v n f).self = s.self := rfl
@[simp] theorem State.modStream_focus (v n : Nat) (f : TxStream → TxStream) : (s.modStream v n f).focus = s.focus := rfl
@[simp] theorem State.modStream_fresh (v n : Nat) (f : TxStream → TxStream) : (s.modStream v n f).fresh = s.fresh := rfl
@[simp] theorem State.modStream_uids (v n : Nat) (f : TxStream → TxStream) : (s.modStream v n f).uids = s.uids := rfl
@[simp] theorem State.modStream_teams (v n : Nat) (f : TxStream → TxStream) : (s.modStream v n f).teams = s.teams := rfl
@[simp] theorem State.modStream_crews (v n : Nat) (f : TxStream → TxStream) : (s.modStream v n f).crews = s.crews := rfl
@[simp] theorem State.modStream_launches (v n : Nat) (f : TxStream → TxStream) : (s.modStream v n f).launches = s.launches := rfl
@[simp] theorem State.modStream_images (v n : Nat) (f : TxStream → TxStream) : (s.modStream v n f).images = s.images := rfl
@[simp] theorem State.modStream_sets (v n : Nat) (f : TxStream → TxStream) : (s.modStream v n f).sets = s.sets := rfl
@[simp] theorem State.modStream_subs (v n : Nat) (f : TxStream → TxStream) : (s.modStream v n f).subs = s.subs := rfl
@[simp] theorem State.modStream_cycles (v n : Nat) (f : TxStream → TxStream) : (s.modStream v n f).cycles = s.cycles := rfl
@[simp] theorem State.modStream_fns (v n : Nat) (f : TxStream → TxStream) : (s.modStream v n f).fns = s.fns := rfl
@[simp] theorem State.modStream_dev (v n : Nat) (f : TxStream → TxStream) : (s.modStream v n f).dev = s.dev := rfl
@[simp] theorem State.modStream_fab (v n : Nat) (f : TxStream →
  TxStream) : (s.modStream v n f).fab = { s.fab with streams := Tbl.insert s.fab.streams (v * 1024 + n) (f (s.stream v n)) } := rfl
@[simp] theorem State.modStream_mem (v n : Nat) (f : TxStream → TxStream) : (s.modStream v n f).mem = s.mem := rfl
@[simp] theorem State.modStream_host (v n : Nat) (f : TxStream → TxStream) : (s.modStream v n f).host = s.host := rfl
@[simp] theorem State.modStream_outbox (v n : Nat) (f : TxStream → TxStream) : (s.modStream v n f).outbox = s.outbox := rfl

/-! `State.hitLine` -/

@[simp] theorem State.hitLine_agenda (x : Option (Nat × Nat)) : (s.hitLine x).agenda = s.agenda := rfl
@[simp] theorem State.hitLine_self (x : Option (Nat × Nat)) : (s.hitLine x).self = s.self := rfl
@[simp] theorem State.hitLine_focus (x : Option (Nat × Nat)) : (s.hitLine x).focus = s.focus := rfl
@[simp] theorem State.hitLine_fresh (x : Option (Nat × Nat)) : (s.hitLine x).fresh = s.fresh := rfl
@[simp] theorem State.hitLine_uids (x : Option (Nat × Nat)) : (s.hitLine x).uids = s.uids := rfl
@[simp] theorem State.hitLine_crews (x : Option (Nat × Nat)) : (s.hitLine x).crews = s.crews := rfl
@[simp] theorem State.hitLine_launches (x : Option (Nat × Nat)) : (s.hitLine x).launches = s.launches := rfl
@[simp] theorem State.hitLine_images (x : Option (Nat × Nat)) : (s.hitLine x).images = s.images := rfl
@[simp] theorem State.hitLine_sets (x : Option (Nat × Nat)) : (s.hitLine x).sets = s.sets := rfl
@[simp] theorem State.hitLine_subs (x : Option (Nat × Nat)) : (s.hitLine x).subs = s.subs := rfl
@[simp] theorem State.hitLine_cycles (x : Option (Nat × Nat)) : (s.hitLine x).cycles = s.cycles := rfl
@[simp] theorem State.hitLine_fns (x : Option (Nat × Nat)) : (s.hitLine x).fns = s.fns := rfl
@[simp] theorem State.hitLine_dev (x : Option (Nat × Nat)) : (s.hitLine x).dev = s.dev := rfl
@[simp] theorem State.hitLine_fab (x : Option (Nat × Nat)) : (s.hitLine x).fab = s.fab := rfl
@[simp] theorem State.hitLine_mem (x : Option (Nat × Nat)) : (s.hitLine x).mem = s.mem := rfl
@[simp] theorem State.hitLine_host (x : Option (Nat × Nat)) : (s.hitLine x).host = s.host := rfl
@[simp] theorem State.hitLine_outbox (x : Option (Nat × Nat)) : (s.hitLine x).outbox = s.outbox := rfl

/-! `State.putSlice` -/

@[simp] theorem State.putSlice_agenda (b : Nat) (x : Slice) : (s.putSlice b x).agenda = s.agenda := rfl
@[simp] theorem State.putSlice_self (b : Nat) (x : Slice) : (s.putSlice b x).self = s.self := rfl
@[simp] theorem State.putSlice_focus (b : Nat) (x : Slice) : (s.putSlice b x).focus = s.focus := rfl
@[simp] theorem State.putSlice_fresh (b : Nat) (x : Slice) : (s.putSlice b x).fresh = s.fresh := rfl
@[simp] theorem State.putSlice_uids (b : Nat) (x : Slice) : (s.putSlice b x).uids = s.uids := rfl
@[simp] theorem State.putSlice_teams (b : Nat) (x : Slice) : (s.putSlice b x).teams = s.teams := rfl
@[simp] theorem State.putSlice_crews (b : Nat) (x : Slice) : (s.putSlice b x).crews = s.crews := rfl
@[simp] theorem State.putSlice_launches (b : Nat) (x : Slice) : (s.putSlice b x).launches = s.launches := rfl
@[simp] theorem State.putSlice_images (b : Nat) (x : Slice) : (s.putSlice b x).images = s.images := rfl
@[simp] theorem State.putSlice_sets (b : Nat) (x : Slice) : (s.putSlice b x).sets = s.sets := rfl
@[simp] theorem State.putSlice_subs (b : Nat) (x : Slice) : (s.putSlice b x).subs = s.subs := rfl
@[simp] theorem State.putSlice_cycles (b : Nat) (x : Slice) : (s.putSlice b x).cycles = s.cycles := rfl
@[simp] theorem State.putSlice_fns (b : Nat) (x : Slice) : (s.putSlice b x).fns = s.fns := rfl
@[simp] theorem State.putSlice_dev (b : Nat) (x : Slice) : (s.putSlice b x).dev = { s.dev with slices := Tbl.insert s.dev.slices b x } := rfl
@[simp] theorem State.putSlice_fab (b : Nat) (x : Slice) : (s.putSlice b x).fab = s.fab := rfl
@[simp] theorem State.putSlice_mem (b : Nat) (x : Slice) : (s.putSlice b x).mem = s.mem := rfl
@[simp] theorem State.putSlice_host (b : Nat) (x : Slice) : (s.putSlice b x).host = s.host := rfl
@[simp] theorem State.putSlice_outbox (b : Nat) (x : Slice) : (s.putSlice b x).outbox = s.outbox := rfl

/-! `State.endFetch` -/

@[simp] theorem State.endFetch_agenda (k : Nat) : (s.endFetch k).agenda = s.agenda := rfl
@[simp] theorem State.endFetch_self (k : Nat) : (s.endFetch k).self = s.self := rfl
@[simp] theorem State.endFetch_focus (k : Nat) : (s.endFetch k).focus = s.focus := rfl
@[simp] theorem State.endFetch_fresh (k : Nat) : (s.endFetch k).fresh = s.fresh := rfl
@[simp] theorem State.endFetch_uids (k : Nat) : (s.endFetch k).uids = s.uids := rfl
@[simp] theorem State.endFetch_teams (k : Nat) : (s.endFetch k).teams = s.teams := rfl
@[simp] theorem State.endFetch_crews (k : Nat) : (s.endFetch k).crews = s.crews := rfl
@[simp] theorem State.endFetch_launches (k : Nat) : (s.endFetch k).launches = s.launches := rfl
@[simp] theorem State.endFetch_images (k : Nat) : (s.endFetch k).images = s.images := rfl
@[simp] theorem State.endFetch_sets (k : Nat) : (s.endFetch k).sets = Tbl.modify s.sets k fun x => { x with fetching := none } := rfl
@[simp] theorem State.endFetch_subs (k : Nat) : (s.endFetch k).subs = s.subs := rfl
@[simp] theorem State.endFetch_cycles (k : Nat) : (s.endFetch k).cycles = s.cycles := rfl
@[simp] theorem State.endFetch_fns (k : Nat) : (s.endFetch k).fns = s.fns := rfl
@[simp] theorem State.endFetch_dev (k : Nat) : (s.endFetch k).dev = s.dev := rfl
@[simp] theorem State.endFetch_fab (k : Nat) : (s.endFetch k).fab = s.fab := rfl
@[simp] theorem State.endFetch_mem (k : Nat) : (s.endFetch k).mem = s.mem := rfl
@[simp] theorem State.endFetch_host (k : Nat) : (s.endFetch k).host = s.host := rfl
@[simp] theorem State.endFetch_outbox (k : Nat) : (s.endFetch k).outbox = s.outbox := rfl

/-! `State.retireColumn` -/

@[simp] theorem State.retireColumn_agenda (n : Nat) : (s.retireColumn n).agenda = s.agenda := rfl
@[simp] theorem State.retireColumn_self (n : Nat) : (s.retireColumn n).self = s.self := rfl
@[simp] theorem State.retireColumn_focus (n : Nat) : (s.retireColumn n).focus = s.focus := rfl
@[simp] theorem State.retireColumn_fresh (n : Nat) : (s.retireColumn n).fresh = s.fresh := rfl
@[simp] theorem State.retireColumn_uids (n : Nat) : (s.retireColumn n).uids = s.uids := rfl
@[simp] theorem State.retireColumn_teams (n : Nat) : (s.retireColumn n).teams = s.teams := rfl
@[simp] theorem State.retireColumn_crews (n : Nat) : (s.retireColumn n).crews = s.crews := rfl
@[simp] theorem State.retireColumn_launches (n : Nat) : (s.retireColumn n).launches = s.launches := rfl
@[simp] theorem State.retireColumn_images (n : Nat) : (s.retireColumn n).images = s.images := rfl
@[simp] theorem State.retireColumn_sets (n : Nat) : (s.retireColumn n).sets = s.sets := rfl
@[simp] theorem State.retireColumn_subs (n : Nat) : (s.retireColumn n).subs = s.subs := rfl
@[simp] theorem State.retireColumn_cycles (n : Nat) : (s.retireColumn n).cycles = s.cycles := rfl
@[simp] theorem State.retireColumn_fns (n : Nat) : (s.retireColumn n).fns = s.fns := rfl
@[simp] theorem State.retireColumn_dev (n : Nat) : (s.retireColumn n).dev = { s.dev with retiredCols := Tbl.set s.dev.retiredCols false n true } := rfl
@[simp] theorem State.retireColumn_fab (n : Nat) : (s.retireColumn n).fab = s.fab := rfl
@[simp] theorem State.retireColumn_mem (n : Nat) : (s.retireColumn n).mem = s.mem := rfl
@[simp] theorem State.retireColumn_host (n : Nat) : (s.retireColumn n).host = s.host := rfl
@[simp] theorem State.retireColumn_outbox (n : Nat) : (s.retireColumn n).outbox = s.outbox := rfl

variable (t : Team)

/-! `Team.goto` and `Team.advance` -/

@[simp] theorem Team.goto_crew (a : Nat) : (t.goto a).crew = t.crew := rfl
@[simp] theorem Team.advance_crew : t.advance.crew = t.crew := rfl
@[simp] theorem Team.goto_index (a : Nat) : (t.goto a).index = t.index := rfl
@[simp] theorem Team.advance_index : t.advance.index = t.index := rfl
@[simp] theorem Team.goto_nlane (a : Nat) : (t.goto a).nlane = t.nlane := rfl
@[simp] theorem Team.advance_nlane : t.advance.nlane = t.nlane := rfl
@[simp] theorem Team.goto_status (a : Nat) : (t.goto a).status = t.status := rfl
@[simp] theorem Team.advance_status : t.advance.status = t.status := rfl
@[simp] theorem Team.goto_regs (a : Nat) : (t.goto a).regs = t.regs := rfl
@[simp] theorem Team.advance_regs : t.advance.regs = t.regs := rfl
@[simp] theorem Team.goto_ctl (a : Nat) :
    (t.goto a).ctl = { t.ctl with pc := a, skip := 0, arrived := false, under := none, breaks := [], exempt := none } := rfl
@[simp] theorem Team.advance_ctl :
    t.advance.ctl =
      { t.ctl with pc := t.ctl.pc + 4, skip := 0, arrived := false, under := none, breaks := [], exempt := none } := rfl
@[simp] theorem Team.goto_trap (a : Nat) : (t.goto a).trap = t.trap := rfl
@[simp] theorem Team.advance_trap : t.advance.trap = t.trap := rfl
@[simp] theorem Team.goto_eng (a : Nat) : (t.goto a).eng = t.eng := rfl
@[simp] theorem Team.advance_eng : t.advance.eng = t.eng := rfl
@[simp] theorem Team.goto_link (a : Nat) : (t.goto a).link = t.link := rfl
@[simp] theorem Team.advance_link : t.advance.link = t.link := rfl

/-! `Team.takeAnswer` -/

@[simp] theorem Team.takeAnswer_crew (l : Nat) : (t.takeAnswer l).crew = t.crew := rfl
@[simp] theorem Team.takeAnswer_index (l : Nat) : (t.takeAnswer l).index = t.index := rfl
@[simp] theorem Team.takeAnswer_nlane (l : Nat) : (t.takeAnswer l).nlane = t.nlane := rfl
@[simp] theorem Team.takeAnswer_status (l : Nat) : (t.takeAnswer l).status = t.status := rfl
@[simp] theorem Team.takeAnswer_regs (l : Nat) : (t.takeAnswer l).regs = t.regs := rfl
@[simp] theorem Team.takeAnswer_ctl (l : Nat) : (t.takeAnswer l).ctl = t.ctl := rfl
@[simp] theorem Team.takeAnswer_trap (l : Nat) : (t.takeAnswer l).trap = t.trap := rfl
@[simp] theorem Team.takeAnswer_eng (l : Nat) : (t.takeAnswer l).eng = t.eng := rfl
@[simp] theorem Team.takeAnswer_link (l : Nat) : (t.takeAnswer l).link = { t.link with answers := Tbl.erase t.link.answers l } := rfl

/-! `Team.joinBatch` -/

@[simp] theorem Team.joinBatch_crew (o : CopyOp) : (t.joinBatch o).crew = t.crew := rfl
@[simp] theorem Team.joinBatch_index (o : CopyOp) : (t.joinBatch o).index = t.index := rfl
@[simp] theorem Team.joinBatch_nlane (o : CopyOp) : (t.joinBatch o).nlane = t.nlane := rfl
@[simp] theorem Team.joinBatch_status (o : CopyOp) : (t.joinBatch o).status = t.status := rfl
@[simp] theorem Team.joinBatch_regs (o : CopyOp) : (t.joinBatch o).regs = t.regs := rfl
@[simp] theorem Team.joinBatch_ctl (o : CopyOp) : (t.joinBatch o).ctl = t.ctl := rfl
@[simp] theorem Team.joinBatch_trap (o : CopyOp) : (t.joinBatch o).trap = t.trap := rfl
@[simp] theorem Team.joinBatch_eng (o : CopyOp) : (t.joinBatch o).eng = { t.eng with open_ := t.eng.open_ ++ [o] } := rfl
@[simp] theorem Team.joinBatch_link (o : CopyOp) : (t.joinBatch o).link = t.link := rfl

/-! `Team.settleFabric` -/

@[simp] theorem Team.settleFabric_crew : (t.settleFabric).crew = t.crew := rfl
@[simp] theorem Team.settleFabric_index : (t.settleFabric).index = t.index := rfl
@[simp] theorem Team.settleFabric_nlane : (t.settleFabric).nlane = t.nlane := rfl
@[simp] theorem Team.settleFabric_status : (t.settleFabric).status = t.status := rfl
@[simp] theorem Team.settleFabric_regs : (t.settleFabric).regs = t.regs := rfl
@[simp] theorem Team.settleFabric_ctl : (t.settleFabric).ctl = t.ctl := rfl
@[simp] theorem Team.settleFabric_trap : (t.settleFabric).trap = t.trap := rfl
@[simp] theorem Team.settleFabric_eng : (t.settleFabric).eng = { t.eng with fabric := t.eng.fabric.dropWhile fun o => o.pending == 0 } := rfl
@[simp] theorem Team.settleFabric_link : (t.settleFabric).link = t.link := rfl

/-! Reading what has been written. -/

@[simp] theorem State.find?_putTeam (uid : Nat) : Tbl.find? (s.putTeam uid t).teams uid = some t := Tbl.find?_insert_self _ _ _

@[simp] theorem State.fn_putTeam (uid v : Nat) : (s.putTeam uid t).fn v = s.fn v := rfl
@[simp] theorem State.fn_modTeam (uid v : Nat) (f : Team → Team) : (s.modTeam uid f).fn v = s.fn v := rfl
@[simp] theorem State.sub_putTeam (uid : Nat) (p : Nat × Nat) : (s.putTeam uid t).sub p = s.sub p := rfl
@[simp] theorem State.sub_modTeam (uid : Nat) (p : Nat × Nat) (f : Team → Team) : (s.modTeam uid f).sub p = s.sub p := rfl
@[simp] theorem State.node_putTeam (uid : Nat) : (s.putTeam uid t).node = s.node := rfl
@[simp] theorem State.node_modTeam (uid : Nat) (f : Team → Team) : (s.modTeam uid f).node = s.node := rfl
@[simp] theorem State.stage2_putTeam (uid v a : Nat) : (s.putTeam uid t).stage2 v a = s.stage2 v a := rfl
@[simp] theorem State.stage2_modTeam (uid v a : Nat) (f : Team → Team) : (s.modTeam uid f).stage2 v a = s.stage2 v a := rfl
@[simp] theorem State.byteAt_putTeam (uid : Nat) (p : Place) : (s.putTeam uid t).byteAt p = s.byteAt p := by cases p <;> rfl
@[simp] theorem State.byteAt_modTeam (uid : Nat) (p : Place) (f : Team → Team) : (s.modTeam uid f).byteAt p = s.byteAt p := by
  cases p <;> rfl
@[simp] theorem State.byteAt_hitLine (x : Option (Nat × Nat)) (p : Place) : (s.hitLine x).byteAt p = s.byteAt p := by
  cases p <;> rfl

theorem State.fn_modFn (v w : Nat) (f : Fn → Fn) : (s.modFn v f).fn w = if w = v then f (s.fn v) else s.fn w := by
  unfold State.fn State.modFn
  simp only [Tbl.get_insert]
  split <;> simp_all [State.fn]

theorem State.link_modLink (k j : Nat) (f : Link → Link) : (s.modLink k f).link j = if j = k then f (s.link k) else s.link j :=
  Tbl.get_insert _ _ _ _ _

theorem State.find?_modTeam (uid u : Nat) (f : Team → Team) :
    Tbl.find? (s.modTeam uid f).teams u = if u = uid then (Tbl.find? s.teams uid).map f else Tbl.find? s.teams u :=
  Tbl.find?_modify _ _ _ _

theorem State.find?_modCrew (c d : Nat) (f : Crew → Crew) :
    Tbl.find? (s.modCrew c f).crews d = if d = c then (Tbl.find? s.crews c).map f else Tbl.find? s.crews d :=
  Tbl.find?_modify _ _ _ _

end Sys2Proof.Machine
end

