-- ==== Sys2Proof/Laws/Memory.lean ====
section
/-! SUPPORT. Memory: every operation keeps the canonical form, and reading after writing. -/

namespace Sys2Proof.Machine

/-! Reading after writing -/

theorem peek_poke (m : List Host.Cell) (a c : Nat) (b : Byte) : peek (poke m a b) c = if c = a then b else peek m c :=
  Tbl.get_set _ _ _ _ _

theorem peek_pokes (l : List Byte) (m : List Host.Cell) (a c : Nat) :
    peek (pokes m a l) c = if a ≤ c ∧ c < a + l.length then l.getD (c - a) 0 else peek m c := by
  induction l generalizing m a with
  | nil => simp [pokes]
  | cons b l ih =>
    simp only [pokes, ih, peek_poke, List.length_cons]
    by_cases h : c = a
    · subst h; simp
    · by_cases h2 : a + 1 ≤ c ∧ c < a + 1 + l.length
      · rw [if_pos h2, if_pos (by omega)]
        obtain ⟨k, hk⟩ : ∃ k, c - a = k + 1 := ⟨c - a - 1, by omega⟩
        rw [hk, show c - (a + 1) = k by omega]
        simp
      · rw [if_neg h2, if_neg h, if_neg (by omega)]

theorem peeks_pokes (m : List Host.Cell) (a : Nat) (l : List Byte) : peeks (pokes m a l) a l.length = l := by
  refine List.ext_getElem (by simp [peeks]) fun i h h' => ?_
  simp [peeks, peek_pokes, h']

theorem leNat_leBytes (n x : Nat) : leNat (leBytes n x) = x % 256 ^ n := by
  induction n generalizing x with
  | zero => simp [leBytes, leNat, Nat.mod_one]
  | succ n ih =>
    simp only [leBytes, leNat, ih, BitVec.toNat_ofNat]
    rw [Nat.pow_succ 256 n, Nat.mul_comm (256 ^ n) 256, Nat.mod_mul]

theorem leBytes_length (n x : Nat) : (leBytes n x).length = n := by
  induction n generalizing x with
  | zero => rfl
  | succ n ih => simp [leBytes, ih]

/-! The canonical form -/

theorem wf_poke {m : List Host.Cell} (a : Nat) (b : Byte) (h : Memory.wf m = true) : Memory.wf (poke m a b) = true :=
  Tbl.wf_set _ _ h

theorem wf_pokes {m : List Host.Cell} (a : Nat) (l : List Byte) (h : Memory.wf m = true) : Memory.wf (pokes m a l) = true := by
  induction l generalizing m a with
  | nil => exact h
  | cons b l ih => exact ih _ (wf_poke a b h)

theorem wf_filter {m : List Host.Cell} (p : Nat → Bool) (h : Memory.wf m = true) :
    Memory.wf (m.filter fun c => p c.1) = true := by
  unfold Memory.wf Tbl.wf at h ⊢
  rw [Bool.and_eq_true] at h ⊢
  refine ⟨?_, List.all_eq_true.2 fun e he => List.all_eq_true.1 h.2 e (List.mem_filter.1 he).1⟩
  have key : ∀ (m : List Host.Cell) (i : Nat), Tbl.sortedFrom i m = true → Tbl.sortedFrom i (m.filter fun c => p c.1) = true := by
    intro m
    induction m with
    | nil => intro i _; rfl
    | cons e m ih =>
      intro i hs
      simp only [Tbl.sortedFrom, Bool.and_eq_true, decide_eq_true_eq] at hs
      rw [List.filter_cons]
      split
      · simp only [Tbl.sortedFrom, Bool.and_eq_true, decide_eq_true_eq]
        exact ⟨hs.1, ih _ hs.2⟩
      · exact Tbl.sortedFrom_mono (by omega) (ih _ hs.2)
  exact key m 0 h.1

/-- What `State.memOk` says of the whole state. -/
theorem memOk_iff (s : State) : s.memOk = true ↔
    Memory.wf s.mem = true ∧ Memory.wf s.host = true ∧ (∀ e ∈ s.crews, e.2.memOk = true) ∧
      ∀ e ∈ s.dev.safe, Memory.wf e.2.mem = true ∧ ∀ c ∈ e.2.crews, c.2.memOk = true := by
  simp only [State.memOk, Bool.and_eq_true, List.all_eq_true, and_assoc]

/-- A step that leaves memory, crews and checkpoints as they are keeps the canonical form. -/
theorem memOk_congr {s s' : State} (hm : s'.mem = s.mem) (hh : s'.host = s.host) (hc : s'.crews = s.crews)
    (hs : s'.dev.safe = s.dev.safe) : s'.memOk = s.memOk := by
  simp only [State.memOk, hm, hh, hc, hs]

/-- A changed crew whose storage stays canonical keeps the canonical form. -/
theorem memOk_modCrew {s : State} (c : Nat) (f : Crew → Crew) (hf : ∀ x : Crew, x.memOk = true → (f x).memOk = true)
    (h : s.memOk = true) : (s.modCrew c f).memOk = true := by
  rw [memOk_iff] at h ⊢
  refine ⟨h.1, h.2.1, ?_, h.2.2.2⟩
  rw [State.modCrew_crews]
  unfold Tbl.modify
  split
  · rename_i a ha
    have mem : ∀ (t : Tbl Crew), Tbl.find? t c = some a → ∃ e ∈ t, e.2 = a := by
      intro t
      induction t with
      | nil => intro h; simp [Tbl.find?] at h
      | cons e t ih =>
        obtain ⟨k, v⟩ := e
        intro h
        simp only [Tbl.find?] at h
        split at h
        · simp only [Option.some.injEq] at h
          exact ⟨(k, v), by simp, h⟩
        · obtain ⟨e, he, hv⟩ := ih h
          exact ⟨e, by simp [he], hv⟩
    obtain ⟨e, he, hv⟩ := mem _ ha
    have ok : (f a).memOk = true := hf a (hv ▸ h.2.2.1 e he)
    have := Tbl.all_insert (t := s.crews) (p := Crew.memOk) (n := c) ok (List.all_eq_true.2 h.2.2.1)
    exact List.all_eq_true.1 this
  · exact h.2.2.1

theorem memOk_putByte {s : State} (p : Place) (b : Byte) (h : s.memOk = true) : (s.putByte p b).memOk = true := by
  have hh := (memOk_iff s).1 h
  cases p with
  | scratch c o =>
    refine memOk_modCrew c _ (fun x hx => ?_) h
    simp only [Crew.memOk, Bool.and_eq_true] at hx ⊢
    exact ⟨wf_poke _ _ hx.1, hx.2⟩
  | window c o =>
    refine memOk_modCrew c _ (fun x hx => ?_) h
    simp only [Crew.memOk, Bool.and_eq_true] at hx ⊢
    exact ⟨hx.1, wf_poke _ _ hx.2⟩
  | gpa f a =>
    simp only [State.putByte]
    split
    · exact (memOk_iff _).2 ⟨wf_poke _ _ hh.1, hh.2⟩
    · exact h
  | host a => exact (memOk_iff _).2 ⟨hh.1, wf_poke _ _ hh.2.1, hh.2.2⟩
  | fabric n r => exact h

theorem memOk_putBytes {s : State} (p : Place) (l : List Byte) (h : s.memOk = true) : (s.putBytes p l).memOk = true := by
  induction l generalizing s p with
  | nil => exact h
  | cons b l ih => exact ih _ (memOk_putByte p b h)

theorem memOk_hitLine (s : State) (x : Option (Nat × Nat)) : (s.hitLine x).memOk = s.memOk := memOk_congr rfl rfl rfl rfl

/-- Every agent's write keeps the canonical form. -/
theorem memOk_writeBytes {s : State} (p : Place) (l : List Byte) (h : s.memOk = true) : (s.writeBytes p l).memOk = true := by
  unfold State.writeBytes
  split <;> simp only [memOk_hitLine] <;> exact memOk_putBytes p l h

theorem memOk_writeNat {s : State} (p : Place) (n x : Nat) (h : s.memOk = true) : (s.writeNat p n x).memOk = true :=
  memOk_writeBytes p _ h

theorem memOk_putTeam (s : State) (uid : Nat) (t : Team) : (s.putTeam uid t).memOk = s.memOk := memOk_congr rfl rfl rfl rfl
theorem memOk_modTeam (s : State) (uid : Nat) (f : Team → Team) : (s.modTeam uid f).memOk = s.memOk := memOk_congr rfl rfl rfl rfl

theorem memOk_setMark {s : State} (p : Place) (b : Bool) (h : s.memOk = true) : (s.setMark p b).memOk = true := by
  cases p with
  | scratch c o => exact memOk_modCrew c _ (fun x hx => hx) h
  | window c o => exact memOk_modCrew c _ (fun x hx => hx) h
  | gpa f a =>
    simp only [State.setMark]
    split
    · split
      · exact h
      · exact (memOk_congr rfl rfl rfl rfl).trans h
    · exact h
  | host a => exact h
  | fabric n r => exact h

end Sys2Proof.Machine
end

