-- ==== Sys2Proof/Laws/Regs.lean ====
section
/-! SUPPORT. A team's registers: what a write of one register leaves of it and of the others. -/

namespace Sys2Proof.Machine

theorem laneKey_inj {n n' l l' : Nat} (h : l < 1024) (h' : l' < 1024) : laneKey n l = laneKey n' l' ↔ n = n' ∧ l = l' := by
  unfold laneKey
  omega

/-- A fold of guarded writes under distinct keys: the key of a lane in the list with a set bit reads its value. -/
theorem foldl_setLanes_get {α : Type} [DecidableEq α] (d : α) (n : Nat) (m : Mask) (f : Nat → α) (ls : List Nat) (t : Tbl α)
    (n' l' : Nat) (hl' : l' < 1024) :
    Tbl.get (ls.foldl (fun t l => if Mask.has m l then Tbl.set t d (laneKey n l) (f l) else t) t) d (laneKey n' l') =
      if n' = n ∧ l' ∈ ls ∧ Mask.has m l' then f l' else Tbl.get t d (laneKey n' l') := by
  induction ls generalizing t with
  | nil => simp
  | cons l ls ih =>
    rw [List.foldl_cons, ih]
    by_cases hm : Mask.has m l = true
    · have hl : l < 1024 := by
        by_contra hc
        have : Mask.has m l = false := BitVec.getLsbD_of_ge m l (by omega)
        simp [this] at hm
      rw [if_pos hm, Tbl.get_set]
      simp only [laneKey_inj hl' hl]
      by_cases hn : n' = n
      · by_cases hl2 : l' = l
        · subst hl2
          simp [hn, hm]
        · simp [hn, hl2]
      · simp [hn]
    · rw [if_neg hm]
      by_cases hl2 : l' = l
      · subst hl2
        simp [hm]
      · simp [hl2]

/-- Reading a per-lane register after a lane write. -/
theorem setLanes_get {α : Type} [DecidableEq α] (t : Tbl α) (d : α) (n nl : Nat) (m : Mask) (f : Nat → α) (n' l' : Nat)
    (hl' : l' < 1024) :
    Tbl.get (setLanes t d n nl m f) d (laneKey n' l') =
      if n' = n ∧ l' < nl ∧ Mask.has m l' then f l' else Tbl.get t d (laneKey n' l') := by
  unfold setLanes lanesBelow
  rw [foldl_setLanes_get d n m f _ t n' l' hl']
  simp [List.mem_range]

theorem setV_v (r : Regs) (n nl : Nat) (m : Mask) (f : Nat → Word) (n' l' : Nat) (h : l' < 1024) :
    (r.setV n nl m f).v n' l' = if n' = n ∧ l' < nl ∧ Mask.has m l' then f l' else r.v n' l' :=
  setLanes_get r.vt 0 n nl m f n' l' h

theorem setW_w (r : Regs) (n nl : Nat) (m : Mask) (f : Nat → Word64) (n' l' : Nat) (h : l' < 1024) :
    (r.setW n nl m f).w n' l' = if n' = n ∧ l' < nl ∧ Mask.has m l' then f l' else r.w n' l' :=
  setLanes_get r.wt 0 n nl m f n' l' h

theorem setS_s (r : Regs) (n : Nat) (a : Word) (n' : Nat) : (r.setS n a).s n' = if n' = n then a else r.s n' :=
  Tbl.get_set r.st 0 n n' a

theorem setX_x (r : Regs) (n : Nat) (a : Word64) (n' : Nat) : (r.setX n a).x n' = if n' = n then a else r.x n' :=
  Tbl.get_set r.xt 0 n n' a

/-- A mask built lane by lane. -/
theorem foldl_maskOf_has (f : Nat → Bool) (ls : List Nat) (m : Mask) (l : Nat) (hl : l < 1024) :
    Mask.has (ls.foldl (fun m l => if f l then m ||| (1#1024 <<< l) else m) m) l = (Mask.has m l || (decide (l ∈ ls) && f l)) := by
  induction ls generalizing m with
  | nil => simp
  | cons k ls ih =>
    rw [List.foldl_cons, ih]
    by_cases hk : l = k
    · subst hk
      cases hf : f l <;> simp [Mask.has, hl]
    · have : decide (l < k) = true ∨ ¬ l - k = 0 := by
        rcases Nat.lt_or_ge l k with h | h
        · left; simpa using h
        · right; omega
      cases hf : f k
      · simp [hk]
      · rcases this with h | h <;>
          simp [Mask.has, hl, hk, h]

theorem maskOf_has (nl : Nat) (f : Nat → Bool) (l : Nat) (hl : l < 1024) : Mask.has (maskOf nl f) l = (decide (l < nl) && f l) := by
  unfold maskOf lanesBelow
  rw [foldl_maskOf_has f _ 0 l hl]
  simp [Mask.has, List.mem_range]

/-- Reading a predicate register after a lane write of one that is not hard-wired. -/
theorem setP_has (r : Regs) (n nl : Nat) (m : Mask) (f : Nat → Bool) (n' l : Nat) (hl : l < 1024) :
    Mask.has ((r.setP n nl m f).p n') l =
      if n ≠ 0 ∧ n' = n ∧ Mask.has m l then (decide (l < nl) && f l) else Mask.has (r.p n') l := by
  unfold Regs.setP
  by_cases h0 : n = 0
  · simp [h0]
  · rw [if_neg h0]
    by_cases h1 : n' = n
    · subst h1
      have : Mask.has (maskOf nl f) l = (decide (l < nl) && f l) := maskOf_has nl f l hl
      simp only [Mask.has] at this ⊢
      simp only [Regs.p, h0, if_false, Tbl.get_set, if_true, BitVec.getLsbD_or, BitVec.getLsbD_and, BitVec.getLsbD_not, hl,
        decide_true, Bool.true_and, this, true_and, ne_eq, not_false_eq_true]
      cases BitVec.getLsbD m l <;> simp
    · simp [Regs.p, Tbl.get_set, h1]

theorem q_zero (r : Regs) : r.q 0 = true := by simp [Regs.q]

theorem setQ_q (r : Regs) (n : Nat) (b : Bool) (n' : Nat) (h : n < 8) :
    (r.setQ n b).q n' = if n ≠ 0 ∧ n' = n then b else r.q n' := by
  unfold Regs.setQ
  by_cases h0 : n = 0
  · simp [h0]
  · rw [if_neg h0]
    by_cases h1 : n' = n
    · subst h1
      cases b <;> simp [Regs.q, h, h0]
    · have hs : (1#8 <<< n).getLsbD n' = false := by
        simp only [BitVec.getLsbD_shiftLeft]
        rcases Nat.lt_or_ge n' n with h' | h'
        · simp [h']
        · have : ¬ n' - n = 0 := by omega
          simp [this]
      have h8 : ∀ x : Byte, x.getLsbD n' = (x.getLsbD n' && decide (n' < 8)) := by
        intro x
        by_cases h' : n' < 8
        · simp [h']
        · simp [BitVec.getLsbD_of_ge x n' (by omega)]
      cases b
      · simp only [Regs.q, BitVec.getLsbD_or, BitVec.getLsbD_and, BitVec.getLsbD_not, hs, h1, and_false, if_false]
        rw [h8 r.qs]
        by_cases h' : n' < 8 <;> simp [h']
      · simp only [Regs.q, BitVec.getLsbD_or, BitVec.getLsbD_and, BitVec.getLsbD_not, hs, h1, and_false, if_false, if_true]
        rw [h8 r.qs]
        by_cases h' : n' < 8 <;> simp [h']

/-- The flags that a fold of guarded lanes raises: a bit is set when some lane of the mask raises it. -/
theorem lanesFlags_getLsbD (nl : Nat) (m : Mask) (f : Nat → Flags) (b : Nat) :
    (lanesFlags nl m f).getLsbD b = decide (∃ l, l < nl ∧ Mask.has m l = true ∧ (f l).getLsbD b = true) := by
  have key : ∀ (ls : List Nat) (a : Flags), (ls.foldl (fun a l => if Mask.has m l then a ||| f l else a) a).getLsbD b =
      (a.getLsbD b || decide (∃ l, l ∈ ls ∧ Mask.has m l = true ∧ (f l).getLsbD b = true)) := by
    intro ls
    induction ls with
    | nil => simp
    | cons l ls ih =>
      intro a
      rw [List.foldl_cons, ih]
      by_cases hm : Mask.has m l = true
      · rw [if_pos hm, BitVec.getLsbD_or, Bool.or_assoc]
        congr 1
        rw [Bool.eq_iff_iff]
        simp [hm]
      · rw [if_neg hm]
        congr 1
        rw [Bool.eq_iff_iff]
        simp [hm]
  unfold lanesFlags lanesBelow
  rw [key]
  simp [List.mem_range]

theorem setSr_sr (r : Regs) (k l : Nat) (a : Word) : (r.setSr k a).sr l = if l = k then srStore a else r.sr l := by
  unfold Regs.setSr Regs.sr
  by_cases h : l = k
  · subst h
    rw [if_pos rfl]
    simp only [Tbl.get_set, if_true]
  · rw [if_neg h]
    simp only
    unfold Tbl.get Tbl.set
    split
    · rw [Tbl.find?_erase, if_neg h]
    · rw [Tbl.find?_insert, if_neg h]

theorem foldl_setSr_sr (m : Mask) (f : Nat → Word) (l : Nat) (ls : List Nat) (r : Regs) :
    (ls.foldl (fun r l => if Mask.has m l then r.setSr l (f l) else r) r).sr l =
      if l ∈ ls ∧ Mask.has m l = true then srStore (f l) else r.sr l := by
  induction ls generalizing r with
  | nil => simp
  | cons k ls ih =>
    rw [List.foldl_cons, ih]
    by_cases hm : Mask.has m k = true
    · rw [if_pos hm, setSr_sr]
      by_cases h : l = k
      · subst h
        simp [hm]
      · simp [h]
    · rw [if_neg hm]
      by_cases h : l = k
      · subst h
        simp [hm]
      · simp [h]

/-- The generators after a lane write of them. -/
theorem setSrLanes_sr (r : Regs) (nl : Nat) (m : Mask) (f : Nat → Word) (l : Nat) :
    (r.setSrLanes nl m f).sr l = if l < nl ∧ Mask.has m l = true then srStore (f l) else r.sr l := by
  unfold Regs.setSrLanes lanesBelow
  rw [foldl_setSr_sr]
  simp only [List.mem_range]

/-- A write of generators changes nothing else. -/
theorem setSrLanes_eq (r : Regs) (nl : Nat) (m : Mask) (f : Nat → Word) :
    ∃ x, r.setSrLanes nl m f = { r with srt := x } := by
  unfold Regs.setSrLanes
  generalize lanesBelow nl = ls
  induction ls generalizing r with
  | nil => exact ⟨r.srt, rfl⟩
  | cons k ls ih =>
    rw [List.foldl_cons]
    split
    · unfold Regs.setSr
      generalize Tbl.set r.srt _ k _ = y
      obtain ⟨x, hx⟩ := ih { r with srt := y }
      unfold Regs.setSr at hx
      exact ⟨x, hx⟩
    · exact ih r

end Sys2Proof.Machine
end

