-- ==== Sys2Proof/Laws/Operands.lean ====
section
/-! SUPPORT. The operand forms: what each leaves of the state of the team that issues, and that it completes. -/

namespace Sys2Proof.Machine

/-- A meaning over the issuing team completes. -/
theorem withTeam_next {s : State} {uid : Nat} {t : Team} (h : Issuing s uid t) (f : Nat → Team → State) :
    withTeam s f = .next (f uid t) := by
  simp [withTeam, h.1, h.2]

/-- A register-only meaning completes and changes only registers. -/
theorem regOp_next {s : State} {uid : Nat} {t : Team} (h : Issuing s uid t) (f : Team → Regs) :
    regOp s f = .next (afterRegs s uid t (f t)) := withTeam_next h _

/-- A lane write without flags writes v[d] in the performed lanes and nothing else. -/
theorem writesV_setV (t : Team) (g : Option Guard) (d : Nat) (f : Nat → Word) :
    WritesV t g d f (fun _ => 0) (t.regs.setV d t.nlane (t.lanes g) f) where
  written l hl hp := by
    have hp' : l < t.nlane ∧ Mask.has (t.lanes g) l = true := hp
    simp [setV_v _ _ _ _ _ _ _ hl, hp']
  kept n l hl hn := by
    rw [setV_v _ _ _ _ _ _ _ hl]
    exact if_neg hn
  flags b := by simp [Regs.setV]
  rest := rfl

/-- A lane write with the flags of the performed lanes. -/
theorem writesV_raise (t : Team) (g : Option Guard) (d : Nat) (f : Nat → Word) (fl : Nat → Flags) :
    WritesV t g d f fl ((t.regs.setV d t.nlane (t.lanes g) f).raise (lanesFlags t.nlane (t.lanes g) fl)) where
  written l hl hp := (writesV_setV t g d f).written l hl hp
  kept n l hl hn := (writesV_setV t g d f).kept n l hl hn
  flags b := by
    simp only [Regs.raise, Regs.setV, BitVec.getLsbD_or, Bool.or_eq_true, lanesFlags_getLsbD, decide_eq_true_eq,
      Team.performs, and_assoc]
  rest := rfl

theorem writesW_setW (t : Team) (g : Option Guard) (d : Nat) (f : Nat → Word64) :
    WritesW t g d f (t.regs.setW d t.nlane (t.lanes g) f) where
  written l hl hp := by
    have hp' : l < t.nlane ∧ Mask.has (t.lanes g) l = true := hp
    simp [setW_w _ _ _ _ _ _ _ hl, hp']
  kept n l hl hn := by
    rw [setW_w _ _ _ _ _ _ _ hl]
    exact if_neg hn
  rest := rfl

/-- A lane write of a predicate, p0 left alone. -/
theorem writesP_raise (t : Team) (g : Option Guard) (d : Nat) (f : Nat → Bool) (fl : Nat → Flags) :
    WritesP t g d f fl ((t.regs.setP d t.nlane (t.lanes g) f).raise (lanesFlags t.nlane (t.lanes g) fl)) where
  written hd l hl hp := by
    have hp' : l < t.nlane ∧ Mask.has (t.lanes g) l = true := hp
    have := setP_has t.regs d t.nlane (t.lanes g) f d l hl
    simpa [Regs.raise, Regs.p, hd, hp'] using this
  kept n l hn hl hk := by
    have := setP_has t.regs d t.nlane (t.lanes g) f n l hl
    have hk' : ¬ (d ≠ 0 ∧ n = d ∧ Mask.has (t.lanes g) l = true) := fun c => hk ⟨c.2.1, hn, c.2.2⟩
    rw [if_neg hk'] at this
    exact this
  hardwired := by simp [Regs.p]
  flags b := by
    have hn : (t.regs.setP d t.nlane (t.lanes g) f).nflags = t.regs.nflags := by
      unfold Regs.setP
      split <;> rfl
    simp only [Regs.raise, hn, BitVec.getLsbD_or, Bool.or_eq_true, lanesFlags_getLsbD, decide_eq_true_eq,
      Team.performs, and_assoc]
  rest := by
    unfold Regs.setP
    split <;> rfl

theorem lanesFlags_zero (nl : Nat) (m : Mask) : lanesFlags nl m (fun _ => 0) = 0 := by
  apply BitVec.eq_of_getLsbD_eq
  intro i _
  simp [lanesFlags_getLsbD]

theorem writesP_setP (t : Team) (g : Option Guard) (d : Nat) (f : Nat → Bool) :
    WritesP t g d f (fun _ => 0) (t.regs.setP d t.nlane (t.lanes g) f) := by
  have := writesP_raise t g d f (fun _ => 0)
  rw [lanesFlags_zero] at this
  simpa [Regs.raise] using this

theorem writesS_setS (r : Regs) (d : Nat) (a : Word) : WritesS r d a (r.setS d a) where
  written := by simp [setS_s]
  kept n hn := by simp [setS_s, hn]
  rest := rfl

theorem writesX_setX (r : Regs) (d : Nat) (a : Word64) : WritesX r d a (r.setX d a) where
  written := by simp [setX_x]
  kept n hn := by simp [setX_x, hn]
  rest := rfl

theorem writesQ_setQ (r : Regs) (d : Nat) (b : Bool) (h : d < 8) : WritesQ r d b (r.setQ d b) where
  written hd := by simp [setQ_q r d b d h, hd]
  kept n hn := by simp [setQ_q r d b n h, hn]
  hardwired := q_zero _
  rest := by
    unfold Regs.setQ
    split <;> rfl

theorem laneV_spec {i : Instr} {g : Option Guard} {d : Nat} {val : Regs → Nat → Word}
    (h : ∀ s, exec i s = laneV s g d val) : LaneV i g d val := fun s _ t hs =>
  ⟨_, writesV_setV t g d (val t.regs), (h s).trans (regOp_next hs _)⟩

theorem laneVF_spec {i : Instr} {g : Option Guard} {d : Nat} {val : Regs → Nat → Word × Flags}
    (h : ∀ s, exec i s = laneVF s g d val) : LaneVF i g d val := fun s _ t hs =>
  ⟨_, writesV_raise t g d _ _, (h s).trans (regOp_next hs _)⟩

theorem laneW_spec {i : Instr} {g : Option Guard} {d : Nat} {val : Regs → Nat → Word64}
    (h : ∀ s, exec i s = laneW s g d val) : LaneW i g d val := fun s _ t hs =>
  ⟨_, writesW_setW t g d (val t.regs), (h s).trans (regOp_next hs _)⟩

theorem laneP_spec {i : Instr} {g : Option Guard} {d : Nat} {val : Regs → Nat → Bool}
    (h : ∀ s, exec i s = laneP s g d val) : LaneP i g d val := fun s _ t hs =>
  ⟨_, writesP_setP t g d (val t.regs), (h s).trans (regOp_next hs _)⟩

theorem lanePF_spec {i : Instr} {g : Option Guard} {d : Nat} {val : Regs → Nat → Bool × Flags}
    (h : ∀ s, exec i s = lanePF s g d val) : LaneP i g d (fun r l => (val r l).1) (fun r l => (val r l).2) :=
  fun s _ t hs => ⟨_, writesP_raise t g d _ _, (h s).trans (regOp_next hs _)⟩

theorem uniS_spec {i : Instr} {g : Option Guard} {d : Nat} {val : Regs → Word}
    (h : ∀ s, exec i s = regOpIf s g fun t => t.regs.setS d (val t.regs)) : UniS i g d val := fun s _ t hs =>
  ⟨_, (h s).trans (regOp_next hs _), fun hg => by rw [if_pos hg]; exact writesS_setS _ _ _,
    fun hg => by simp [hg]⟩

theorem uniX_spec {i : Instr} {g : Option Guard} {d : Nat} {val : Regs → Word64}
    (h : ∀ s, exec i s = regOpIf s g fun t => t.regs.setX d (val t.regs)) : UniX i g d val := fun s _ t hs =>
  ⟨_, (h s).trans (regOp_next hs _), fun hg => by rw [if_pos hg]; exact writesX_setX _ _ _,
    fun hg => by simp [hg]⟩

theorem uniQ_spec {i : Instr} {g : Option Guard} {d : Nat} {val : Regs → Bool}
    (h : ∀ s, exec i s = regOpIf s g fun t => t.regs.setQ d (val t.regs)) : UniQ i g d val := fun hd s uid t hs =>
  ⟨_, (h s).trans (regOp_next hs _), fun hg => by rw [if_pos hg]; exact writesQ_setQ _ _ _ hd,
    fun hg => by simp [hg]⟩

/-- A conversion with a rounding literal completes as `TeamCvt` says. -/
theorem cvt_spec {i : Instr} {g : Option Guard} {d : Nat} {rnd : Rnd} {val : Team → Nat → Word × Flags}
    (h : ∀ s, exec i s = regOp s fun t =>
      drawLanes ((t.regs.setV d t.nlane (t.lanes g) fun l => (val t l).1).raise
        (lanesFlags t.nlane (t.lanes g) fun l => (val t l).2)) rnd t.nlane (t.lanes g) t.regs) :
    TeamCvt i g d rnd val := by
  intro s uid t hs
  refine ⟨_, ?_, (h s).trans (regOp_next hs _)⟩
  have w := writesV_raise t g d (fun l => (val t l).1) (fun l => (val t l).2)
  have h0 : ((t.regs.setV d t.nlane (t.lanes g) fun l => (val t l).1).raise
      (lanesFlags t.nlane (t.lanes g) fun l => (val t l).2)).srt = t.regs.srt := rfl
  have hc : ∀ l, ((t.regs.setV d t.nlane (t.lanes g) fun l => (val t l).1).raise
      (lanesFlags t.nlane (t.lanes g) fun l => (val t l).2)).sr l = t.regs.sr l := fun _ => rfl
  generalize (t.regs.setV d t.nlane (t.lanes g) fun l => (val t l).1).raise
    (lanesFlags t.nlane (t.lanes g) fun l => (val t l).2) = r0 at *
  unfold drawLanes
  by_cases hr : rnd = .sr
  · rw [if_pos hr]
    have hs1 := setSrLanes_sr r0 t.nlane (t.lanes g) fun l => srNext (t.regs.sr l)
    obtain ⟨x, hx⟩ := setSrLanes_eq r0 t.nlane (t.lanes g) fun l => srNext (t.regs.sr l)
    rw [hx] at hs1 ⊢
    refine ⟨w.written, w.kept, w.flags, ?_, ?_, ?_⟩
    · intro l _ hp
      rw [hs1]
      exact if_pos hp
    · intro l hp
      rw [hs1, if_neg (show ¬ (l < t.nlane ∧ Mask.has (t.lanes g) l = true) from fun c => hp ⟨hr, c⟩), hc]
    · have hw := w.rest
      generalize t.regs = old at *
      cases r0
      simp only at h0
      subst h0
      exact hw
  · rw [if_neg hr]
    refine ⟨w.written, w.kept, w.flags, fun _ h => absurd h hr, fun l _ => hc l, ?_⟩
    have hw := w.rest
    generalize t.regs = old at *
    cases r0
    simp only at h0
    subst h0
    exact hw

/-- A meaning over the issuing team's lanes that writes v[d] without flags. -/
theorem teamV_spec {i : Instr} {g : Option Guard} {d : Nat} {val : Team → Nat → Word}
    (h : ∀ s, exec i s = regOp s fun t => t.regs.setV d t.nlane (t.lanes g) (val t)) : TeamV i g d val := fun s _ t hs =>
  ⟨_, writesV_setV t g d (val t), (h s).trans (regOp_next hs _)⟩

/-- As `teamV_spec`, with flags. -/
theorem teamVF_spec {i : Instr} {g : Option Guard} {d : Nat} {val : Team → Nat → Word} {flag : Team → Nat → Flags}
    (h : ∀ s, exec i s = regOp s fun t =>
      (t.regs.setV d t.nlane (t.lanes g) (val t)).raise (lanesFlags t.nlane (t.lanes g) (flag t))) : TeamV i g d val flag :=
  fun s _ t hs => ⟨_, writesV_raise t g d _ _, (h s).trans (regOp_next hs _)⟩

theorem lowestLane_none {nl : Nat} {m : Mask} (h : lowestLane nl m = none) : ∀ l, l < nl → Mask.has m l = false := by
  intro l hl
  have := (List.find?_eq_none.1 h) l (List.mem_range.2 hl)
  simpa using this

theorem find?_range_least {n : Nat} {p : Nat → Bool} {k : Nat} (h : (List.range n).find? p = some k) :
    k < n ∧ p k = true ∧ ∀ j, j < k → p j = false := by
  rw [List.find?_range_eq_some] at h
  obtain ⟨hp, hk, hj⟩ := h
  refine ⟨List.mem_range.1 hk, hp, fun j hjk => ?_⟩
  simpa using hj j hjk

/-- A meaning with a uniform destination written once for the team. -/
theorem teamUni_spec {i : Instr} {g : Option Guard} {f : Team → Mask → Nat → Regs} {writes : Team → Regs → Prop}
    (h : ∀ s, exec i s = laneTeam s g f) (w : ∀ t m, t.lowest g m → writes t (f t (t.lanes g) m)) : TeamUni i g writes := by
  intro s uid t hs
  refine ⟨_, (h s).trans (regOp_next hs _), ?_, ?_⟩
  · intro hn
    cases hl : lowestLane t.nlane (t.lanes g) with
    | none => simp
    | some m =>
      have := find?_range_least hl
      exact absurd ⟨this.1, this.2.1⟩ (hn m)
  · intro hn
    cases hl : lowestLane t.nlane (t.lanes g) with
    | none =>
      exact absurd (fun l hp => by simpa [lowestLane_none hl l hp.1] using hp.2) hn
    | some m =>
      have hm := find?_range_least hl
      refine w t m ⟨⟨hm.1, hm.2.1⟩, fun k hk hp => ?_⟩
      exact absurd hp.2 (by simp [hm.2.2 k hk])

end Sys2Proof.Machine
end

