-- ==== Sys2Proof/Laws/Access.lean ====
section
/-! SUPPORT. What the shared operations of an issuing team leave: its own record, parking, the checks of an access, reading and
writing bytes, and performing a slot lane by lane. -/

namespace Sys2Proof.Machine

/-! ### The issuing team's record -/

theorem modTeam_issuing {s : State} {uid : Nat} {t : Team} (h : Issuing s uid t) (f : Team → Team) :
    s.modTeam uid f = s.putTeam uid (f t) := by
  unfold State.modTeam State.putTeam Tbl.modify
  rw [h.2]

theorem issuing_putTeam {s : State} {uid : Nat} {t : Team} (h : Issuing s uid t) (u : Team) : Issuing (s.putTeam uid u) uid u :=
  ⟨h.1, by simp⟩

theorem putTeam_putTeam (s : State) (uid : Nat) (t u : Team) : (s.putTeam uid t).putTeam uid u = s.putTeam uid u := by
  simp [State.putTeam, Tbl.insert_insert]

theorem putTeam_modTeam (s : State) (uid : Nat) (t : Team) (g : Team → Team) :
    (s.putTeam uid t).modTeam uid g = s.putTeam uid (g t) := by
  simp [State.modTeam, State.putTeam, Tbl.modify, Tbl.insert_insert]

theorem modTeam_modTeam (s : State) (uid : Nat) (f g : Team → Team) :
    (s.modTeam uid f).modTeam uid g = s.modTeam uid fun t => g (f t) := by
  unfold State.modTeam Tbl.modify
  cases h : Tbl.find? s.teams uid with
  | none => simp [h]
  | some a => simp [Tbl.insert_insert]

theorem teamD_issuing {s : State} {uid : Nat} {t : Team} (h : Issuing s uid t) : s.teamD uid = t := by
  unfold State.teamD
  rw [h.2]
  rfl

/-- A uniform meaning whose guard holds completes. -/
theorem uniOp_next {s : State} {uid : Nat} {t : Team} {g : Option Guard} (h : Issuing s uid t) (hg : guardHolds t.regs g = true)
    (f : Nat → Team → State) : uniOp s g f = .next (f uid t) := by
  unfold uniOp
  rw [withTeam_next h]
  simp [hg]

theorem wake_runnable {t : Team} (h : t.status = .runnable) : t.wake = t.advance := by
  cases t
  simp_all [Team.wake, Team.advance, Team.goto]

/-- A wait that looks at no location and begins no matrix operation. -/
def Park.plain : Park → Bool
  | .barWait _ => false
  | .cjoin _ => false
  | .stall .matrixFull => false
  | _ => true

/-- Such a wait is decided by its condition alone, and looking changes nothing. -/
theorem tryPark_plain (s : State) (uid : Nat) (t : Team) {p : Park} (hp : p.plain = true) :
    s.tryPark uid t p = if s.parkReady uid t p then .pass s else .wait s := by
  cases p with
  | stall w => cases w <;> first | rfl | cases hp
  | barWait _ => cases hp
  | cjoin _ => cases hp
  | _ => rfl

/-- A wait that is over is done at once. -/
theorem park_pass {s s' : State} {uid : Nat} {t : Team} (h : Issuing s uid t) {p : Park} (hr : s.tryPark uid t p = .pass s') :
    s.park uid p = s'.parkDone uid (s'.teamD uid) p := by
  unfold State.park
  simp only [h.2, hr]

/-- A wait that meets a trap raises it. -/
theorem park_trap {s : State} {uid : Nat} {t : Team} (h : Issuing s uid t) {p : Park} {tr : Trap}
    (hr : s.tryPark uid t p = .trap tr) : s.park uid p = s.raise uid tr := by
  unfold State.park
  simp only [h.2, hr]

/-- A wait that is not over parks the team, unless it waits for a suspended operation. -/
theorem park_wait {s s' : State} {uid : Nat} {t : Team} (h : Issuing s uid t) {p : Park} (hr : s.tryPark uid t p = .wait s')
    (hs : (s'.teamD uid).suspFor p = none) :
    s.park uid p = (s'.modTeam uid fun t => { t with status := .parked p }).checkDeadlock t.crew := by
  unfold State.park
  simp only [h.2, hr, hs]

theorem park_ready {s : State} {uid : Nat} {t : Team} (h : Issuing s uid t) {p : Park} (hp : p.plain = true)
    (hr : s.parkReady uid t p = true) : s.park uid p = s.parkDone uid t p := by
  rw [park_pass h (s' := s) (by rw [tryPark_plain s uid t hp, hr]; rfl), teamD_issuing h]

theorem park_waits {s : State} {uid : Nat} {t : Team} (h : Issuing s uid t) {p : Park} (hp : p.plain = true)
    (hr : s.parkReady uid t p = false) (hs : t.suspFor p = none) :
    s.park uid p = (s.putTeam uid { t with status := .parked p }).checkDeadlock t.crew := by
  rw [park_wait h (s' := s) (by rw [tryPark_plain s uid t hp, hr]; rfl) (by rw [teamD_issuing h]; exact hs), modTeam_issuing h]

/-! ### Places -/

theorem Place.add_zero (p : Place) : p.add 0 = p := by cases p <;> rfl

theorem Place.add_add (p : Place) (i j : Nat) : (p.add i).add j = p.add (i + j) := by
  cases p <;> simp [Place.add, Nat.add_assoc]

theorem Place.remote_add (p : Place) (i : Nat) : (p.add i).remote = p.remote := by cases p <;> rfl

/-- The bytes of a place and of those that follow. -/
theorem readBytes_succ (s : State) (p : Place) (n : Nat) : s.readBytes p (n + 1) = s.byteAt p :: s.readBytes (p.add 1) n := by
  unfold State.readBytes
  rw [List.range_succ_eq_map, List.map_cons, List.map_map, Place.add_zero]
  congr 1
  apply List.map_congr_left
  intro i _
  simp only [Function.comp, Place.add_add, Nat.add_comm 1 i]

/-- A read of bytes that no copy in flight writes returns them and changes nothing (R282). -/
theorem loadBytes_settled {s : State} (p : Place) (n : Nat) (h : ∀ i, i < n → s.inFlight (p.add i) = false) :
    s.loadBytes p n = (s.readBytes p n, s) := by
  induction n generalizing p with
  | zero => rfl
  | succ n ih =>
    have h0 := h 0 (by omega)
    rw [Place.add_zero] at h0
    have ht := ih (p.add 1) fun i hi => by
      rw [Place.add_add]
      exact h (1 + i) (by omega)
    simp only [State.loadBytes, State.loadByte, h0, Bool.false_eq_true, if_false, ht, readBytes_succ]

theorem loadNat_settled {s : State} (p : Place) (n : Nat) (h : ∀ i, i < n → s.inFlight (p.add i) = false) :
    s.loadNat p n = (s.readNat p n, s) := by
  simp [State.loadNat, loadBytes_settled p n h, State.readNat]

/-! ### What a write leaves -/

theorem stage2_congr {s s' : State} (hd : s'.dev = s.dev) (hf : s'.fns = s.fns) : s'.stage2 = s.stage2 := by
  funext v a
  simp [State.stage2, State.fn, State.groups, State.rated, State.ownGroups, State.poolGroups, State.sg, hd, hf]

/-- A byte that is stored keeps every other field. -/
theorem putByte_fields (s : State) (p : Place) (b : Byte) : (s.putByte p b).teams = s.teams ∧ (s.putByte p b).self = s.self ∧
    (s.putByte p b).dev = s.dev ∧ (s.putByte p b).fns = s.fns ∧ (s.putByte p b).fab = s.fab ∧ (s.putByte p b).launches = s.launches ∧
    (s.putByte p b).fresh = s.fresh ∧ (s.putByte p b).outbox = s.outbox ∧ (s.putByte p b).agenda = s.agenda ∧
    (s.putByte p b).subs = s.subs ∧ (s.putByte p b).sets = s.sets := by
  cases p with
  | gpa f a =>
    simp only [State.putByte]
    split <;> exact ⟨rfl, rfl, rfl, rfl, rfl, rfl, rfl, rfl, rfl, rfl, rfl⟩
  | _ => exact ⟨rfl, rfl, rfl, rfl, rfl, rfl, rfl, rfl, rfl, rfl, rfl⟩

/-- As `putByte_fields`, for bytes. -/
theorem putBytes_fields (s : State) (p : Place) (l : List Byte) : (s.putBytes p l).teams = s.teams ∧ (s.putBytes p l).self = s.self ∧
    (s.putBytes p l).dev = s.dev ∧ (s.putBytes p l).fns = s.fns ∧ (s.putBytes p l).fab = s.fab ∧
    (s.putBytes p l).launches = s.launches ∧ (s.putBytes p l).fresh = s.fresh ∧ (s.putBytes p l).outbox = s.outbox ∧
    (s.putBytes p l).agenda = s.agenda ∧ (s.putBytes p l).subs = s.subs ∧ (s.putBytes p l).sets = s.sets := by
  induction l generalizing s p with
  | nil => exact ⟨rfl, rfl, rfl, rfl, rfl, rfl, rfl, rfl, rfl, rfl, rfl⟩
  | cons b l ih =>
    have h := putByte_fields s p b
    simpa only [State.putBytes, h.1, h.2.1, h.2.2.1, h.2.2.2.1, h.2.2.2.2.1, h.2.2.2.2.2.1, h.2.2.2.2.2.2.1, h.2.2.2.2.2.2.2.1,
      h.2.2.2.2.2.2.2.2.1, h.2.2.2.2.2.2.2.2.2.1, h.2.2.2.2.2.2.2.2.2.2] using ih (s.putByte p b) (p.add 1)

/-- A changed crew is still there. -/
theorem find?_modCrew_isSome (s : State) (c k : Nat) (f : Crew → Crew) :
    (Tbl.find? (s.modCrew c f).crews k).isSome = (Tbl.find? s.crews k).isSome := by
  simp only [State.modCrew_crews, Tbl.find?_modify]
  split <;> simp_all

/-- A byte that is stored moves no byte of storage. -/
theorem cell_putByte (s : State) (p : Place) (b : Byte) : (s.putByte p b).cell = s.cell := by
  funext q
  have h := putByte_fields s p b
  have h2 := stage2_congr h.2.2.1 h.2.2.2.1
  have hc : ∀ k, (Tbl.find? (s.putByte p b).crews k).isSome = (Tbl.find? s.crews k).isSome := by
    intro k
    cases p <;> simp only [State.putByte, find?_modCrew_isSome]
    split <;> rfl
  cases q <;> simp [State.cell, h2, hc]

/-- What a byte of storage holds. -/
def State.stored (s : State) : Cell → Byte
  | .scratch c o => peek (s.scratchOf c) o
  | .window c o => peek (((Tbl.find? s.crews c).map Crew.window).getD []) o
  | .device k => peek s.mem k
  | .host a => peek s.host a

/-- A place reads what its byte of storage holds, and zero where it has none. -/
theorem byteAt_stored (s : State) (q : Place) : s.byteAt q = ((s.cell q).map s.stored).getD 0 := by
  cases q with
  | scratch c o => cases h : Tbl.find? s.crews c <;> simp [State.byteAt, State.cell, State.stored, State.scratchOf, h, peek, Tbl.get, Tbl.find?]
  | window c o => cases h : Tbl.find? s.crews c <;> simp [State.byteAt, State.cell, State.stored, h, peek, Tbl.get, Tbl.find?]
  | gpa f a => cases h : s.stage2 f a <;> simp [State.byteAt, State.cell, State.stored, h]
  | host a => rfl
  | fabric n r => rfl

/-- A byte that is stored changes the byte of storage that its place names, and no other. -/
theorem stored_putByte (s : State) (p : Place) (b : Byte) (c : Cell) :
    (s.putByte p b).stored c = if s.cell p = some c then b else s.stored c := by
  cases p with
  | scratch k o =>
    cases h : Tbl.find? s.crews k with
    | none => simp [State.putByte, State.modCrew, Tbl.modify, State.cell, h]
    | some x =>
      cases c with
      | scratch k' o' =>
        by_cases hk : k' = k
        · subst hk
          simp [State.putByte, State.stored, State.scratchOf, State.cell, Tbl.find?_modify, h, peek_poke, eq_comm]
        · simp [State.putByte, State.stored, State.scratchOf, State.cell, Tbl.find?_modify, h, hk, Ne.symm hk]
      | window k' o' =>
        by_cases hk : k' = k
        · subst hk
          simp [State.putByte, State.stored, State.cell, Tbl.find?_modify, h]
        · simp [State.putByte, State.stored, State.cell, Tbl.find?_modify, h, hk]
      | _ => simp [State.putByte, State.stored, State.cell, h]
  | window k o =>
    cases h : Tbl.find? s.crews k with
    | none => simp [State.putByte, State.modCrew, Tbl.modify, State.cell, h]
    | some x =>
      cases c with
      | scratch k' o' =>
        by_cases hk : k' = k
        · subst hk
          simp [State.putByte, State.stored, State.scratchOf, State.cell, Tbl.find?_modify, h]
        · simp [State.putByte, State.stored, State.scratchOf, State.cell, Tbl.find?_modify, h, hk]
      | window k' o' =>
        by_cases hk : k' = k
        · subst hk
          simp [State.putByte, State.stored, State.cell, Tbl.find?_modify, h, peek_poke, eq_comm]
        · simp [State.putByte, State.stored, State.cell, Tbl.find?_modify, h, hk, Ne.symm hk]
      | _ => simp [State.putByte, State.stored, State.cell, h]
  | gpa f a =>
    cases h : s.stage2 f a with
    | none => simp [State.putByte, State.cell, h]
    | some k => cases c <;> simp [State.putByte, State.stored, State.scratchOf, State.cell, h, peek_poke, eq_comm]
  | host a => cases c <;> simp [State.putByte, State.stored, State.scratchOf, State.cell, peek_poke, eq_comm]
  | fabric n r => simp [State.putByte, State.cell]

/-- Reading a byte after storing one: the stored byte where both places name one byte of storage. -/
theorem byteAt_putByte (s : State) (p q : Place) (b : Byte) :
    (s.putByte p b).byteAt q = if s.cell p = s.cell q ∧ s.cell p ≠ none then b else s.byteAt q := by
  rw [byteAt_stored, byteAt_stored, cell_putByte]
  cases h : s.cell q with
  | none => simp +contextual
  | some c =>
    simp only [Option.map_some, Option.getD_some, stored_putByte]
    by_cases hp : s.cell p = some c <;> simp [hp]

theorem cell_putBytes (s : State) (p : Place) (l : List Byte) : (s.putBytes p l).cell = s.cell := by
  induction l generalizing s p with
  | nil => rfl
  | cons b l ih => rw [State.putBytes, ih, cell_putByte]

/-- A byte apart from those stored reads as before. -/
theorem byteAt_putBytes_apart (s : State) (p q : Place) (l : List Byte)
    (h : ∀ i, i < l.length → s.cell (p.add i) = none ∨ s.cell (p.add i) ≠ s.cell q) : (s.putBytes p l).byteAt q = s.byteAt q := by
  induction l generalizing s p with
  | nil => rfl
  | cons b l ih =>
    rw [State.putBytes, ih]
    · rw [byteAt_putByte, if_neg]
      have := h 0 (by simp)
      rw [Place.add_zero] at this
      tauto
    · intro i hi
      rw [cell_putByte, Place.add_add]
      exact h (1 + i) (by simp only [List.length_cons]; omega)

/-- The bytes stored are read back, where their places name distinct bytes of storage. -/
theorem readBytes_putBytes (s : State) (p : Place) (l : List Byte) (h0 : ∀ i, i < l.length → s.cell (p.add i) ≠ none)
    (h : ∀ i j, i < j → j < l.length → s.cell (p.add i) ≠ s.cell (p.add j)) : (s.putBytes p l).readBytes p l.length = l := by
  induction l generalizing s p with
  | nil => rfl
  | cons b l ih =>
    rw [List.length_cons, readBytes_succ]
    congr 1
    · rw [State.putBytes, byteAt_putBytes_apart]
      · rw [byteAt_putByte, if_pos]
        have := h0 0 (by simp)
        rw [Place.add_zero] at this
        exact ⟨rfl, this⟩
      · intro i hi
        right
        rw [cell_putByte, Place.add_add, Nat.add_comm]
        have := h 0 (i + 1) (by omega) (by simp only [List.length_cons]; omega)
        rw [Place.add_zero] at this
        exact fun e => this e.symm
    · rw [State.putBytes]
      apply ih
      · intro i hi
        rw [cell_putByte, Place.add_add]
        exact h0 _ (by simp only [List.length_cons]; omega)
      · intro i j hij hj
        rw [cell_putByte, Place.add_add, Place.add_add]
        exact h _ _ (by omega) (by simp only [List.length_cons]; omega)

/-- A team as a write on a line leaves it: its monitor of that line is hit, and nothing else. -/
def Team.lineHit (line : Option (Nat × Nat)) (t : Team) : Team :=
  match t.link.monitor with
  | some m => if some m.line = line then { t with link := { t.link with monitor := some { m with hit := true } } } else t
  | none => t

theorem lineHit_fields (line : Option (Nat × Nat)) (t : Team) : (t.lineHit line).regs = t.regs ∧ (t.lineHit line).ctl = t.ctl ∧
    (t.lineHit line).trap = t.trap ∧ (t.lineHit line).eng = t.eng ∧ (t.lineHit line).crew = t.crew ∧
    (t.lineHit line).index = t.index ∧ (t.lineHit line).nlane = t.nlane ∧ (t.lineHit line).status = t.status ∧
    (t.lineHit line).link = { t.link with monitor := (t.lineHit line).link.monitor } := by
  unfold Team.lineHit
  cases h : t.link.monitor with
  | none => simp
  | some m => simp only; split <;> simp

theorem hitLine_teams (s : State) (line : Option (Nat × Nat)) :
    (s.hitLine line).teams = s.teams.map fun e => (e.1, e.2.lineHit line) := by
  unfold State.hitLine Team.lineHit
  simp only
  apply List.map_congr_left
  rintro ⟨k, e⟩ -
  cases h : e.link.monitor with
  | none => simp
  | some m => simp only; split <;> rfl

/-- The lines that a write of bytes hits. -/
def Team.writeHit (s : State) (p : Place) (n : Nat) (t : Team) : Team :=
  if s.lineOf (p.add (n - 1)) = s.lineOf p then t.lineHit (s.lineOf p)
  else (t.lineHit (s.lineOf p)).lineHit (s.lineOf (p.add (n - 1)))

theorem writeHit_fields (s : State) (p : Place) (n : Nat) (t : Team) :
    (t.writeHit s p n).regs = t.regs ∧ (t.writeHit s p n).ctl = t.ctl ∧ (t.writeHit s p n).trap = t.trap ∧
    (t.writeHit s p n).eng = t.eng ∧ (t.writeHit s p n).crew = t.crew ∧ (t.writeHit s p n).index = t.index ∧
    (t.writeHit s p n).nlane = t.nlane ∧ (t.writeHit s p n).status = t.status ∧
    (t.writeHit s p n).link = { t.link with monitor := (t.writeHit s p n).link.monitor } := by
  unfold Team.writeHit
  split
  · exact lineHit_fields _ _
  · obtain ⟨a1, a2, a3, a4, a5, a6, a7, a8, a9⟩ := lineHit_fields (s.lineOf p) t
    obtain ⟨b1, b2, b3, b4, b5, b6, b7, b8, b9⟩ := lineHit_fields (s.lineOf (p.add (n - 1))) (t.lineHit (s.lineOf p))
    refine ⟨b1.trans a1, b2.trans a2, b3.trans a3, b4.trans a4, b5.trans a5, b6.trans a6, b7.trans a7, b8.trans a8, ?_⟩
    rw [b9, a9]

/-- The team that issues goes on issuing after a write, its monitor perhaps hit. -/
theorem issuing_writeBytes {s : State} {uid : Nat} {t : Team} (h : Issuing s uid t) (p : Place) (l : List Byte) :
    Issuing (s.writeBytes p l) uid (t.writeHit s p l.length) := by
  have hf := putBytes_fields s p l
  unfold State.writeBytes Team.writeHit
  simp only
  constructor
  · split <;> exact hf.2.1.trans h.1
  · split
    · rw [hitLine_teams, Tbl.find?_map, hf.1, h.2]
      rfl
    · rw [hitLine_teams, Tbl.find?_map, hitLine_teams, Tbl.find?_map, hf.1, h.2]
      rfl

/-- A write of bytes stores them, and touches beside them only monitors. -/
theorem writeBytes_fields (s : State) (p : Place) (l : List Byte) : (s.writeBytes p l).byteAt = (s.putBytes p l).byteAt ∧
    (s.writeBytes p l).cell = s.cell ∧ (s.writeBytes p l).crews = (s.putBytes p l).crews ∧ (s.writeBytes p l).self = s.self ∧
    (s.writeBytes p l).dev = s.dev ∧ (s.writeBytes p l).fns = s.fns ∧ (s.writeBytes p l).fab = s.fab ∧
    (s.writeBytes p l).launches = s.launches ∧ (s.writeBytes p l).fresh = s.fresh ∧ (s.writeBytes p l).outbox = s.outbox ∧
    (s.writeBytes p l).agenda = s.agenda ∧ (s.writeBytes p l).subs = s.subs ∧ (s.writeBytes p l).sets = s.sets := by
  obtain ⟨-, h2, h3, h4, h5, h6, h7, h8, h9, h10, h11⟩ := putBytes_fields s p l
  have hc := cell_putBytes s p l
  unfold State.writeBytes
  simp only
  split
  · exact ⟨by funext q; cases q <;> rfl, by rw [← hc]; funext q; cases q <;> rfl, rfl, h2, h3, h4, h5, h6, h7, h8, h9, h10, h11⟩
  · exact ⟨by funext q; cases q <;> rfl, by rw [← hc]; funext q; cases q <;> rfl, rfl, h2, h3, h4, h5, h6, h7, h8, h9, h10, h11⟩

/-! ### The checks of an access (R146) -/

/-- What an access that passes the checks is. -/
theorem checkAccess_ok {s : State} {t : Team} {x : Access} {p : Place} (h : s.checkAccess t x = .ok p) :
    ∃ q, s.resolve t x.addr x.size x.wr = .ok q ∧ s.home (s.fnOf t) q = p ∧ x.size ∣ x.addr ∧ t.watchOn x = none ∧
      (x.rd && s.markedIn p x.size) = false ∧ s.fabricFails (s.fnOf t) q = none := by
  unfold State.checkAccess at h
  rcases Nat.decEq (x.addr % x.size) 0 with h1 | h1
  · simp [h1] at h
  · simp only [h1, ne_eq, not_true, if_false] at h
    generalize hr : s.resolve t x.addr x.size x.wr = r at h
    cases r with
    | error c => simp at h
    | ok q =>
      simp only at h
      generalize hw : t.watchOn x = w at h
      cases w with
      | some n => simp at h
      | none =>
        simp only at h
        generalize hm : (x.rd && s.markedIn (s.home (s.fnOf t) q) x.size) = m at h
        cases m with
        | true => simp at h
        | false =>
          simp only [Bool.false_eq_true, if_false] at h
          generalize hf : s.fabricFails (s.fnOf t) q = f at h
          cases f with
          | some r => simp at h
          | none =>
            simp only [Except.ok.injEq] at h
            subst h
            exact ⟨q, rfl, rfl, Nat.dvd_of_mod_eq_zero h1, rfl, hm, hf⟩

/-- The checks depend on nothing that a write of bytes, or of the team's registers, changes. -/
structure SameChecks (s s' : State) (t t' : Team) : Prop where
  crews : ∀ c, (Tbl.find? s'.crews c).map (fun x : Crew => { x with scratch := [], window := [] }) =
    (Tbl.find? s.crews c).map (fun x : Crew => { x with scratch := [], window := [] })
  launches : s'.launches = s.launches
  fab : s'.fab = s.fab
  dev : s'.dev = s.dev
  fns : s'.fns = s.fns
  watches : t'.link.watches = t.link.watches
  pages : t'.link.pages = t.link.pages
  crew : t'.crew = t.crew
  ctl : t'.ctl = t.ctl

/-- A crew's field beside its storage is the same in both states. -/
theorem sameChecks_crew {s s' : State} {t t' : Team} (h : SameChecks s s' t t') (c : Nat) {β : Type} (f : Crew → β)
    (hf : ∀ x : Crew, f { x with scratch := [], window := [] } = f x) :
    (Tbl.find? s'.crews c).map f = (Tbl.find? s.crews c).map f := by
  have := congrArg (Option.map f) (h.crews c)
  simpa [Option.map_map, Function.comp_def, hf] using this

/-- Whether an access waits depends on nothing that a write of bytes changes. -/
theorem placeWaits_same {s s' : State} (hd : s'.dev = s.dev) (hf : s'.fns = s.fns) (fn : Nat) (p : Place) :
    s'.placeWaits fn p = s.placeWaits fn p := by
  have hst := stage2_congr hd hf
  have hb : s'.burstWaits fn = s.burstWaits fn := by
    funext k
    simp [State.burstWaits, State.barred, State.arbiter, State.metered, State.rated, State.ownGroups, State.sg, hd]
  simp [State.placeWaits, State.waitsTest, State.groupTested, State.barred, State.arbiter, State.metered, State.rated,
    State.ownGroups, State.sg, hst, hd, hb]

theorem checkAccess_same {s s' : State} {t t' : Team} (h : SameChecks s s' t t') (x : Access) :
    s'.checkAccess t' x = s.checkAccess t x := by
  have bm : ∀ {α β γ : Type} (o : Option α) (f : α → β) (g : β → Option γ), o.bind (fun a => g (f a)) = (o.map f).bind g := by
    intro _ _ _ o _ _
    cases o <;> rfl
  have hfn : s'.fnOf t' = s.fnOf t := by
    simp only [State.fnOf, h.crew]
    rw [sameChecks_crew h _ Crew.fn fun _ => rfl]
  have hl : s'.launchOf t' = s.launchOf t := by
    simp only [State.launchOf, h.launches, h.crew]
    rw [bm _ Crew.launch, bm _ Crew.launch, sameChecks_crew h _ Crew.launch fun _ => rfl]
  have hsb := sameChecks_crew h t.crew Crew.scratchBytes fun _ => rfl
  have hres : s'.resolve t' x.addr x.size x.wr = s.resolve t x.addr x.size x.wr := by
    simp only [State.resolve, State.extentsOf, hl, hfn, h.crew, h.pages, hsb]
  have hh : ∀ f p, s'.home f p = s.home f p := by
    intro f p
    simp only [State.home, State.fabValid, State.node, h.fab]
    rfl
  have hw : t'.watchOn x = t.watchOn x := by
    simp only [Team.watchOn, Team.exempts, h.watches, h.ctl]
    rfl
  have hst := stage2_congr h.dev h.fns
  have hm : ∀ p n, s'.markedIn p n = s.markedIn p n := by
    intro p n
    unfold State.markedIn
    congr 1
    funext i
    unfold State.marked
    cases p.add i with
    | scratch c o => simp only; rw [sameChecks_crew h c _ fun _ => rfl]
    | window c o => simp only; rw [sameChecks_crew h c _ fun _ => rfl]
    | _ => simp [h.dev, hst]
  have hf : ∀ f p, s'.fabricFails f p = s.fabricFails f p := by
    intro f p
    simp only [State.fabricFails, State.fabValid, State.node, h.fab, hst]
    rfl
  unfold State.checkAccess
  simp only [hres, hfn, hw, hm, hf, hh]

/-- An access that nothing answers and nothing has asked for takes its value at once where its bytes are here and it need not
wait. -/
theorem fetchLane_acts {s : State} {uid : Nat} {t : Team} {x : Access} {p : Place} (h : Issuing s uid t)
    (ha : t.answer x.lane = none) (hq : s.asked uid x.lane = false) (hr : s.checkAccess t x = .ok p) (hp : p.remote = false)
    (hw : s.placeWaits (s.fnOf t) p = false) {release : Bool} (hh : t.holdsWrite p x.wr release = false) (op : RemoteOp)
    (here : State → Place → Nat × State) (use : State → Nat → State) :
    s.fetchLane uid x op release here use = .done (use (here s p).2 (here s p).1) := by
  unfold State.fetchLane
  simp only [teamD_issuing h, ha, hq, hr]
  cases p <;> simp_all [Place.remote]

/-- An access whose answer has come takes the answer's value, where no watchpoint depends on it. -/
theorem fetchLane_answered {s : State} {uid : Nat} {t : Team} {x : Access} {b : List Byte} (h : Issuing s uid t)
    (ha : t.answer x.lane = some (.data b)) (hj : x.judged = none) (release : Bool) (op : RemoteOp) (here : State → Place → Nat × State)
    (use : State → Nat → State) :
    s.fetchLane uid x op release here use = .done (use (s.modTeam uid fun t => t.takeAnswer x.lane) (leNat b)) := by
  unfold State.fetchLane
  simp only [teamD_issuing h, ha, hj]

/-- An access of bytes of another node, not asked for yet, asks for them and waits. -/
theorem fetchLane_asks {s : State} {uid : Nat} {t : Team} {x : Access} {n r : Nat} (h : Issuing s uid t)
    (ha : t.answer x.lane = none) (hq : s.asked uid x.lane = false) (hr : s.checkAccess t x = .ok (.fabric n r)) (release : Bool)
    (op : RemoteOp) (here : State → Place → Nat × State) (use : State → Nat → State) :
    s.fetchLane uid x op release here use = .wait (s.request (s.fnOf t) uid n r (if x.judged.isSome then .load x.size else op)
      (.access x.lane) (release || (x.wr && t.released))) := by
  unfold State.fetchLane
  simp only [teamD_issuing h, ha, hq, hr]
  rfl

/-! ### Lane by lane (R157) -/

theorem performers_nodup (t : Team) (g : Option Guard) : (t.performers g).Nodup := List.Nodup.filter _ List.nodup_range

theorem mem_performers (t : Team) (g : Option Guard) (l : Nat) : l ∈ t.performers g ↔ t.performs g l := by
  simp [Team.performers, Team.performs]

theorem performs_lt {t : Team} {g : Option Guard} {l : Nat} (h : t.performs g l) : l < 1024 := by
  by_contra hc
  have := h.2
  unfold Mask.has at this
  rw [BitVec.getLsbD_of_ge _ _ (by omega)] at this
  contradiction

/-- When no lane is skipped, traps or waits, and nothing comes between them, the lanes are performed one after another. -/
theorem runLanes_done {uid : Nat} {under : Nat × Bool} {step : State → Nat → LaneRes} {fin : State → State}
    (f : State → Nat → State) :
    ∀ (ls : List Nat) (s : State) (m : Mask), ls.Nodup → (∀ l ∈ ls, Mask.has m l = false) → (∀ l ∈ ls, l < 1024) →
      (∀ pre l post, ls = pre ++ l :: post →
        (pre.foldl f s).breaksAt uid l = false ∧ step (pre.foldl f s) l = .done (f (pre.foldl f s) l)) →
      runLanes uid under step fin ls s m = (fin (ls.foldl f s)).modTeam uid Team.advance := by
  intro ls
  induction ls with
  | nil => intros; rfl
  | cons l ls ih =>
    intro s m hn hm hb hs
    unfold runLanes
    rw [hm l (by simp)]
    have h0 := hs [] l ls rfl
    simp only [List.foldl_nil] at h0
    simp only [h0.1, h0.2, Bool.false_eq_true, if_false]
    rw [ih (f s l) (Mask.add m l) (List.nodup_cons.1 hn).2 ?_ (fun x hx => hb x (by simp [hx])) ?_]
    · rfl
    · intro x hx
      have hne : x ≠ l := fun e => (List.nodup_cons.1 hn).1 (e ▸ hx)
      have h1 := hm x (by simp [hx])
      have h2 := hb x (by simp [hx])
      unfold Mask.has Mask.add at *
      simp_all
      intro _ h
      omega
    · intro pre x post e
      have := hs (l :: pre) x post (by simp [e])
      simpa using this

end Sys2Proof.Machine
end

