-- ==== Sys2Proof/Laws/IntOps.lean ====
section
/-! SUPPORT. The integer operations of R107 to R112 as arithmetic on numbers. -/

namespace Sys2Proof.Machine

theorem bv_slt (a b : Word) : a.slt b = decide (a.toInt < b.toInt) := by simp [BitVec.slt]

theorem minS_eq (a b : Word) : minS a b = if a.toInt ≤ b.toInt then a else b := by
  unfold minS; rw [bv_slt]
  by_cases h : a.toInt < b.toInt
  · simp [h, le_of_lt h]
  · by_cases h' : a.toInt ≤ b.toInt
    · have : a.toInt = b.toInt := by omega
      have := BitVec.eq_of_toInt_eq this
      simp [this]
    · simp [h, h']
theorem maxS_eq (a b : Word) : maxS a b = if a.toInt ≤ b.toInt then b else a := by
  unfold maxS; rw [bv_slt]
  by_cases h : a.toInt < b.toInt
  · simp [h, le_of_lt h]
  · by_cases h' : a.toInt ≤ b.toInt
    · have : a.toInt = b.toInt := by omega
      have := BitVec.eq_of_toInt_eq this
      simp [this]
    · simp [h, h']
theorem minU_eq (a b : Word) : minU a b = if a.toNat ≤ b.toNat then a else b := by
  unfold minU; simp only [BitVec.ult]
  by_cases h : a.toNat < b.toNat
  · simp [h, le_of_lt h]
  · by_cases h' : a.toNat ≤ b.toNat
    · have : a.toNat = b.toNat := by omega
      have := BitVec.eq_of_toNat_eq this
      simp [this]
    · simp [h, h']
theorem maxU_eq (a b : Word) : maxU a b = if a.toNat ≤ b.toNat then b else a := by
  unfold maxU; simp only [BitVec.ult]
  by_cases h : a.toNat < b.toNat
  · simp [h, le_of_lt h]
  · by_cases h' : a.toNat ≤ b.toNat
    · have : a.toNat = b.toNat := by omega
      have := BitVec.eq_of_toNat_eq this
      simp [this]
    · simp [h, h']

theorem absI_eq (a : Word) : absI a = BitVec.ofNat 32 a.toInt.natAbs := by
  unfold absI
  rw [bv_slt]
  apply BitVec.eq_of_toNat_eq
  have h1 := BitVec.isLt a
  have h2 : a.toInt = if 2 * a.toNat < 2^32 then (a.toNat : Int) else a.toNat - 2^32 := by
    rw [BitVec.toInt_eq_toNat_cond]; norm_num
  rw [h2, BitVec.toNat_ofNat]
  by_cases h : 2 * a.toNat < 2^32
  · have h3 : ¬ (a.toNat : Int) < BitVec.toInt (0 : Word) := by simp
    simp only [h, if_true, h3, decide_false]
    simp
    omega
  · have h3 : ((a.toNat : Int) - 2^32) < BitVec.toInt (0:Word) := by simp; omega
    simp only [h, if_false, h3, decide_true, if_true, BitVec.toNat_neg]
    congr 1; omega

theorem clampS (t : Int) : clamp (-2 ^ 31) (2 ^ 31 - 1) t =
   (BitVec.ofInt 32 (max (-2 ^ 31) (min (2 ^ 31 - 1) t)), flagIf (decide (t < -2 ^ 31 ∨ 2 ^ 31 ≤ t)) flagSAT) := by
  unfold clamp flagIf
  by_cases h : t < -2^31
  · have : max (-2 ^ 31) (min (2 ^ 31 - 1) t) = -2^31 := by omega
    simp only [h, if_true, this]; simp
  · by_cases h' : 2^31 - 1 < t
    · have h2 : max (-2 ^ 31) (min (2 ^ 31 - 1) t) = 2^31 - 1 := by omega
      have h3 : 2^31 ≤ t := by omega
      simp only [h, h', if_true, if_false, h2, h3]; simp
    · have h2 : max (-2 ^ 31) (min (2 ^ 31 - 1) t) = t := by omega
      have h3 : ¬ 2^31 ≤ t := by omega
      simp only [h, h', if_false, h2, h3]; simp

theorem addsN_eq (a b : Word) : addsN a b = (BitVec.ofNat 32 (min (2 ^ 32 - 1) (a.toNat + b.toNat)),
  flagIf (decide (2 ^ 32 ≤ a.toNat + b.toNat)) flagSAT) := by
  unfold addsN clamp flagIf
  have h0 : ¬ ((a.toNat : Int) + b.toNat < 0) := by omega
  by_cases h : 2^32 ≤ a.toNat + b.toNat
  · have h1 : (2^32 - 1 : Int) < (a.toNat : Int) + b.toNat := by omega
    have h2 : min (2 ^ 32 - 1) (a.toNat + b.toNat) = 2^32 - 1 := by omega
    simp only [h0, h1, h2, h, if_true, if_false, decide_true]; decide
  · have h1 : ¬ (2^32 - 1 : Int) < (a.toNat : Int) + b.toNat := by omega
    have h2 : min (2 ^ 32 - 1) (a.toNat + b.toNat) = a.toNat + b.toNat := by omega
    simp only [h0, h1, h2, h, if_false, decide_false]
    refine Prod.ext ?_ ?_
    · have : ((a.toNat : Int) + b.toNat) = ((a.toNat + b.toNat : Nat) : Int) := by omega
      simp only [this]; rfl
    · rfl

theorem subsN_eq (a b : Word) : subsN a b = (BitVec.ofNat 32 (a.toNat - b.toNat), flagIf (decide (a.toNat < b.toNat)) flagSAT) := by
  unfold subsN clamp flagIf
  by_cases h : a.toNat < b.toNat
  · have h1 : (a.toNat : Int) - b.toNat < 0 := by omega
    have h2 : a.toNat - b.toNat = 0 := by omega
    simp only [h1, h2, h, if_true, decide_true]; decide
  · have h1 : ¬ (a.toNat : Int) - b.toNat < 0 := by omega
    have h3 : ¬ (2^32 - 1 : Int) < (a.toNat : Int) - b.toNat := by omega
    simp only [h1, h3, h, if_false, decide_false]
    refine Prod.ext ?_ ?_
    · have : (a.toNat : Int) - b.toNat = ((a.toNat - b.toNat : Nat) : Int) := by omega
      simp only [this]; rfl
    · rfl

theorem shlFull_eq {w : Nat} (a : BitVec w) (c : Nat) : shlFull a c = BitVec.ofNat w (a.toNat * 2 ^ c) := by
  unfold shlFull
  apply BitVec.eq_of_toNat_eq
  split
  · simp [Nat.shiftLeft_eq]
  · rename_i h
    have : 2 ^ w ∣ a.toNat * 2 ^ c := Dvd.dvd.mul_left (Nat.pow_dvd_pow 2 (by omega)) _
    simp [Nat.mod_eq_zero_of_dvd this]

theorem shrFull_eq {w : Nat} (a : BitVec w) (c : Nat) : shrFull a c = BitVec.ofNat w (a.toNat / 2 ^ c) := by
  unfold shrFull
  apply BitVec.eq_of_toNat_eq
  have ha := a.isLt
  have : a.toNat / 2 ^ c < 2 ^ w := lt_of_le_of_lt (Nat.div_le_self _ _) ha
  split
  · rw [BitVec.toNat_ushiftRight, Nat.shiftRight_eq_div_pow, BitVec.toNat_ofNat, Nat.mod_eq_of_lt this]
  · rename_i h
    have h2 : 2 ^ w ≤ 2 ^ c := Nat.pow_le_pow_right (by norm_num) (by omega)
    rw [Nat.div_eq_of_lt (by omega)]
    rfl

theorem sarFull_eq {w : Nat} (a : BitVec w) (c : Nat) : sarFull a c = BitVec.ofInt w (a.toInt / 2 ^ c) := by
  unfold sarFull
  split
  · apply BitVec.eq_of_toInt_eq
    rw [BitVec.toInt_sshiftRight, BitVec.toInt_ofInt, Int.shiftRight_eq_div_pow]
    rw [← BitVec.toInt_ofInt, ]
    have : (a.sshiftRight c).toInt = a.toInt / ((2^c : Nat) : Int) := by rw [BitVec.toInt_sshiftRight, Int.shiftRight_eq_div_pow]
    have h2 := congrArg (BitVec.ofInt w) this
    rw [BitVec.ofInt_toInt] at h2
    push_cast at *
    rw [← h2, this]
  · rename_i h
    have h1 := BitVec.toInt_lt (x := a)
    have h2 := BitVec.le_toInt (x := a)
    have h3 : (2:Int) ^ (w-1) ≤ 2 ^ c := by exact_mod_cast Nat.pow_le_pow_right (by norm_num) (by omega)
    have h4 : (0:Int) < 2 ^ c := by positivity
    by_cases hs : a.slt 0 = true
    · have : a.toInt < 0 := by simpa [BitVec.slt] using hs
      have h5 : a.toInt / 2 ^ c = -1 := by
        apply le_antisymm
        · have := Int.ediv_neg_of_neg_of_pos this h4; omega
        · rw [Int.le_ediv_iff_mul_le h4]; omega
      rw [if_pos hs, h5]; exact (BitVec.ofInt_negSucc_eq_not_ofNat (n := 0)).symm ▸ by simp
    · have : 0 ≤ a.toInt := by
        have : ¬ a.toInt < 0 := by simpa [BitVec.slt] using hs
        omega
      rw [if_neg hs, Int.ediv_eq_zero_of_lt this (by omega)]; rfl

theorem bfeI_eq (a d : Word) : bfeI a d = if fieldLen d = 0 then 0 else BitVec.ofInt 32 (Int.bmod (a.toInt / 2 ^ fieldPos d) (2 ^ fieldLen d)) := by
  unfold bfeI
  by_cases h : fieldLen d = 0
  · simp [h]
  · simp only [h, if_false]
    congr 1
    obtain ⟨n, hn⟩ : ∃ n, fieldLen d = n + 1 := ⟨fieldLen d - 1, by omega⟩
    rw [hn]
    simp only [Int.bmod_def, Nat.add_sub_cancel]
    push_cast
    generalize a.toInt / 2 ^ fieldPos d = q
    have h2 : (((2:Int) ^ (n+1)) + 1) / 2 = 2 ^ n := by rw [pow_succ]; omega
    rw [h2]
    by_cases h3 : (2:Int)^n ≤ q % 2 ^ (n+1)
    · rw [if_pos h3, if_neg (by omega)]
    · rw [if_neg h3, if_pos (by omega)]

theorem bfi_eq (old a d : Word) : bfi old a d =
      BitVec.ofNat 32 (old.toNat % 2 ^ fieldPos d + 2 ^ fieldPos d * (a.toNat % 2 ^ fieldLen d) +
        old.toNat / 2 ^ (fieldPos d + fieldLen d) * 2 ^ (fieldPos d + fieldLen d)) := by
  unfold bfi
  generalize fieldPos d = p
  generalize fieldLen d = n
  apply BitVec.eq_of_getLsbD_eq
  intro i hi
  have e : old.toNat % 2 ^ p + 2 ^ p * (a.toNat % 2 ^ n) + old.toNat / 2 ^ (p + n) * 2 ^ (p + n)
      = 2 ^ (p+n) * (old.toNat / 2 ^ (p+n)) + (2 ^ p * (a.toNat % 2 ^ n) + old.toNat % 2 ^ p) := by ring
  have hlt : 2 ^ p * (a.toNat % 2 ^ n) + old.toNat % 2 ^ p < 2 ^ (p + n) := by
    have h1 : a.toNat % 2 ^ n < 2 ^ n := Nat.mod_lt _ (by positivity)
    have h2 : old.toNat % 2 ^ p < 2 ^ p := Nat.mod_lt _ (by positivity)
    have h3 : 2 ^ p * (a.toNat % 2 ^ n + 1) ≤ 2 ^ p * 2 ^ n := Nat.mul_le_mul_left _ h1
    rw [pow_add]
    linarith
  rw [e]
  simp only [BitVec.getLsbD_or, BitVec.getLsbD_and, BitVec.getLsbD_not, BitVec.getLsbD_ofNat, hi, decide_true, Bool.true_and]
  rw [Nat.testBit_two_pow_mul_add _ hlt, Nat.testBit_two_pow_mul_add _ (Nat.mod_lt _ (by positivity)), Nat.mul_comm (2^n - 1),
    Nat.mul_comm a.toNat, Nat.testBit_two_pow_mul, Nat.testBit_two_pow_mul]
  simp only [Nat.testBit_mod_two_pow, Nat.testBit_two_pow_sub_one, Nat.testBit_div_two_pow, BitVec.testBit_toNat]
  by_cases h1 : i < p
  · have : ¬ i ≥ p := by omega
    have h2 : i < p + n := by omega
    simp [h1, h2, this]
  · have h1' : p ≤ i := by omega
    by_cases h2 : i < p + n
    · have : i - p < n := by omega
      simp [h1', h2, this]
    · have : ¬ i - p < n := by omega
      simp [h1, h1', h2, this]
      congr 1; omega

theorem popcount_eq (a : Nat) (n : Nat) : popcount a n = (List.range n).countP fun i => a.testBit i := by
  induction n with
  | zero => rfl
  | succ n ih => rw [popcount, ih, List.range_succ, List.countP_append]; simp [List.countP_cons]

theorem clz_eq (a : Word) : clz a = BitVec.ofNat 32 (((List.range 33).countP fun k => decide (a.toNat < 2 ^ (32 - k))) - 1) := by
  unfold clz
  congr 1
  have hc : ∀ (j n : Nat), j ≤ n → ((List.range n).countP fun k => decide (k < j)) = j := by
    intro j n
    induction n with
    | zero => intro h; simp; omega
    | succ n ih =>
      intro h
      rw [List.range_succ, List.countP_append]
      rcases Nat.lt_or_ge n j with h' | h'
      · have : j = n + 1 := by omega
        subst this
        have : ((List.range n).countP fun k => decide (k < n + 1)) = n := by
          rw [List.countP_eq_length.2] <;> simp
          intro a ha; omega
        simp only [this, List.countP_cons, List.countP_nil]; simp
      · simp [ih h', h']
  by_cases h : a = 0
  · subst h; decide
  · rw [if_neg h]
    have h0 : a.toNat ≠ 0 := by simpa [← BitVec.toNat_inj] using h
    have hl : a.toNat.log2 < 32 := (Nat.log2_lt h0).2 a.isLt
    have : ((List.range 33).countP fun k => decide (a.toNat < 2 ^ (32 - k))) = (List.range 33).countP fun k => decide (k < 32 - a.toNat.log2) := by
      apply List.countP_congr
      intro k hk
      have hk : k < 33 := by simpa using hk
      simp only [decide_eq_true_eq]
      rw [← Nat.log2_lt h0]; omega
    rw [this, hc _ _ (by omega)]; omega

end Sys2Proof.Machine
end

