-- ==== Sys2Proof/Laws/PerInstr.lean ====
section
/-! SUPPORT. Facts about every instruction as syntax, one lemma for each constructor. -/

namespace Sys2Proof.Laws.FieldsDecode

/-- The fields that the encoder writes of a well-formed instruction are read as that instruction. -/
def Statement (i : Instr) : Prop := ∀ c f, i.wf c = true → fieldsOf i = some f → instrOf f = some i

/-- The immediate of rdsp and wrsp names its register (R56). -/
theorem ofImm_toImm (r : SpReg) (h : r.wf = true) : SpReg.ofImm r.toImm = some r := by
  cases r <;> try rfl
  rename_i n
  have hn : n < 32 := of_decide_eq_true h
  have e : SpReg.toImm (.tdone n) = 20 + 128 * n := rfl
  rw [e, SpReg.ofImm, show (20 + 128 * n) / 128 % 32 = n by omega, show (20 + 128 * n) % 128 = 20 by omega]
  rfl

theorem nop : Statement (.nop) := by
  rintro c f - h; cases h; rfl
theorem mov (g : Option Guard) (d : Nat) (a : Nat) : Statement (.mov g d a) := by
  rintro c f - h; cases h; rfl
theorem movi (g : Option Guard) (d : Nat) (imm : Word) : Statement (.movi g d imm) := by
  rintro c f - h; cases h; simp [instrOf, instrOf0]
theorem sel (g : Option Guard) (d : Nat) (a : Nat) (b : Nat) : Statement (.sel g d a b) := by
  rintro c f - h; cases h; rfl
theorem laneid (g : Option Guard) (d : Nat) : Statement (.laneid g d) := by
  rintro c f - h; cases h; rfl
theorem rdsp (g : Option Guard) (d : Nat) (r : SpReg) : Statement (.rdsp g d r) := by
  rintro c f w h; cases h
  have hr : r.wf = true := by
    simp only [Instr.wf, Bool.and_eq_true] at w; tauto
  simp [instrOf, instrOf0, ofImm_toImm r hr]
theorem wrsp (g : Option Guard) (a : Nat) (r : SpReg) : Statement (.wrsp g a r) := by
  rintro c f w h; cases h
  have hr : r.wf = true := by
    simp only [Instr.wf, Bool.and_eq_true] at w; tauto
  simp [instrOf, instrOf0, ofImm_toImm r hr]
theorem addI32 (g : Option Guard) (d : Nat) (a : Nat) (b : Nat) : Statement (.addI32 g d a b) := by
  rintro c f - h; cases h; rfl
theorem subI32 (g : Option Guard) (d : Nat) (a : Nat) (b : Nat) : Statement (.subI32 g d a b) := by
  rintro c f - h; cases h; rfl
theorem minI32 (g : Option Guard) (d : Nat) (a : Nat) (b : Nat) : Statement (.minI32 g d a b) := by
  rintro c f - h; cases h; rfl
theorem minN32 (g : Option Guard) (d : Nat) (a : Nat) (b : Nat) : Statement (.minN32 g d a b) := by
  rintro c f - h; cases h; rfl
theorem maxI32 (g : Option Guard) (d : Nat) (a : Nat) (b : Nat) : Statement (.maxI32 g d a b) := by
  rintro c f - h; cases h; rfl
theorem maxN32 (g : Option Guard) (d : Nat) (a : Nat) (b : Nat) : Statement (.maxN32 g d a b) := by
  rintro c f - h; cases h; rfl
theorem andB32 (g : Option Guard) (d : Nat) (a : Nat) (b : Nat) : Statement (.andB32 g d a b) := by
  rintro c f - h; cases h; rfl
theorem orB32 (g : Option Guard) (d : Nat) (a : Nat) (b : Nat) : Statement (.orB32 g d a b) := by
  rintro c f - h; cases h; rfl
theorem xorB32 (g : Option Guard) (d : Nat) (a : Nat) (b : Nat) : Statement (.xorB32 g d a b) := by
  rintro c f - h; cases h; rfl
theorem andnB32 (g : Option Guard) (d : Nat) (a : Nat) (b : Nat) : Statement (.andnB32 g d a b) := by
  rintro c f - h; cases h; rfl
theorem absI32 (g : Option Guard) (d : Nat) (a : Nat) : Statement (.absI32 g d a) := by
  rintro c f - h; cases h; rfl
theorem negI32 (g : Option Guard) (d : Nat) (a : Nat) : Statement (.negI32 g d a) := by
  rintro c f - h; cases h; rfl
theorem addsI32 (g : Option Guard) (d : Nat) (a : Nat) (b : Nat) : Statement (.addsI32 g d a b) := by
  rintro c f - h; cases h; rfl
theorem subsI32 (g : Option Guard) (d : Nat) (a : Nat) (b : Nat) : Statement (.subsI32 g d a b) := by
  rintro c f - h; cases h; rfl
theorem addsN32 (g : Option Guard) (d : Nat) (a : Nat) (b : Nat) : Statement (.addsN32 g d a b) := by
  rintro c f - h; cases h; rfl
theorem subsN32 (g : Option Guard) (d : Nat) (a : Nat) (b : Nat) : Statement (.subsN32 g d a b) := by
  rintro c f - h; cases h; rfl
theorem addiI32 (g : Option Guard) (d : Nat) (a : Nat) (imm : Word) : Statement (.addiI32 g d a imm) := by
  rintro c f - h; cases h; simp [instrOf, instrOf2]
theorem andiB32 (g : Option Guard) (d : Nat) (a : Nat) (imm : Word) : Statement (.andiB32 g d a imm) := by
  rintro c f - h; cases h; simp [instrOf, instrOf2]
theorem oriB32 (g : Option Guard) (d : Nat) (a : Nat) (imm : Word) : Statement (.oriB32 g d a imm) := by
  rintro c f - h; cases h; simp [instrOf, instrOf2]
theorem xoriB32 (g : Option Guard) (d : Nat) (a : Nat) (imm : Word) : Statement (.xoriB32 g d a imm) := by
  rintro c f - h; cases h; simp [instrOf, instrOf2]
theorem miniI32 (g : Option Guard) (d : Nat) (a : Nat) (imm : Word) : Statement (.miniI32 g d a imm) := by
  rintro c f - h; cases h; simp [instrOf, instrOf2]
theorem maxiI32 (g : Option Guard) (d : Nat) (a : Nat) (imm : Word) : Statement (.maxiI32 g d a imm) := by
  rintro c f - h; cases h; simp [instrOf, instrOf2]
theorem shlB32 (g : Option Guard) (d : Nat) (a : Nat) (b : Nat) : Statement (.shlB32 g d a b) := by
  rintro c f - h; cases h; rfl
theorem shrN32 (g : Option Guard) (d : Nat) (a : Nat) (b : Nat) : Statement (.shrN32 g d a b) := by
  rintro c f - h; cases h; rfl
theorem shrI32 (g : Option Guard) (d : Nat) (a : Nat) (b : Nat) : Statement (.shrI32 g d a b) := by
  rintro c f - h; cases h; rfl
theorem shliB32 (g : Option Guard) (d : Nat) (a : Nat) (imm : Word) : Statement (.shliB32 g d a imm) := by
  rintro c f - h; cases h; simp [instrOf, instrOf3]
theorem shriN32 (g : Option Guard) (d : Nat) (a : Nat) (imm : Word) : Statement (.shriN32 g d a imm) := by
  rintro c f - h; cases h; simp [instrOf, instrOf3]
theorem shriI32 (g : Option Guard) (d : Nat) (a : Nat) (imm : Word) : Statement (.shriI32 g d a imm) := by
  rintro c f - h; cases h; simp [instrOf, instrOf3]
theorem bfeN32 (g : Option Guard) (d : Nat) (a : Nat) (b : Nat) : Statement (.bfeN32 g d a b) := by
  rintro c f - h; cases h; rfl
theorem bfeI32 (g : Option Guard) (d : Nat) (a : Nat) (b : Nat) : Statement (.bfeI32 g d a b) := by
  rintro c f - h; cases h; rfl
theorem bfiB32 (g : Option Guard) (d : Nat) (a : Nat) (b : Nat) : Statement (.bfiB32 g d a b) := by
  rintro c f - h; cases h; rfl
theorem popcB32 (g : Option Guard) (d : Nat) (a : Nat) : Statement (.popcB32 g d a) := by
  rintro c f - h; cases h; rfl
theorem clzB32 (g : Option Guard) (d : Nat) (a : Nat) : Statement (.clzB32 g d a) := by
  rintro c f - h; cases h; rfl
theorem brevB32 (g : Option Guard) (d : Nat) (a : Nat) : Statement (.brevB32 g d a) := by
  rintro c f - h; cases h; rfl
theorem prmtB32 (g : Option Guard) (d : Nat) (a : Nat) (b : Nat) : Statement (.prmtB32 g d a b) := by
  rintro c f - h; cases h; rfl
theorem mulI32 (g : Option Guard) (d : Nat) (a : Nat) (b : Nat) : Statement (.mulI32 g d a b) := by
  rintro c f - h; cases h; rfl
theorem mulhiI32 (g : Option Guard) (d : Nat) (a : Nat) (b : Nat) : Statement (.mulhiI32 g d a b) := by
  rintro c f - h; cases h; rfl
theorem mulhiN32 (g : Option Guard) (d : Nat) (a : Nat) (b : Nat) : Statement (.mulhiN32 g d a b) := by
  rintro c f - h; cases h; rfl
theorem madI32 (g : Option Guard) (d : Nat) (a : Nat) (b : Nat) : Statement (.madI32 g d a b) := by
  rintro c f - h; cases h; rfl
theorem divI32 (g : Option Guard) (d : Nat) (a : Nat) (b : Nat) : Statement (.divI32 g d a b) := by
  rintro c f - h; cases h; rfl
theorem divN32 (g : Option Guard) (d : Nat) (a : Nat) (b : Nat) : Statement (.divN32 g d a b) := by
  rintro c f - h; cases h; rfl
theorem remI32 (g : Option Guard) (d : Nat) (a : Nat) (b : Nat) : Statement (.remI32 g d a b) := by
  rintro c f - h; cases h; rfl
theorem remN32 (g : Option Guard) (d : Nat) (a : Nat) (b : Nat) : Statement (.remN32 g d a b) := by
  rintro c f - h; cases h; rfl
theorem fadd (g : Option Guard) (d : Nat) (a : Nat) (b : Nat) : Statement (.fadd g d a b) := by
  rintro c f - h; cases h; rfl
theorem fsub (g : Option Guard) (d : Nat) (a : Nat) (b : Nat) : Statement (.fsub g d a b) := by
  rintro c f - h; cases h; rfl
theorem fmul (g : Option Guard) (d : Nat) (a : Nat) (b : Nat) : Statement (.fmul g d a b) := by
  rintro c f - h; cases h; rfl
theorem ffma (g : Option Guard) (d : Nat) (a : Nat) (b : Nat) : Statement (.ffma g d a b) := by
  rintro c f - h; cases h; rfl
theorem fmin (g : Option Guard) (d : Nat) (a : Nat) (b : Nat) : Statement (.fmin g d a b) := by
  rintro c f - h; cases h; rfl
theorem fmax (g : Option Guard) (d : Nat) (a : Nat) (b : Nat) : Statement (.fmax g d a b) := by
  rintro c f - h; cases h; rfl
theorem fabs (g : Option Guard) (d : Nat) (a : Nat) : Statement (.fabs g d a) := by
  rintro c f - h; cases h; rfl
theorem fneg (g : Option Guard) (d : Nat) (a : Nat) : Statement (.fneg g d a) := by
  rintro c f - h; cases h; rfl
theorem fdiv (g : Option Guard) (d : Nat) (a : Nat) (b : Nat) : Statement (.fdiv g d a b) := by
  rintro c f - h; cases h; rfl
theorem fsqrt (g : Option Guard) (d : Nat) (a : Nat) : Statement (.fsqrt g d a) := by
  rintro c f - h; cases h; rfl
theorem frcp (g : Option Guard) (d : Nat) (a : Nat) : Statement (.frcp g d a) := by
  rintro c f - h; cases h; rfl
theorem frsq (g : Option Guard) (d : Nat) (a : Nat) : Statement (.frsq g d a) := by
  rintro c f - h; cases h; rfl
theorem fexp2 (g : Option Guard) (d : Nat) (a : Nat) : Statement (.fexp2 g d a) := by
  rintro c f - h; cases h; rfl
theorem flog2 (g : Option Guard) (d : Nat) (a : Nat) : Statement (.flog2 g d a) := by
  rintro c f - h; cases h; rfl
theorem fsin (g : Option Guard) (d : Nat) (a : Nat) : Statement (.fsin g d a) := by
  rintro c f - h; cases h; rfl
theorem fcos (g : Option Guard) (d : Nat) (a : Nat) : Statement (.fcos g d a) := by
  rintro c f - h; cases h; rfl
theorem ftanh (g : Option Guard) (d : Nat) (a : Nat) : Statement (.ftanh g d a) := by
  rintro c f - h; cases h; rfl
theorem frnd (g : Option Guard) (d : Nat) (a : Nat) (rnd : Rnd) : Statement (.frnd g d a rnd) := by
  rintro c f - h; cases h; cases rnd <;> rfl
theorem haddF16 (g : Option Guard) (d : Nat) (a : Nat) (b : Nat) : Statement (.haddF16 g d a b) := by
  rintro c f - h; cases h; rfl
theorem hmulF16 (g : Option Guard) (d : Nat) (a : Nat) (b : Nat) : Statement (.hmulF16 g d a b) := by
  rintro c f - h; cases h; rfl
theorem hfmaF16 (g : Option Guard) (d : Nat) (a : Nat) (b : Nat) : Statement (.hfmaF16 g d a b) := by
  rintro c f - h; cases h; rfl
theorem hminF16 (g : Option Guard) (d : Nat) (a : Nat) (b : Nat) : Statement (.hminF16 g d a b) := by
  rintro c f - h; cases h; rfl
theorem hmaxF16 (g : Option Guard) (d : Nat) (a : Nat) (b : Nat) : Statement (.hmaxF16 g d a b) := by
  rintro c f - h; cases h; rfl
theorem haddBf16 (g : Option Guard) (d : Nat) (a : Nat) (b : Nat) : Statement (.haddBf16 g d a b) := by
  rintro c f - h; cases h; rfl
theorem hmulBf16 (g : Option Guard) (d : Nat) (a : Nat) (b : Nat) : Statement (.hmulBf16 g d a b) := by
  rintro c f - h; cases h; rfl
theorem hfmaBf16 (g : Option Guard) (d : Nat) (a : Nat) (b : Nat) : Statement (.hfmaBf16 g d a b) := by
  rintro c f - h; cases h; rfl
theorem cmpEqI32 (g : Option Guard) (d : Nat) (a : Nat) (b : Nat) : Statement (.cmpEqI32 g d a b) := by
  rintro c f - h; cases h; rfl
theorem cmpNeI32 (g : Option Guard) (d : Nat) (a : Nat) (b : Nat) : Statement (.cmpNeI32 g d a b) := by
  rintro c f - h; cases h; rfl
theorem cmpLtI32 (g : Option Guard) (d : Nat) (a : Nat) (b : Nat) : Statement (.cmpLtI32 g d a b) := by
  rintro c f - h; cases h; rfl
theorem cmpLeI32 (g : Option Guard) (d : Nat) (a : Nat) (b : Nat) : Statement (.cmpLeI32 g d a b) := by
  rintro c f - h; cases h; rfl
theorem cmpGtI32 (g : Option Guard) (d : Nat) (a : Nat) (b : Nat) : Statement (.cmpGtI32 g d a b) := by
  rintro c f - h; cases h; rfl
theorem cmpGeI32 (g : Option Guard) (d : Nat) (a : Nat) (b : Nat) : Statement (.cmpGeI32 g d a b) := by
  rintro c f - h; cases h; rfl
theorem cmpLtN32 (g : Option Guard) (d : Nat) (a : Nat) (b : Nat) : Statement (.cmpLtN32 g d a b) := by
  rintro c f - h; cases h; rfl
theorem cmpLeN32 (g : Option Guard) (d : Nat) (a : Nat) (b : Nat) : Statement (.cmpLeN32 g d a b) := by
  rintro c f - h; cases h; rfl
theorem cmpGtN32 (g : Option Guard) (d : Nat) (a : Nat) (b : Nat) : Statement (.cmpGtN32 g d a b) := by
  rintro c f - h; cases h; rfl
theorem cmpGeN32 (g : Option Guard) (d : Nat) (a : Nat) (b : Nat) : Statement (.cmpGeN32 g d a b) := by
  rintro c f - h; cases h; rfl
theorem fcmpEq (g : Option Guard) (d : Nat) (a : Nat) (b : Nat) : Statement (.fcmpEq g d a b) := by
  rintro c f - h; cases h; rfl
theorem fcmpNe (g : Option Guard) (d : Nat) (a : Nat) (b : Nat) : Statement (.fcmpNe g d a b) := by
  rintro c f - h; cases h; rfl
theorem fcmpLt (g : Option Guard) (d : Nat) (a : Nat) (b : Nat) : Statement (.fcmpLt g d a b) := by
  rintro c f - h; cases h; rfl
theorem fcmpLe (g : Option Guard) (d : Nat) (a : Nat) (b : Nat) : Statement (.fcmpLe g d a b) := by
  rintro c f - h; cases h; rfl
theorem fcmpGt (g : Option Guard) (d : Nat) (a : Nat) (b : Nat) : Statement (.fcmpGt g d a b) := by
  rintro c f - h; cases h; rfl
theorem fcmpGe (g : Option Guard) (d : Nat) (a : Nat) (b : Nat) : Statement (.fcmpGe g d a b) := by
  rintro c f - h; cases h; rfl
theorem fcmpUn (g : Option Guard) (d : Nat) (a : Nat) (b : Nat) : Statement (.fcmpUn g d a b) := by
  rintro c f - h; cases h; rfl
theorem fcmpOr (g : Option Guard) (d : Nat) (a : Nat) (b : Nat) : Statement (.fcmpOr g d a b) := by
  rintro c f - h; cases h; rfl
theorem pand (g : Option Guard) (d : Nat) (a : Nat) (b : Nat) : Statement (.pand g d a b) := by
  rintro c f - h; cases h; rfl
theorem por (g : Option Guard) (d : Nat) (a : Nat) (b : Nat) : Statement (.por g d a b) := by
  rintro c f - h; cases h; rfl
theorem pxor (g : Option Guard) (d : Nat) (a : Nat) (b : Nat) : Statement (.pxor g d a b) := by
  rintro c f - h; cases h; rfl
theorem pandn (g : Option Guard) (d : Nat) (a : Nat) (b : Nat) : Statement (.pandn g d a b) := by
  rintro c f - h; cases h; rfl
theorem pnot (g : Option Guard) (d : Nat) (a : Nat) : Statement (.pnot g d a) := by
  rintro c f - h; cases h; rfl
theorem pmov (g : Option Guard) (d : Nat) (a : Nat) : Statement (.pmov g d a) := by
  rintro c f - h; cases h; rfl
theorem pset (g : Option Guard) (d : Nat) (val : Bool) : Statement (.pset g d val) := by
  rintro c f - h; cases h; simp [instrOf, instrOf10]
theorem voteAny (g : Option Guard) (d : Nat) (a : Nat) : Statement (.voteAny g d a) := by
  rintro c f - h; cases h; rfl
theorem voteAll (g : Option Guard) (d : Nat) (a : Nat) : Statement (.voteAll g d a) := by
  rintro c f - h; cases h; rfl
theorem ballot (g : Option Guard) (d : Nat) (a : Nat) (group : Nat) : Statement (.ballot g d a group) := by
  rintro c f - h; cases h; rfl
theorem pcnt (g : Option Guard) (d : Nat) (a : Nat) : Statement (.pcnt g d a) := by
  rintro c f - h; cases h; rfl
theorem addI64 (g : Option Guard) (d : Nat) (a : Nat) (b : Nat) : Statement (.addI64 g d a b) := by
  rintro c f - h; cases h; rfl
theorem subI64 (g : Option Guard) (d : Nat) (a : Nat) (b : Nat) : Statement (.subI64 g d a b) := by
  rintro c f - h; cases h; rfl
theorem mulI64 (g : Option Guard) (d : Nat) (a : Nat) (b : Nat) : Statement (.mulI64 g d a b) := by
  rintro c f - h; cases h; rfl
theorem shlB64 (g : Option Guard) (d : Nat) (a : Nat) (b : Nat) : Statement (.shlB64 g d a b) := by
  rintro c f - h; cases h; rfl
theorem shrN64 (g : Option Guard) (d : Nat) (a : Nat) (b : Nat) : Statement (.shrN64 g d a b) := by
  rintro c f - h; cases h; rfl
theorem shrI64 (g : Option Guard) (d : Nat) (a : Nat) (b : Nat) : Statement (.shrI64 g d a b) := by
  rintro c f - h; cases h; rfl
theorem andB64 (g : Option Guard) (d : Nat) (a : Nat) (b : Nat) : Statement (.andB64 g d a b) := by
  rintro c f - h; cases h; rfl
theorem orB64 (g : Option Guard) (d : Nat) (a : Nat) (b : Nat) : Statement (.orB64 g d a b) := by
  rintro c f - h; cases h; rfl
theorem xorB64 (g : Option Guard) (d : Nat) (a : Nat) (b : Nat) : Statement (.xorB64 g d a b) := by
  rintro c f - h; cases h; rfl
theorem cmpEqI64 (g : Option Guard) (d : Nat) (a : Nat) (b : Nat) : Statement (.cmpEqI64 g d a b) := by
  rintro c f - h; cases h; rfl
theorem cmpLtI64 (g : Option Guard) (d : Nat) (a : Nat) (b : Nat) : Statement (.cmpLtI64 g d a b) := by
  rintro c f - h; cases h; rfl
theorem cmpLtN64 (g : Option Guard) (d : Nat) (a : Nat) (b : Nat) : Statement (.cmpLtN64 g d a b) := by
  rintro c f - h; cases h; rfl
theorem sxtI64 (g : Option Guard) (d : Nat) (a : Nat) : Statement (.sxtI64 g d a) := by
  rintro c f - h; cases h; rfl
theorem zxtN64 (g : Option Guard) (d : Nat) (a : Nat) : Statement (.zxtN64 g d a) := by
  rintro c f - h; cases h; rfl
theorem truncB32 (g : Option Guard) (d : Nat) (a : Nat) : Statement (.truncB32 g d a) := by
  rintro c f - h; cases h; rfl
theorem sadd (g : Option Guard) (d : Nat) (a : Nat) (b : Nat) : Statement (.sadd g d a b) := by
  rintro c f - h; cases h; rfl
theorem ssub (g : Option Guard) (d : Nat) (a : Nat) (b : Nat) : Statement (.ssub g d a b) := by
  rintro c f - h; cases h; rfl
theorem smul (g : Option Guard) (d : Nat) (a : Nat) (b : Nat) : Statement (.smul g d a b) := by
  rintro c f - h; cases h; rfl
theorem sand (g : Option Guard) (d : Nat) (a : Nat) (b : Nat) : Statement (.sand g d a b) := by
  rintro c f - h; cases h; rfl
theorem sor (g : Option Guard) (d : Nat) (a : Nat) (b : Nat) : Statement (.sor g d a b) := by
  rintro c f - h; cases h; rfl
theorem sxor (g : Option Guard) (d : Nat) (a : Nat) (b : Nat) : Statement (.sxor g d a b) := by
  rintro c f - h; cases h; rfl
theorem sshl (g : Option Guard) (d : Nat) (a : Nat) (b : Nat) : Statement (.sshl g d a b) := by
  rintro c f - h; cases h; rfl
theorem sshr (g : Option Guard) (d : Nat) (a : Nat) (b : Nat) : Statement (.sshr g d a b) := by
  rintro c f - h; cases h; rfl
theorem sminI32 (g : Option Guard) (d : Nat) (a : Nat) (b : Nat) : Statement (.sminI32 g d a b) := by
  rintro c f - h; cases h; rfl
theorem smaxI32 (g : Option Guard) (d : Nat) (a : Nat) (b : Nat) : Statement (.smaxI32 g d a b) := by
  rintro c f - h; cases h; rfl
theorem scmpEq (g : Option Guard) (d : Nat) (a : Nat) (b : Nat) : Statement (.scmpEq g d a b) := by
  rintro c f - h; cases h; rfl
theorem scmpLt (g : Option Guard) (d : Nat) (a : Nat) (b : Nat) : Statement (.scmpLt g d a b) := by
  rintro c f - h; cases h; rfl
theorem xadd (g : Option Guard) (d : Nat) (a : Nat) (b : Nat) : Statement (.xadd g d a b) := by
  rintro c f - h; cases h; rfl
theorem xsub (g : Option Guard) (d : Nat) (a : Nat) (b : Nat) : Statement (.xsub g d a b) := by
  rintro c f - h; cases h; rfl
theorem xshl (g : Option Guard) (d : Nat) (a : Nat) (b : Nat) : Statement (.xshl g d a b) := by
  rintro c f - h; cases h; rfl
theorem xcmpLt (g : Option Guard) (d : Nat) (a : Nat) (b : Nat) : Statement (.xcmpLt g d a b) := by
  rintro c f - h; cases h; rfl
theorem smovi (g : Option Guard) (d : Nat) (imm : Word) : Statement (.smovi g d imm) := by
  rintro c f - h; cases h; simp [instrOf, instrOf13]
theorem xmovi (g : Option Guard) (d : Nat) (imm : Word) : Statement (.xmovi g d imm) := by
  rintro c f - h; cases h; simp [instrOf, instrOf13]
theorem xmovhi (g : Option Guard) (d : Nat) (imm : Word) : Statement (.xmovhi g d imm) := by
  rintro c f - h; cases h; simp [instrOf, instrOf13]
theorem s2v (g : Option Guard) (d : Nat) (a : Nat) : Statement (.s2v g d a) := by
  rintro c f - h; cases h; rfl
theorem v2s (g : Option Guard) (d : Nat) (a : Nat) : Statement (.v2s g d a) := by
  rintro c f - h; cases h; rfl
theorem x2w (g : Option Guard) (d : Nat) (a : Nat) : Statement (.x2w g d a) := by
  rintro c f - h; cases h; rfl
theorem w2x (g : Option Guard) (d : Nat) (a : Nat) : Statement (.w2x g d a) := by
  rintro c f - h; cases h; rfl
theorem cvtF32I32 (g : Option Guard) (d : Nat) (a : Nat) (rnd : Rnd) : Statement (.cvtF32I32 g d a rnd) := by
  rintro c f - h; cases h; cases rnd <;> rfl
theorem cvtI32F32 (g : Option Guard) (d : Nat) (a : Nat) (rnd : Rnd) : Statement (.cvtI32F32 g d a rnd) := by
  rintro c f - h; cases h; cases rnd <;> rfl
theorem cvtF32N32 (g : Option Guard) (d : Nat) (a : Nat) (rnd : Rnd) : Statement (.cvtF32N32 g d a rnd) := by
  rintro c f - h; cases h; cases rnd <;> rfl
theorem cvtN32F32 (g : Option Guard) (d : Nat) (a : Nat) (rnd : Rnd) : Statement (.cvtN32F32 g d a rnd) := by
  rintro c f - h; cases h; cases rnd <;> rfl
theorem cvtF16F32 (g : Option Guard) (d : Nat) (a : Nat) (rnd : Rnd) : Statement (.cvtF16F32 g d a rnd) := by
  rintro c f - h; cases h; cases rnd <;> rfl
theorem cvtBf16F32 (g : Option Guard) (d : Nat) (a : Nat) (rnd : Rnd) : Statement (.cvtBf16F32 g d a rnd) := by
  rintro c f - h; cases h; cases rnd <;> rfl
theorem cvtF8aF32 (g : Option Guard) (d : Nat) (a : Nat) (rnd : Rnd) : Statement (.cvtF8aF32 g d a rnd) := by
  rintro c f - h; cases h; cases rnd <;> rfl
theorem cvtF8bF32 (g : Option Guard) (d : Nat) (a : Nat) (rnd : Rnd) : Statement (.cvtF8bF32 g d a rnd) := by
  rintro c f - h; cases h; cases rnd <;> rfl
theorem pip4Pack (g : Option Guard) (d : Nat) (a : Nat) (rnd : Rnd) : Statement (.pip4Pack g d a rnd) := by
  rintro c f - h; cases h; cases rnd <;> rfl
theorem cvtF32F16 (g : Option Guard) (d : Nat) (a : Nat) : Statement (.cvtF32F16 g d a) := by
  rintro c f - h; cases h; rfl
theorem cvtF32Bf16 (g : Option Guard) (d : Nat) (a : Nat) : Statement (.cvtF32Bf16 g d a) := by
  rintro c f - h; cases h; rfl
theorem cvtF32F8a (g : Option Guard) (d : Nat) (a : Nat) : Statement (.cvtF32F8a g d a) := by
  rintro c f - h; cases h; rfl
theorem cvtF32F8b (g : Option Guard) (d : Nat) (a : Nat) : Statement (.cvtF32F8b g d a) := by
  rintro c f - h; cases h; rfl
theorem pip4Unpack (g : Option Guard) (d : Nat) (a : Nat) : Statement (.pip4Unpack g d a) := by
  rintro c f - h; cases h; rfl
theorem scaleBlk (g : Option Guard) (d : Nat) (a : Nat) (b : Nat) : Statement (.scaleBlk g d a b) := by
  rintro c f - h; cases h; rfl
theorem shflIdx (g : Option Guard) (d : Nat) (a : Nat) (team : Bool) : Statement (.shflIdx g d a team) := by
  rintro c f - h; cases h; cases team <;> simp [instrOf, instrOf15]
theorem shflUp (g : Option Guard) (d : Nat) (a : Nat) (team : Bool) (k : Nat) : Statement (.shflUp g d a team k) := by
  rintro c f - h; cases h; cases team <;> simp [instrOf, instrOf15]; omega
theorem shflDn (g : Option Guard) (d : Nat) (a : Nat) (team : Bool) (k : Nat) : Statement (.shflDn g d a team k) := by
  rintro c f - h; cases h; cases team <;> simp [instrOf, instrOf15]; omega
theorem shflXor (g : Option Guard) (d : Nat) (a : Nat) (team : Bool) (k : Nat) : Statement (.shflXor g d a team k) := by
  rintro c f - h; cases h; cases team <;> simp [instrOf, instrOf15]; omega
theorem redAddI32 (g : Option Guard) (d : Nat) (a : Nat) (team : Bool) : Statement (.redAddI32 g d a team) := by
  rintro c f - h; cases h; cases team <;> simp [instrOf, instrOf15]
theorem redMinI32 (g : Option Guard) (d : Nat) (a : Nat) (team : Bool) : Statement (.redMinI32 g d a team) := by
  rintro c f - h; cases h; cases team <;> simp [instrOf, instrOf15]
theorem redMinN32 (g : Option Guard) (d : Nat) (a : Nat) (team : Bool) : Statement (.redMinN32 g d a team) := by
  rintro c f - h; cases h; cases team <;> simp [instrOf, instrOf15]
theorem redMaxI32 (g : Option Guard) (d : Nat) (a : Nat) (team : Bool) : Statement (.redMaxI32 g d a team) := by
  rintro c f - h; cases h; cases team <;> simp [instrOf, instrOf15]
theorem redFadd (g : Option Guard) (d : Nat) (a : Nat) (team : Bool) : Statement (.redFadd g d a team) := by
  rintro c f - h; cases h; cases team <;> simp [instrOf, instrOf15]
theorem scanAddI32 (g : Option Guard) (d : Nat) (a : Nat) (team : Bool) : Statement (.scanAddI32 g d a team) := by
  rintro c f - h; cases h; cases team <;> simp [instrOf, instrOf15]
theorem bcastL (g : Option Guard) (d : Nat) (a : Nat) (team : Bool) (k : Nat) : Statement (.bcastL g d a team k) := by
  rintro c f - h; cases h; cases team <;> simp [instrOf, instrOf15]; omega
theorem ldB8 (g : Option Guard) (t : Nat) (xb : Nat) (vo : Nat) (disp : Word) : Statement (.ldB8 g t xb vo disp) := by
  rintro c f - h; cases h; simp [instrOf, instrOf16]
theorem ldB16 (g : Option Guard) (t : Nat) (xb : Nat) (vo : Nat) (disp : Word) : Statement (.ldB16 g t xb vo disp) := by
  rintro c f - h; cases h; simp [instrOf, instrOf16]
theorem ldB32 (g : Option Guard) (t : Nat) (xb : Nat) (vo : Nat) (disp : Word) : Statement (.ldB32 g t xb vo disp) := by
  rintro c f - h; cases h; simp [instrOf, instrOf16]
theorem ldB64 (g : Option Guard) (t : Nat) (xb : Nat) (vo : Nat) (disp : Word) : Statement (.ldB64 g t xb vo disp) := by
  rintro c f - h; cases h; simp [instrOf, instrOf16]
theorem ldB128 (g : Option Guard) (t : Nat) (xb : Nat) (vo : Nat) (disp : Word) : Statement (.ldB128 g t xb vo disp) := by
  rintro c f - h; cases h; simp [instrOf, instrOf16]
theorem ldsB32 (g : Option Guard) (t : Nat) (xb : Nat) (disp : Word) : Statement (.ldsB32 g t xb disp) := by
  rintro c f - h; cases h; simp [instrOf, instrOf16]
theorem ldsB64 (g : Option Guard) (t : Nat) (xb : Nat) (disp : Word) : Statement (.ldsB64 g t xb disp) := by
  rintro c f - h; cases h; simp [instrOf, instrOf16]
theorem probe (g : Option Guard) (t : Nat) (xb : Nat) (vo : Nat) (disp : Word) : Statement (.probe g t xb vo disp) := by
  rintro c f - h; cases h; simp [instrOf, instrOf16]
theorem stB8 (g : Option Guard) (t : Nat) (xb : Nat) (vo : Nat) (disp : Word) : Statement (.stB8 g t xb vo disp) := by
  rintro c f - h; cases h; simp [instrOf, instrOf17]
theorem stB16 (g : Option Guard) (t : Nat) (xb : Nat) (vo : Nat) (disp : Word) : Statement (.stB16 g t xb vo disp) := by
  rintro c f - h; cases h; simp [instrOf, instrOf17]
theorem stB32 (g : Option Guard) (t : Nat) (xb : Nat) (vo : Nat) (disp : Word) : Statement (.stB32 g t xb vo disp) := by
  rintro c f - h; cases h; simp [instrOf, instrOf17]
theorem stB64 (g : Option Guard) (t : Nat) (xb : Nat) (vo : Nat) (disp : Word) : Statement (.stB64 g t xb vo disp) := by
  rintro c f - h; cases h; simp [instrOf, instrOf17]
theorem stB128 (g : Option Guard) (t : Nat) (xb : Nat) (vo : Nat) (disp : Word) : Statement (.stB128 g t xb vo disp) := by
  rintro c f - h; cases h; simp [instrOf, instrOf17]
theorem stsB32 (g : Option Guard) (t : Nat) (xb : Nat) (disp : Word) : Statement (.stsB32 g t xb disp) := by
  rintro c f - h; cases h; simp [instrOf, instrOf17]
theorem stsB64 (g : Option Guard) (t : Nat) (xb : Nat) (disp : Word) : Statement (.stsB64 g t xb disp) := by
  rintro c f - h; cases h; simp [instrOf, instrOf17]
theorem atomAddI32 (t : Nat) (xb : Nat) (vo : Nat) (order : Order) (scope : Scope) (sc : Bool) (nr : Bool) : Statement (.atomAddI32 t xb vo order scope sc nr) := by
  rintro c f - h; cases h; cases order <;> cases scope <;> cases sc <;> cases nr <;> simp [instrOf, instrOf18, Order.toCode, Scope.toCode, Order.ofCode, Scope.ofCode]
theorem atomAddF32 (t : Nat) (xb : Nat) (vo : Nat) (order : Order) (scope : Scope) (sc : Bool) (nr : Bool) : Statement (.atomAddF32 t xb vo order scope sc nr) := by
  rintro c f - h; cases h; cases order <;> cases scope <;> cases sc <;> cases nr <;> simp [instrOf, instrOf18, Order.toCode, Scope.toCode, Order.ofCode, Scope.ofCode]
theorem atomMinI32 (t : Nat) (xb : Nat) (vo : Nat) (order : Order) (scope : Scope) (sc : Bool) (nr : Bool) : Statement (.atomMinI32 t xb vo order scope sc nr) := by
  rintro c f - h; cases h; cases order <;> cases scope <;> cases sc <;> cases nr <;> simp [instrOf, instrOf18, Order.toCode, Scope.toCode, Order.ofCode, Scope.ofCode]
theorem atomMinN32 (t : Nat) (xb : Nat) (vo : Nat) (order : Order) (scope : Scope) (sc : Bool) (nr : Bool) : Statement (.atomMinN32 t xb vo order scope sc nr) := by
  rintro c f - h; cases h; cases order <;> cases scope <;> cases sc <;> cases nr <;> simp [instrOf, instrOf18, Order.toCode, Scope.toCode, Order.ofCode, Scope.ofCode]
theorem atomMaxI32 (t : Nat) (xb : Nat) (vo : Nat) (order : Order) (scope : Scope) (sc : Bool) (nr : Bool) : Statement (.atomMaxI32 t xb vo order scope sc nr) := by
  rintro c f - h; cases h; cases order <;> cases scope <;> cases sc <;> cases nr <;> simp [instrOf, instrOf18, Order.toCode, Scope.toCode, Order.ofCode, Scope.ofCode]
theorem atomMaxN32 (t : Nat) (xb : Nat) (vo : Nat) (order : Order) (scope : Scope) (sc : Bool) (nr : Bool) : Statement (.atomMaxN32 t xb vo order scope sc nr) := by
  rintro c f - h; cases h; cases order <;> cases scope <;> cases sc <;> cases nr <;> simp [instrOf, instrOf18, Order.toCode, Scope.toCode, Order.ofCode, Scope.ofCode]
theorem atomAnd (t : Nat) (xb : Nat) (vo : Nat) (order : Order) (scope : Scope) (sc : Bool) (nr : Bool) : Statement (.atomAnd t xb vo order scope sc nr) := by
  rintro c f - h; cases h; cases order <;> cases scope <;> cases sc <;> cases nr <;> simp [instrOf, instrOf18, Order.toCode, Scope.toCode, Order.ofCode, Scope.ofCode]
theorem atomOr (t : Nat) (xb : Nat) (vo : Nat) (order : Order) (scope : Scope) (sc : Bool) (nr : Bool) : Statement (.atomOr t xb vo order scope sc nr) := by
  rintro c f - h; cases h; cases order <;> cases scope <;> cases sc <;> cases nr <;> simp [instrOf, instrOf18, Order.toCode, Scope.toCode, Order.ofCode, Scope.ofCode]
theorem atomXor (t : Nat) (xb : Nat) (vo : Nat) (order : Order) (scope : Scope) (sc : Bool) (nr : Bool) : Statement (.atomXor t xb vo order scope sc nr) := by
  rintro c f - h; cases h; cases order <;> cases scope <;> cases sc <;> cases nr <;> simp [instrOf, instrOf18, Order.toCode, Scope.toCode, Order.ofCode, Scope.ofCode]
theorem atomXchg (t : Nat) (xb : Nat) (vo : Nat) (order : Order) (scope : Scope) (sc : Bool) (nr : Bool) : Statement (.atomXchg t xb vo order scope sc nr) := by
  rintro c f - h; cases h; cases order <;> cases scope <;> cases sc <;> cases nr <;> simp [instrOf, instrOf18, Order.toCode, Scope.toCode, Order.ofCode, Scope.ofCode]
theorem atomCas (t : Nat) (xb : Nat) (vo : Nat) (order : Order) (scope : Scope) (sc : Bool) (nr : Bool) : Statement (.atomCas t xb vo order scope sc nr) := by
  rintro c f - h; cases h; cases order <;> cases scope <;> cases sc <;> cases nr <;> simp [instrOf, instrOf18, Order.toCode, Scope.toCode, Order.ofCode, Scope.ofCode]
theorem atomAddI64 (t : Nat) (xb : Nat) (vo : Nat) (order : Order) (scope : Scope) (sc : Bool) (nr : Bool) : Statement (.atomAddI64 t xb vo order scope sc nr) := by
  rintro c f - h; cases h; cases order <;> cases scope <;> cases sc <;> cases nr <;> simp [instrOf, instrOf18, Order.toCode, Scope.toCode, Order.ofCode, Scope.ofCode]
theorem atomCasI64 (t : Nat) (xb : Nat) (vo : Nat) (order : Order) (scope : Scope) (sc : Bool) (nr : Bool) : Statement (.atomCasI64 t xb vo order scope sc nr) := by
  rintro c f - h; cases h; cases order <;> cases scope <;> cases sc <;> cases nr <;> simp [instrOf, instrOf18, Order.toCode, Scope.toCode, Order.ofCode, Scope.ofCode]
theorem ldAcq (t : Nat) (xb : Nat) (vo : Nat) (order : Order) (scope : Scope) (sc : Bool) (nr : Bool) : Statement (.ldAcq t xb vo order scope sc nr) := by
  rintro c f - h; cases h; cases order <;> cases scope <;> cases sc <;> cases nr <;> simp [instrOf, instrOf18, Order.toCode, Scope.toCode, Order.ofCode, Scope.ofCode]
theorem stRel (t : Nat) (xb : Nat) (vo : Nat) (order : Order) (scope : Scope) (sc : Bool) (nr : Bool) : Statement (.stRel t xb vo order scope sc nr) := by
  rintro c f - h; cases h; cases order <;> cases scope <;> cases sc <;> cases nr <;> simp [instrOf, instrOf18, Order.toCode, Scope.toCode, Order.ofCode, Scope.ofCode]
theorem atomIncN32 (t : Nat) (xb : Nat) (vo : Nat) (order : Order) (scope : Scope) (sc : Bool) (nr : Bool) : Statement (.atomIncN32 t xb vo order scope sc nr) := by
  rintro c f - h; cases h; cases order <;> cases scope <;> cases sc <;> cases nr <;> simp [instrOf, instrOf18, Order.toCode, Scope.toCode, Order.ofCode, Scope.ofCode]
theorem fence (g : Option Guard) (scope : Scope) (order : Order) (sc : Bool) : Statement (.fence g scope order sc) := by
  rintro c f - h; cases h; cases scope <;> cases order <;> cases sc <;>
    simp [instrOf, instrOf19, Scope.toCode, Order.toCode, Scope.ofCode, Order.ofCode]
theorem barArrive (g : Option Guard) (a : Nat) (b : Nat) : Statement (.barArrive g a b) := by
  rintro c f - h; cases h; rfl
theorem barWait (g : Option Guard) (a : Nat) : Statement (.barWait g a) := by
  rintro c f - h; cases h; rfl
theorem barSync (g : Option Guard) (a : Nat) (b : Nat) : Statement (.barSync g a b) := by
  rintro c f - h; cases h; rfl
theorem mon (g : Option Guard) (a : Nat) : Statement (.mon g a) := by
  rintro c f - h; cases h; rfl
theorem mwait (g : Option Guard) : Statement (.mwait g) := by
  rintro c f - h; cases h; rfl
theorem waitc (g : Option Guard) (cls : WaitClass) (n : Nat) : Statement (.waitc g cls n) := by
  rintro c f - h; cases h
  have e : ∀ k, k < 4 → (k + 4 * n) % 4 = k ∧ (k + 4 * n) / 4 = n := by omega
  cases cls <;> simp [instrOf, instrOf19, WaitClass.toCode, WaitClass.ofCode, e]
theorem waitb (g : Option Guard) (a : Nat) : Statement (.waitb g a) := by
  rintro c f - h; cases h; rfl
theorem yield (g : Option Guard) : Statement (.yield g) := by
  rintro c f - h; cases h; rfl
theorem nflagMerge (g : Option Guard) (a : Nat) : Statement (.nflagMerge g a) := by
  rintro c f - h; cases h; rfl
theorem cpG2s (g : Option Guard) (a : Nat) : Statement (.cpG2s g a) := by
  rintro c f - h; cases h; rfl
theorem cpS2g (g : Option Guard) (a : Nat) : Statement (.cpS2g g a) := by
  rintro c f - h; cases h; rfl
theorem cpG2g (g : Option Guard) (a : Nat) : Statement (.cpG2g g a) := by
  rintro c f - h; cases h; rfl
theorem cpTile (g : Option Guard) (a : Nat) : Statement (.cpTile g a) := by
  rintro c f - h; cases h; rfl
theorem cpRed (g : Option Guard) (a : Nat) : Statement (.cpRed g a) := by
  rintro c f - h; cases h; rfl
theorem cpGather (g : Option Guard) (a : Nat) (b : Nat) : Statement (.cpGather g a b) := by
  rintro c f - h; cases h; rfl
theorem cpClose (g : Option Guard) (d : Nat) : Statement (.cpClose g d) := by
  rintro c f - h; cases h; rfl
theorem cpStamp (g : Option Guard) (a : Nat) (scope : Scope) : Statement (.cpStamp g a scope) := by
  rintro c f - h; cases h; cases scope <;> rfl
theorem trkOpen (g : Option Guard) (d : Nat) (a : Nat) (b : Nat) : Statement (.trkOpen g d a b) := by
  rintro c f - h; cases h; rfl
theorem trkWfill (g : Option Guard) (a : Nat) (b : Nat) : Statement (.trkWfill g a b) := by
  rintro c f - h; cases h; rfl
theorem trkWfree (g : Option Guard) (a : Nat) (b : Nat) : Statement (.trkWfree g a b) := by
  rintro c f - h; cases h; rfl
theorem trkAdvP (g : Option Guard) (a : Nat) (b : Nat) : Statement (.trkAdvP g a b) := by
  rintro c f - h; cases h; rfl
theorem trkAdvC (g : Option Guard) (a : Nat) (b : Nat) : Statement (.trkAdvC g a b) := by
  rintro c f - h; cases h; rfl
theorem trkClose (g : Option Guard) (a : Nat) : Statement (.trkClose g a) := by
  rintro c f - h; cases h; rfl
theorem trkState (g : Option Guard) (d : Nat) (a : Nat) : Statement (.trkState g d a) := by
  rintro c f - h; cases h; rfl
theorem obRsv (g : Option Guard) (d : Nat) (a : Nat) : Statement (.obRsv g d a) := by
  rintro c f - h; cases h; rfl
theorem obRel (g : Option Guard) (a : Nat) : Statement (.obRel g a) := by
  rintro c f - h; cases h; rfl
theorem obFill (g : Option Guard) (a : Nat) (b : Nat) : Statement (.obFill g a b) := by
  rintro c f - h; cases h; rfl
theorem obInfo (g : Option Guard) (d : Nat) (a : Nat) : Statement (.obInfo g d a) := by
  rintro c f - h; cases h; rfl
theorem unfCfg (g : Option Guard) (a : Nat) : Statement (.unfCfg g a) := by
  rintro c f - h; cases h; rfl
theorem mma (g : Option Guard) (d : Nat) (a : Nat) (b : Nat) : Statement (.mma g d a b) := by
  rintro c f - h; cases h; rfl
theorem mmaZ (g : Option Guard) (d : Nat) (a : Nat) (b : Nat) : Statement (.mmaZ g d a b) := by
  rintro c f - h; cases h; rfl
theorem accAlloc (g : Option Guard) (d : Nat) (a : Nat) : Statement (.accAlloc g d a) := by
  rintro c f - h; cases h; rfl
theorem accFree (g : Option Guard) (a : Nat) : Statement (.accFree g a) := by
  rintro c f - h; cases h; rfl
theorem accRd (g : Option Guard) (d : Nat) (a : Nat) (b : Nat) : Statement (.accRd g d a b) := by
  rintro c f - h; cases h; rfl
theorem accWr (g : Option Guard) (d : Nat) (a : Nat) (b : Nat) : Statement (.accWr g d a b) := by
  rintro c f - h; cases h; rfl
theorem accZero (g : Option Guard) (a : Nat) : Statement (.accZero g a) := by
  rintro c f - h; cases h; rfl
theorem accSt (g : Option Guard) (d : Nat) (a : Nat) (b : Nat) : Statement (.accSt g d a b) := by
  rintro c f - h; cases h; rfl
theorem accPatch (g : Option Guard) (d : Nat) (a : Nat) (b : Nat) : Statement (.accPatch g d a b) := by
  rintro c f - h; cases h; rfl
theorem accFlags (g : Option Guard) (d : Nat) (a : Nat) : Statement (.accFlags g d a) := by
  rintro c f - h; cases h; rfl
theorem bra (c : Guard) (off : BitVec 19) : Statement (.bra c off) := by
  rintro c f - h; cases h; simp [instrOf, instrOf25]
theorem bru (c : Guard) (off : BitVec 19) : Statement (.bru c off) := by
  rintro c f - h; cases h; simp [instrOf, instrOf25]
theorem dvg (c : Guard) (off : BitVec 19) : Statement (.dvg c off) := by
  rintro c f - h; cases h; simp [instrOf, instrOf25]
theorem cnv : Statement (.cnv) := by
  rintro c f - h; cases h; rfl
theorem brk (c : Guard) : Statement (.brk c) := by
  rintro c f - h; cases h; rfl
theorem call (c : Guard) (off : BitVec 19) : Statement (.call c off) := by
  rintro c f - h; cases h; simp [instrOf, instrOf25]
theorem extRet : Statement (.extRet) := by
  rintro c f - h; cases h; rfl
theorem extExit : Statement (.extExit) := by
  rintro c f - h; cases h; rfl
theorem extCalli (a : Nat) : Statement (.extCalli a) := by
  rintro c f - h; cases h; rfl
theorem extJmpi (a : Nat) : Statement (.extJmpi a) := by
  rintro c f - h; cases h; rfl
theorem ovld (g : Option Guard) (d : Nat) (a : Nat) (bank : Bank) : Statement (.ovld g d a bank) := by
  rintro c f - h; cases h; cases bank <;> rfl
theorem ovwait (g : Option Guard) (d : Nat) (a : Nat) : Statement (.ovwait g d a) := by
  rintro c f - h; cases h; rfl
theorem ifence (g : Option Guard) : Statement (.ifence g) := by
  rintro c f - h; cases h; rfl
theorem bswap (g : Option Guard) (a : Nat) : Statement (.bswap g a) := by
  rintro c f - h; cases h; rfl
theorem calt (g : Option Guard) (a : Nat) (b : Nat) : Statement (.calt g a b) := by
  rintro c f - h; cases h; rfl
theorem ovrel (g : Option Guard) (a : Nat) : Statement (.ovrel g a) := by
  rintro c f - h; cases h; rfl
theorem lch (g : Option Guard) (d : Nat) (a : Nat) : Statement (.lch g d a) := by
  rintro c f - h; cases h; rfl
theorem cjoin (g : Option Guard) (a : Nat) : Statement (.cjoin g a) := by
  rintro c f - h; cases h; rfl
theorem lstat (g : Option Guard) (d : Nat) (a : Nat) : Statement (.lstat g d a) := by
  rintro c f - h; cases h; rfl
theorem tgOpen (g : Option Guard) (h : Nat) : Statement (.tgOpen g h) := by
  rintro c f - h; cases h; rfl
theorem tstB32 (g : Option Guard) (t : Nat) (xb : Nat) (vo : Nat) (h : Nat) : Statement (.tstB32 g t xb vo h) := by
  rintro c f - h; cases h; rfl
theorem tstB64 (g : Option Guard) (t : Nat) (xb : Nat) (vo : Nat) (h : Nat) : Statement (.tstB64 g t xb vo h) := by
  rintro c f - h; cases h; rfl
theorem tstB128 (g : Option Guard) (t : Nat) (xb : Nat) (vo : Nat) (h : Nat) : Statement (.tstB128 g t xb vo h) := by
  rintro c f - h; cases h; rfl
theorem tgCommit (g : Option Guard) (h : Nat) : Statement (.tgCommit g h) := by
  rintro c f - h; cases h; rfl
theorem tgAbort (g : Option Guard) (h : Nat) : Statement (.tgAbort g h) := by
  rintro c f - h; cases h; rfl
theorem tgWait (g : Option Guard) (t : Nat) (h : Nat) : Statement (.tgWait g t h) := by
  rintro c f - h; cases h; rfl
theorem trap (g : Option Guard) (imm : Word) : Statement (.trap g imm) := by
  rintro c f - h; cases h; simp [instrOf, instrOf29]
theorem tret : Statement (.tret) := by
  rintro c f - h; cases h; rfl
theorem brkpt (g : Option Guard) (imm : Word) : Statement (.brkpt g imm) := by
  rintro c f - h; cases h; simp [instrOf, instrOf29]
theorem mark (g : Option Guard) (imm : Word) : Statement (.mark g imm) := by
  rintro c f - h; cases h; simp [instrOf, instrOf29]
theorem wptSet (g : Option Guard) (a : Nat) (b : Nat) : Statement (.wptSet g a b) := by
  rintro c f - h; cases h; rfl
theorem wptClr (g : Option Guard) (a : Nat) : Statement (.wptClr g a) := by
  rintro c f - h; cases h; rfl
theorem perfRd (g : Option Guard) (d : Nat) (a : Nat) : Statement (.perfRd g d a) := by
  rintro c f - h; cases h; rfl
theorem cfgRd (g : Option Guard) (d : Nat) (a : Nat) : Statement (.cfgRd g d a) := by
  rintro c f - h; cases h; rfl
theorem cfgWr (g : Option Guard) (a : Nat) (b : Nat) : Statement (.cfgWr g a b) := by
  rintro c f - h; cases h; rfl
theorem halt : Statement (.halt) := by
  rintro c f - h; cases h; rfl
theorem illegalEncoding (slot : Nat) (reason : Nat) : Statement (.illegalEncoding slot reason) := by
  intro c f _ h; cases h
theorem deliveryLoadDone (core : Nat) (sub : Nat) (half : Bank) (ok : Bool) : Statement (.deliveryLoadDone core sub half ok) := by
  intro c f _ h; cases h
theorem parkWake (uid : Nat) : Statement (.parkWake uid) := by
  intro c f _ h; cases h
theorem trkAdvanceApply (uid : Nat) (slot : Nat) : Statement (.trkAdvanceApply uid slot) := by
  intro c f _ h; cases h
theorem mmaComplete (uid : Nat) (seq : Nat) : Statement (.mmaComplete uid seq) := by
  intro c f _ h; cases h
theorem accStComplete (uid : Nat) (seq : Nat) : Statement (.accStComplete uid seq) := by
  intro c f _ h; cases h
theorem batchComplete (uid : Nat) (op : Option Nat) : Statement (.batchComplete uid op) := by
  intro c f _ h; cases h
theorem gatherComplete (uid : Nat) (id : Nat) : Statement (.gatherComplete uid id) := by
  intro c f _ h; cases h
theorem stampWrite (uid : Nat) : Statement (.stampWrite uid) := by
  intro c f _ h; cases h
theorem cpredSegmentApply (uid : Nat) (id : Nat) (k : Nat) : Statement (.cpredSegmentApply uid id k) := by
  intro c f _ h; cases h
theorem copyAbandon (uid : Nat) (id : Nat) (elem : Nat) (part : Nat × Nat) : Statement (.copyAbandon uid id elem part) := by
  intro c f _ h; cases h
theorem engineWatchSuspend (uid : Nat) (kind : Nat) (id : Nat) : Statement (.engineWatchSuspend uid kind id) := by
  intro c f _ h; cases h
theorem teamRetire (uid : Nat) : Statement (.teamRetire uid) := by
  intro c f _ h; cases h
theorem quantumExpiry (core : Nat) (sub : Nat) : Statement (.quantumExpiry core sub) := by
  intro c f _ h; cases h
theorem preemptRequest (crew : Nat) (why : Nat) : Statement (.preemptRequest crew why) := by
  intro c f _ h; cases h
theorem crewSaveDone (crew : Nat) : Statement (.crewSaveDone crew) := by
  intro c f _ h; cases h
theorem crewRestore (crew : Nat) (subs : List (Nat × Nat)) : Statement (.crewRestore crew subs) := by
  intro c f _ h; cases h
theorem launchWindowWrite (fn : Nat) (offset : Nat) (bytes : List Byte) : Statement (.launchWindowWrite fn offset bytes) := by
  intro c f _ h; cases h
theorem launchReady (launch : Nat) : Statement (.launchReady launch) := by
  intro c f _ h; cases h
theorem crewPlace (launch : Nat) (core : Nat) (sub : Nat) : Statement (.crewPlace launch core sub) := by
  intro c f _ h; cases h
theorem tablePlace (launch : Nat) (board : Nat) (subs : List (Nat × Nat)) : Statement (.tablePlace launch board subs) := by
  intro c f _ h; cases h
theorem entryFillDone (core : Nat) (sub : Nat) (ok : Bool) : Statement (.entryFillDone core sub ok) := by
  intro c f _ h; cases h
theorem launchComplete (launch : Nat) : Statement (.launchComplete launch) := by
  intro c f _ h; cases h
theorem overlayLoadStart (core : Nat) (sub : Nat) (half : Bank) : Statement (.overlayLoadStart core sub half) := by
  intro c f _ h; cases h
theorem overlayLoadDone (core : Nat) (sub : Nat) (half : Bank) (ok : Bool) : Statement (.overlayLoadDone core sub half ok) := by
  intro c f _ h; cases h
theorem forcedReclaim (core : Nat) (sub : Nat) (half : Bank) : Statement (.forcedReclaim core sub half) := by
  intro c f _ h; cases h
theorem translationDone (work : Translated) : Statement (.translationDone work) := by
  intro c f _ h; cases h
theorem reoptSetComplete (fn : Nat) (work : Translated) : Statement (.reoptSetComplete fn work) := by
  intro c f _ h; cases h
theorem regionRollback (uid : Nat) (kind : Nat) : Statement (.regionRollback uid kind) := by
  intro c f _ h; cases h
theorem prqEntryGrant : Statement (.prqEntryGrant) := by
  intro c f _ h; cases h
theorem prresp (fn : Nat) (hyper : Bool) (value : Word64) : Statement (.prresp fn hyper value) := by
  intro c f _ h; cases h
theorem probeReplay (uid : Nat) : Statement (.probeReplay uid) := by
  intro c f _ h; cases h
theorem prqhead (fn : Nat) (hyper : Bool) (value : Word64) : Statement (.prqhead fn hyper value) := by
  intro c f _ h; cases h
theorem prqbase (fn : Nat) (hyper : Bool) (value : Word64) : Statement (.prqbase fn hyper value) := by
  intro c f _ h; cases h
theorem inval (fn : Nat) (value : Word64) : Statement (.inval fn value) := by
  intro c f _ h; cases h
theorem flog0 (fn : Nat) (value : Word64) : Statement (.flog0 fn value) := by
  intro c f _ h; cases h
theorem trhead (fn : Nat) (value : Word64) : Statement (.trhead fn value) := by
  intro c f _ h; cases h
theorem brdcfg (board : Nat) (value : Word64) : Statement (.brdcfg board value) := by
  intro c f _ h; cases h
theorem sgcfg (group : Nat) (value : Word64) : Statement (.sgcfg group value) := by
  intro c f _ h; cases h
theorem s2base (fn : Nat) (value : Word64) : Statement (.s2base fn value) := by
  intro c f _ h; cases h
theorem s2bound (fn : Nat) (value : Word64) : Statement (.s2bound fn value) := by
  intro c f _ h; cases h
theorem quota (fn : Nat) (value : Word64) : Statement (.quota fn value) := by
  intro c f _ h; cases h
theorem vfEnable (fn : Nat) : Statement (.vfEnable fn) := by
  intro c f _ h; cases h
theorem vfScrubDone (fn : Nat) : Statement (.vfScrubDone fn) := by
  intro c f _ h; cases h
theorem vfReset (fn : Nat) : Statement (.vfReset fn) := by
  intro c f _ h; cases h
theorem vfResetDone (fn : Nat) : Statement (.vfResetDone fn) := by
  intro c f _ h; cases h
theorem vfFlr (fn : Nat) : Statement (.vfFlr fn) := by
  intro c f _ h; cases h
theorem sliceExpiry (board : Nat) : Statement (.sliceExpiry board) := by
  intro c f _ h; cases h
theorem sliceStart (board : Nat) : Statement (.sliceStart board) := by
  intro c f _ h; cases h
theorem rate (fn : Nat) (arb : Nat) (value : Word64) : Statement (.rate fn arb value) := by
  intro c f _ h; cases h
theorem bucketRefill (arb : Nat) (inst : Nat) : Statement (.bucketRefill arb inst) := by
  intro c f _ h; cases h
theorem imgLoad (fn : Nat) : Statement (.imgLoad fn) := by
  intro c f _ h; cases h
theorem imgLoadDone (load : Nat × Nat) : Statement (.imgLoadDone load) := by
  intro c f _ h; cases h
theorem imgUnload (fn : Nat) (image : Nat) : Statement (.imgUnload fn image) := by
  intro c f _ h; cases h
theorem imgUnloadDone (fn : Nat) : Statement (.imgUnloadDone fn) := by
  intro c f _ h; cases h
theorem keySlotWrite (slot : Nat) (first : Word64) (rest : List Word64) : Statement (.keySlotWrite slot first rest) := by
  intro c f _ h; cases h
theorem powerOn : Statement (.powerOn) := by
  intro c f _ h; cases h
theorem bootPhaseAdvance (fail : Nat) : Statement (.bootPhaseAdvance fail) := by
  intro c f _ h; cases h
theorem devrst (value : Word64) : Statement (.devrst value) := by
  intro c f _ h; cases h
theorem pcieReset : Statement (.pcieReset) := by
  intro c f _ h; cases h
theorem getVersion (transport : Nat) : Statement (.getVersion transport) := by
  intro c f _ h; cases h
theorem getCapabilities (transport : Nat) (version : Nat) : Statement (.getCapabilities transport version) := by
  intro c f _ h; cases h
theorem negotiateAlgorithms (transport : Nat) : Statement (.negotiateAlgorithms transport) := by
  intro c f _ h; cases h
theorem getDigests (transport : Nat) : Statement (.getDigests transport) := by
  intro c f _ h; cases h
theorem getCertificate (transport : Nat) (slot : Nat) : Statement (.getCertificate transport slot) := by
  intro c f _ h; cases h
theorem challenge (transport : Nat) (nonce : Nat) : Statement (.challenge transport nonce) := by
  intro c f _ h; cases h
theorem getMeasurements (transport : Nat) (index : Nat) (nonce : Nat) : Statement (.getMeasurements transport index nonce) := by
  intro c f _ h; cases h
theorem spdmUnsupportedRequest (transport : Nat) : Statement (.spdmUnsupportedRequest transport) := by
  intro c f _ h; cases h
theorem mctpControl (command : Nat) (arg : Nat) : Statement (.mctpControl command arg) := by
  intro c f _ h; cases h
theorem pldmMonitoring (sensor : Nat) (cap : Option Nat) : Statement (.pldmMonitoring sensor cap) := by
  intro c f _ h; cases h
theorem pldmFirmwareUpdate : Statement .pldmFirmwareUpdate := by
  intro c f _ h; cases h
theorem vendorResetMessage : Statement (.vendorResetMessage) := by
  intro c f _ h; cases h
theorem ckptSave : Statement (.ckptSave) := by
  intro c f _ h; cases h
theorem ckptRestore : Statement (.ckptRestore) := by
  intro c f _ h; cases h
theorem ckptDone (err : Nat) : Statement (.ckptDone err) := by
  intro c f _ h; cases h
theorem errorDetect (unit : Nat) (num : Nat) (cls : ErrClass) (place : ErrPlace) : Statement (.errorDetect unit num cls place) := by
  intro c f _ h; cases h
theorem selfTestDone (unit : Nat) (num : Nat) (lasting : Bool) (share : Option Nat) : Statement (.selfTestDone unit num lasting share) := by
  intro c f _ h; cases h
theorem errcnt (value : Word64) : Statement (.errcnt value) := by
  intro c f _ h; cases h
theorem l2Writeback (granule : Nat) : Statement (.l2Writeback granule) := by
  intro c f _ h; cases h
theorem reencryptDone (level : Nat) (num : Nat) : Statement (.reencryptDone level num) := by
  intro c f _ h; cases h
theorem fabid (value : Word64) : Statement (.fabid value) := by
  intro c f _ h; cases h
theorem planemap (value : Word64) : Statement (.planemap value) := by
  intro c f _ h; cases h
theorem planemapApply : Statement (.planemapApply) := by
  intro c f _ h; cases h
theorem linkEnable (link : Nat) (value : Word64) : Statement (.linkEnable link value) := by
  intro c f _ h; cases h
theorem linkUp (link : Nat) (nodes : List Nat) : Statement (.linkUp link nodes) := by
  intro c f _ h; cases h
theorem linkDown (link : Nat) : Statement (.linkDown link) := by
  intro c f _ h; cases h
theorem flitReceive (link : Nat) (flit : List Byte) (room : Bool) : Statement (.flitReceive link flit room) := by
  intro c f _ h; cases h
theorem nackReceive (link : Nat) (seq : Nat) : Statement (.nackReceive link seq) := by
  intro c f _ h; cases h
theorem planeWaitTimeout (id : Nat) : Statement (.planeWaitTimeout id) := by
  intro c f _ h; cases h
theorem fabricRequestReceive (port : Nat × Nat) (fn : Nat) (id : Nat) (raddr : Nat) (op : RemoteOp) (release : Option Nat) :
    Statement (.fabricRequestReceive port fn id raddr op release) := by
  intro c f _ h; cases h
theorem fabricResponseReceive (id : Nat) (answer : RemoteAnswer) : Statement (.fabricResponseReceive id answer) := by
  intro c f _ h; cases h
theorem fabricReleasePerform (node : Nat) (id : Nat) : Statement (.fabricReleasePerform node id) := by
  intro c f _ h; cases h
theorem releaseCountTimeout (node : Nat) (id : Nat) : Statement (.releaseCountTimeout node id) := by
  intro c f _ h; cases h
theorem streamReset (fn : Nat) (node : Nat) (base : Nat) : Statement (.streamReset fn node base) := by
  intro c f _ h; cases h
theorem stgq (fn : Nat) (value : Word64) : Statement (.stgq fn value) := by
  intro c f _ h; cases h
theorem stagedStoreReceive (gid : GroupId) (src : Nat) (raddr : Nat) (data : List Byte) : Statement (.stagedStoreReceive gid src raddr data) := by
  intro c f _ h; cases h
theorem prepare (gid : GroupId) (src : Nat) (count : Nat) (dests : List Nat) : Statement (.prepare gid src count dests) := by
  intro c f _ h; cases h
theorem ready (gid : GroupId) (src : Nat) : Statement (.ready gid src) := by
  intro c f _ h; cases h
theorem refuse (gid : GroupId) (src : Nat) (reason : Nat) : Statement (.refuse gid src reason) := by
  intro c f _ h; cases h
theorem commit (gid : GroupId) : Statement (.commit gid) := by
  intro c f _ h; cases h
theorem abort (gid : GroupId) : Statement (.abort gid) := by
  intro c f _ h; cases h
theorem acknowledge (gid : GroupId) (src : Nat) (reset : Bool) : Statement (.acknowledge gid src reset) := by
  intro c f _ h; cases h
theorem forget (gid : GroupId) : Statement (.forget gid) := by
  intro c f _ h; cases h
theorem query (gid : GroupId) (src : Nat) : Statement (.query gid src) := by
  intro c f _ h; cases h
theorem queryAnswer (gid : GroupId) (src : Nat) (committed : Bool) : Statement (.queryAnswer gid src committed) := by
  intro c f _ h; cases h
theorem tgresolve (value : Word64) : Statement (.tgresolve value) := by
  intro c f _ h; cases h
theorem nodeLost (node : Nat) : Statement (.nodeLost node) := by
  intro c f _ h; cases h
theorem peerFetchRequest (node : Nat) (fn : Nat) (imgid : Nat) (split : Nat) (xver : Nat) (domain : Nat) : Statement (.peerFetchRequest node fn imgid split xver domain) := by
  intro c f _ h; cases h
theorem peerFetchReceive (fn node imgid split xver domain : Nat) (sent : PeerSent) :
    Statement (.peerFetchReceive fn node imgid split xver domain sent) := by
  intro c f _ h; cases h
theorem configRegisterWrite (a : CfgAccess) (value : Word64) : Statement (.configRegisterWrite a value) := by
  intro c f _ h; cases h
theorem peerFetchTimeout (set : Nat) : Statement (.peerFetchTimeout set) := by
  intro c f _ h; cases h

end Sys2Proof.Laws.FieldsDecode
end

