-- ==== Sys2Proof/Tests/Slice0.lean ====
section
/-! SUPPORT. Tests: what the encoding refuses, words written out from the encoding tables, one step on a small state, and for
each statement a state and operands that meet its hypotheses. Expected values are worked out by hand from the rules cited. -/

namespace Sys2Proof.Tests
open Sys2Proof Sys2Proof.Machine
set_option Elab.async false

/-! ### Ill-formed terms, one for each check of `Instr.wf` -/

/-- A kernel that declares sixteen registers of each class. -/
def sixteen : Counts := ⟨16, 16, 16, 16⟩

theorem test_wf_guards :
    Instr.wf sixteen (.mov (some ⟨false, 16⟩) 1 2) = false ∧ Instr.wf sixteen (.mov (some ⟨false, 15⟩) 1 2) = true ∧
    Instr.wf sixteen (.sadd (some ⟨false, 8⟩) 1 2 3) = false ∧ Instr.wf sixteen (.sadd (some ⟨true, 7⟩) 1 2 3) = true ∧
    Instr.wf sixteen (.rdsp (some ⟨false, 8⟩) 1 .team) = false ∧ Instr.wf sixteen (.rdsp (some ⟨false, 8⟩) 1 .srseed) = true ∧
    Instr.wf sixteen (.bru ⟨false, 8⟩ 0) = false ∧ Instr.wf sixteen (.bra ⟨false, 16⟩ 0) = false := by decide

theorem test_wf_registers :
    Instr.wf sixteen (.mov none 16 2) = false ∧ Instr.wf sixteen (.addI64 none 1 16 2) = false ∧
    Instr.wf sixteen (.sadd none 1 2 16) = false ∧ Instr.wf sixteen (.xadd none 16 1 2) = false ∧
    Instr.wf sixteen (.pand none 16 1 2) = false ∧ Instr.wf sixteen (.scmpEq none 8 1 2) = false ∧
    Instr.wf sixteen (.accFree none 64) = false ∧ Instr.wf sixteen (.trkClose none 16) = false ∧
    Instr.wf sixteen (.obRel none 32) = false ∧ Instr.wf sixteen (.ovrel none 16) = false ∧
    Instr.wf sixteen (.tgOpen none 16) = false ∧ Instr.wf Counts.max (.ldB32 none 1 32 0 0) = false ∧
    Instr.wf sixteen (.ldB128 none 13 0 0 0) = false ∧ Instr.wf sixteen (.ldB128 none 12 0 0 0) = true ∧
    Instr.wf sixteen (.atomCas 15 0 0 .relaxed .crew false false) = false ∧
    Instr.wf sixteen (.atomCasI64 15 0 0 .relaxed .crew false false) = false := by decide

theorem test_wf_special_registers :
    Instr.wf sixteen (.rdsp none 1 (.tdone 32)) = false ∧ Instr.wf sixteen (.wrsp none 1 .team) = false ∧
    Instr.wf sixteen (.wrsp none 1 .cycles) = true := by decide

/-- What no lender can carry (R34, R35): a wide register with a guard, an immediate past its width, modifier bits beside a wide
register. -/
theorem test_wf_lenders :
    Instr.wf Counts.max (.mov (some ⟨true, 2⟩) 2048 0) = false ∧ Instr.wf Counts.max (.mov (some ⟨false, 1⟩) 2048 0) = true ∧
    Instr.wf Counts.max (.addiI32 (some ⟨true, 2⟩) 1 1 0x4000) = false ∧
    Instr.wf Counts.max (.addiI32 none 1 1 0x4000) = true ∧
    Instr.wf Counts.max (.addiI32 none 128 1 0x4000) = false ∧
    Instr.wf Counts.max (.ldB32 none 128 0 0 2048) = false ∧ Instr.wf Counts.max (.ldB32 none 128 0 0 2047) = true ∧
    Instr.wf Counts.max (.atomAddI32 2048 0 0 .acqRel .crew true false) = false ∧
    Instr.wf Counts.max (.atomAddI32 2047 0 0 .acqRel .crew true false) = true := by decide

/-- Literals and modifiers past their range (R44, R45, R48, R49, R55), and events, which have no encoding. -/
theorem test_wf_literals :
    Instr.wf sixteen (.ballot none 1 1 32) = false ∧ Instr.wf sixteen (.shflUp none 1 1 true 16384) = false ∧
    Instr.wf sixteen (.frnd none 1 2 .sr) = false ∧ Instr.wf sixteen (.cvtF16F32 none 1 2 .ru) = false ∧
    Instr.wf sixteen (.waitc none .gather 8192) = false ∧ Instr.wf sixteen (.fence none .crew .relaxed false) = false ∧
    Instr.wf sixteen (.fence none .crew .acquire true) = false ∧
    Instr.wf sixteen (.atomAddI32 1 0 0 .release .crew true false) = false ∧
    Instr.wf sixteen (.ldAcq 1 0 0 .relaxed .crew false false) = false ∧
    Instr.wf sixteen (.stRel 1 0 0 .release .crew false true) = false ∧ Instr.wf sixteen .powerOn = false := by decide

/-! ### Words written out from R25 to R28 and R42 to R53: major, FN, the fields, G -/

theorem test_decode_nop : decodeTableWord 32 0 = some .nop := by decide +kernel
theorem test_decode_major0 : decodeTableWord 32 0b00000_00011_0000101_0000110_0000111_1 = some (.sel (some ⟨false, 1⟩) 5 6 7) := by
  decide +kernel
/-- rdsp of NLANE, code 0x04 (R56). -/
theorem test_decode_rdsp : decodeTableWord 32 0b00000_00101_0000101_0000000_0000100_0 = some (.rdsp none 5 .nlane) := by
  decide +kernel
theorem test_decode_major1 : decodeTableWord 32 0b00001_01001_0000001_0000010_1111111_0 = some (.andnB32 none 1 2 127) := by
  decide +kernel
/-- A signed immediate of seven bits, −2. -/
theorem test_decode_major2 : decodeTableWord 32 0b00010_00000_0000001_0000010_1111110_0 = some (.addiI32 none 1 2 0xFFFFFFFE) := by
  decide +kernel
theorem test_decode_major3 : decodeTableWord 32 0b00011_00100_0000001_0000010_1111110_0 = some (.shriN32 none 1 2 126) := by
  decide +kernel
theorem test_decode_major4 : decodeTableWord 32 0b00100_00110_0000001_0000010_0000011_0 = some (.remI32 none 1 2 3) := by
  decide +kernel
theorem test_decode_major5 : decodeTableWord 32 0b00101_00011_0000001_0000010_0000011_0 = some (.ffma none 1 2 3) := by
  decide +kernel
theorem test_decode_major6 : decodeTableWord 32 0b00110_00101_0000001_0000010_0000000_0 = some (.flog2 none 1 2) := by
  decide +kernel
theorem test_decode_major7 : decodeTableWord 32 0b00111_00111_0000001_0000010_0000011_0 = some (.hfmaBf16 none 1 2 3) := by
  decide +kernel
theorem test_decode_major8 : decodeTableWord 32 0b01000_01001_0000001_0000010_0000011_0 = some (.cmpGeN32 none 1 2 3) := by
  decide +kernel
theorem test_decode_major9 : decodeTableWord 32 0b01001_00110_0000001_0000010_0000011_0 = some (.fcmpUn none 1 2 3) := by
  decide +kernel
theorem test_decode_major10 : decodeTableWord 32 0b01010_01001_0000001_0000010_0011111_0 = some (.ballot none 1 2 31) := by
  decide +kernel
theorem test_decode_major11 : decodeTableWord 32 0b01011_01100_0000001_0000010_0000000_0 = some (.sxtI64 none 1 2) := by
  decide +kernel
theorem test_decode_major12 : decodeTableWord 32 0b01100_01111_0000001_0000010_0000011_1 = some (.xcmpLt (some ⟨false, 1⟩) 1 2 3) := by
  decide +kernel
theorem test_decode_major13 : decodeTableWord 32 0b01101_00001_0000001_0000000_1000000_0 = some (.xmovi none 1 0xFFFFFFC0) := by
  decide +kernel
theorem test_decode_major14 : decodeTableWord 32 0b01110_01100_0000001_0000010_0000010_0 = some (.pip4Pack none 1 2 .sr) := by
  decide +kernel
/-- shfl.dn over the team by 3: bit 0 of the immediate is the scope. -/
theorem test_decode_major15 : decodeTableWord 32 0b01111_00010_0000001_0000010_0000111_0 = some (.shflDn none 1 2 true 3) := by
  decide +kernel
theorem test_decode_major16 : decodeTableWord 32 0b10000_111_0000001_00010_0000011_1111_0 = some (.probe none 1 2 3 0xFFFFFFFF) := by
  decide +kernel
theorem test_decode_major17 : decodeTableWord 32 0b10001_110_0000001_00010_0000000_0111_1 =
    some (.stsB64 (some ⟨false, 1⟩) 1 2 7) := by decide +kernel
theorem test_decode_major18 : decodeTableWord 32 0b10010_1101_0000001_00010_0000011_01_11 =
    some (.ldAcq 1 2 3 .acquire .fabric false false) := by decide +kernel
theorem test_decode_major19 : decodeTableWord 32 0b10011_00110_0000000_0000000_0011101_0 = some (.waitc none .gather 7) := by
  decide +kernel
theorem test_decode_major20 : decodeTableWord 32 0b10100_00111_0000000_0000001_0000010_0 = some (.cpStamp none 1 .device) := by
  decide +kernel
theorem test_decode_major21 : decodeTableWord 32 0b10101_00000_0000001_0000010_0000011_0 = some (.trkOpen none 1 2 3) := by
  decide +kernel
theorem test_decode_major22 : decodeTableWord 32 0b10110_00010_0000000_0000001_0000010_0 = some (.obFill none 1 2) := by
  decide +kernel
theorem test_decode_major23 : decodeTableWord 32 0b10111_00010_0000001_0000010_0000011_0 = some (.mmaZ none 1 2 3) := by
  decide +kernel
theorem test_decode_major24 : decodeTableWord 32 0b11000_00011_0000001_0000010_0000011_0 = some (.accSt none 1 2 3) := by
  decide +kernel
theorem test_decode_major25 : decodeTableWord 32 0b11001_110_0010_0_000000000000_0000101 = some (.extCalli 5) := by
  decide +kernel
theorem test_decode_major26 : decodeTableWord 32 0b11010_00000_0000001_0000010_0000001_0 = some (.ovld none 1 2 .b) := by
  decide +kernel
theorem test_decode_major27 : decodeTableWord 32 0b11011_00000_0000001_0000010_0000000_0 = some (.lch none 1 2) := by
  decide +kernel
/-- IMM4 names the h register. -/
theorem test_decode_major28 : decodeTableWord 32 0b11100_001_0000001_00010_0000011_1111_0 = some (.tstB32 none 1 2 3 15) := by
  decide +kernel
theorem test_decode_major29 : decodeTableWord 32 0b11101_01000_0000000_0000001_0000010_0 = some (.cfgWr none 1 2) := by
  decide +kernel
/-- Reserved bits, and a guard on an instruction of guard class none (R36). -/
theorem test_decode_refuses : decodeTableWord 32 0b00001_01010_0000001_0000010_0000001_0 = none ∧
    decodeTableWord 32 0b11101_00001_0000000_0000000_0000000_1 = none ∧
    decodeTableWord 32 0b11001_011_0000_0_0000000000000000001 = none ∧
    decodeTableWord 32 0b11001_001_1000_0_0000000000000000000 = none := by decide +kernel
/-- A mixed lender's modifier bits SC and NR (R48), and the reasons of two illegal encodings (R37, R54). -/
theorem test_decode_lender :
    decodeSlot Counts.max ⟨0b11111_11_00000_0000_0000_0000_00000011, 0b10010_0000_0000001_00010_0000011_11_10, 0, 0⟩ 1 =
      .instr (.atomAddI32 1 2 3 .acqRel .device true true) ∧
    decodeSlot Counts.max ⟨0b11111_11_00000_0000_0000_0000_00000001, 0b10010_0000_0000001_00010_0000011_10_10, 0, 0⟩ 1 =
      .illegal 0 5 ∧
    decodeSlot Counts.max ⟨30 * 2 ^ 27, 0, 0, 0⟩ 0 = .illegal 0 1 ∧ decodeSlot Counts.max ⟨0, 7 * 2 ^ 22, 0, 0⟩ 1 = .illegal 1 2 := by
  decide +kernel


/-! ### A small state: one crew of one team of two lanes on core 0, sub-core 0 -/

def kern : Kernel :=
  { ovl := 0, entry := 0, counts := Counts.max, teams := 1, lanes := 2, producer := 0, tracks := 16, ranges := 32, scratch := 1024
    spill := 0 }

def pkt : Packet :=
  { kernel := 0, ncrew := 1, argbase := 0, scratch := 0, cpt := 0, producer := 255, prio := 0, fuse := false, splits := 1
    await0 := 0, await1 := 0, signal := 0 }

def launch : Launch :=
  { fn := 0, serial := 1, pkt := pkt, kern := kern, image := 0, imgid := 0, priv := .u, reserved := true, sets := [(0, 1)], next := 1 }

def crew : Crew :=
  { launch := 1, fn := 0, index := 0, table := none, split := 0, place := some (0, 0), contexts := [0], status := .running, set := 1
    nteam := 1, nlane := 2, producer := some 0, scratchBytes := 1024, spill := 0 }

/-- s1 holds 1, x1 the start of the scratchpad, x2 an address 64 bytes further, v1 the lane's number, q1 false, and number 1 of
each class of handles names slot 0 in its first generation. -/
def regs : Regs :=
  { st := [(1, 1)], xt := [(1, 0xFFFFFF0000000000), (2, 0xFFFFFF0000000040)], vt := [(1025, 1)], ha := [(1, 0x0100)]
    hk := [(1, 0x0100)], ho := [(1, 0x0100)], hy := [(1, 0x0100)], hh := [(1, 0x0100)] }

def team : Team := { crew := 1, index := 0, nlane := 2, regs := regs, ctl := { active := 3 } }

def codeSet : TransSet :=
  { imgid := 0, split := 0, xver := 0, domain := 0, current := true, overlays := [(0, ⟨64, false⟩), (1, ⟨64, false⟩)], code := [] }

def demo (t : Team) (c : Crew) : State :=
  { self := some 4, uids := 2, teams := [(4, t)], crews := [(1, c)], launches := [(1, launch)], sets := [(1, codeSet)]
    subs := [(0, { halfA := some (1, 0), selected := some 4 })] }

/-- The plain state. -/
def plain : State := demo team crew

/-- Nothing is left of an earlier access of the team. -/
abbrev Idle (s : State) (t : Team) : Prop :=
  t.link.answers = [] ∧ s.fab.requests = [] ∧ t.ctl.under = none ∧ t.ctl.breaks = []

theorem unaskedOf {s : State} {uid : Nat} {t : Team} (h : Idle s t) : Unasked s uid t :=
  ⟨h.1, fun _ => by simp [State.asked, h.2.1], h.2.2.1, h.2.2.2⟩

theorem freshOf {s : State} {uid : Nat} {t : Team}
    (h : Idle s t ∧ t.ctl.skip = 0 ∧ t.ctl.arrived = false) : Fresh s uid t := ⟨unaskedOf h.1, h.2.1, h.2.2⟩

theorem readyOf {s : State} {uid : Nat} {t : Team} {g : Option Guard}
    (h : s.self = some uid ∧ Tbl.find? s.teams uid = some t ∧ (Idle s t ∧ t.ctl.skip = 0 ∧ t.ctl.arrived = false) ∧
      t.status = .runnable ∧ guardHolds t.regs g = true) : Ready s uid t g :=
  ⟨⟨h.1, h.2.1⟩, freshOf h.2.2.1, h.2.2.2.1, h.2.2.2.2⟩

theorem actsOf {s : State} {t : Team} {x : Access} {p : Place}
    (h : s.checkAccess t x = .ok p ∧ p.remote = false ∧ inFabric x.addr = false ∧ s.placeWaits (s.fnOf t) p = false ∧
      t.fenced = false) : Acts s t x p := ⟨h.1, h.2.1, h.2.2.1, h.2.2.2.1, fun _ _ => h.2.2.2.2⟩

theorem reachesOf {s : State} {t : Team} {x : Access} {p : Place}
    (h : s.checkAccess t x = .ok p ∧ p.remote = false ∧ inFabric x.addr = false ∧ s.placeWaits (s.fnOf t) p = false ∧
      t.fenced = false ∧ ∀ i, i < x.size → s.inFlight (p.add i) = false) : Reaches s t x p :=
  ⟨actsOf ⟨h.1, h.2.1, h.2.2.1, h.2.2.2.1, h.2.2.2.2.1⟩, fun _ => h.2.2.2.2.2⟩

theorem obtainsOf {s : State} {uid : Nat} {t : Team} {x : Access} {p : Place} (h : Reaches s t x p) (i : Idle s t) :
    Obtains s uid t x (s.readNat p x.size) :=
  .inr ⟨by simp [Team.answer, i.1, Tbl.find?], by simp [State.asked, i.2.1], p, h, rfl⟩

theorem asksOf {s : State} {uid : Nat} {t : Team} {x : Access} {n r : Nat}
    (h : Idle s t ∧ s.checkAccess t x = .ok (.fabric n r) ∧ inFabric x.addr = true ∧ t.eng.fabric.length < 8191) :
    Asks s uid t x n r := ⟨unaskedOf h.1, h.2.1, h.2.2.1, h.2.2.2⟩

theorem bothLanes {t : Team} {g : Option Guard} {P : Nat → Prop} (n : t.nlane = 2) (h0 : P 0) (h1 : P 1) :
    ∀ l, t.performs g l → P l := by
  rintro l ⟨h, _⟩
  rw [n] at h
  interval_cases l <;> assumption

theorem plain_issuing : Issuing plain 4 team := ⟨rfl, rfl⟩
theorem plain_idle : Idle plain team := ⟨rfl, rfl, rfl, rfl⟩
theorem plain_fresh : Fresh plain 4 team := freshOf ⟨plain_idle, rfl, rfl⟩
theorem plain_ready : Ready plain 4 team none := readyOf (by decide +kernel)
theorem plain_performs : team.performs none 1 := by unfold Team.performs; decide +kernel

/-- No lane performs a slot whose guard is the negated p0. -/
theorem plain_nobody : team.performsNone (some ⟨true, 0⟩) := by
  rintro l ⟨h, h'⟩
  have hl : l < 2 := h
  interval_cases l <;> revert h' <;> decide +kernel

theorem pairLanes {t : Team} {g : Option Guard} {P : Nat → Nat → Prop} (n : t.nlane = 2) (h : P 0 1) :
    ∀ k l, k < l → t.performs g k → t.performs g l → P k l := by
  rintro k l hkl - ⟨hl, -⟩
  rw [n] at hl
  obtain ⟨rfl, rfl⟩ : k = 0 ∧ l = 1 := by omega
  exact h

/-- A record in the scratchpad: offsets, lengths and values of its fields. -/
def fields (l : List (Nat × Nat × Nat)) : List Host.Cell := l.foldl (fun m e => pokes m e.1 (leBytes e.2.1 e.2.2)) []

/-- The plain state with a record in the scratchpad. -/
def holding (l : List (Nat × Nat × Nat)) : State := demo team { crew with scratch := fields l }

/-- The plain state with one page of host memory at 0x1000 of the global space. -/
def sharing (s : State) : State :=
  { s with launches := [(1, { launch with extents := [{ va := 0x1000, log2 := 12, pa := 0, target := 1, w := true }] })] }

/-- The plain state with another team. -/
def of (t : Team) : State := demo t crew

/-! ### For each statement with hypotheses, a state and operands that meet them -/

theorem witness_LaneIntegerResults : Issuing plain 4 team ∧ team.performs none 1 := ⟨plain_issuing, plain_performs⟩
theorem witness_LaneShiftsAndFields : Issuing plain 4 team ∧ team.performs none 1 := ⟨plain_issuing, plain_performs⟩
theorem witness_LaneMultiplyDivide : Issuing plain 4 team ∧ team.performs none 1 := ⟨plain_issuing, plain_performs⟩
/-- 1, −1 and 0.5 (R80): bits of numbers whose exact sum is 0 or not, and of NaNs, quiet and signalling (R81). -/
theorem witness_LaneFloatResults : Issuing plain 4 team ∧ team.performs none 1 ∧ Rnd.fpmode ≠ .sr ∧
    f32Num 0x3F800000 = some 1 ∧ f32Num 0xBF800000 = some (-1) ∧ f32Num 0x3F000000 = some (1 / 2) ∧ f32Num 0 = some 0 ∧
    f32Nan 0x7FC00000 ∧ ¬ f32Snan 0x7FC00000 ∧ f32Snan 0xFF800001 := by
  refine ⟨plain_issuing, plain_performs, by decide, ?_, ?_, ?_, ?_, ?_, ?_, ?_⟩
  all_goals first | (simp [f32Nan, f32Snan]; done) | (norm_num [f32Num])
/-- The bounds of both ranges of integers, and a value with a fraction. -/
theorem witness_ConversionResults : Issuing plain 4 team ∧ team.performs none 1 ∧ f32Num 0xBF000000 = some (-1 / 2) ∧
    f32Num 0x4F000000 = some (2 ^ 31) ∧ f32Num 0x4F800000 = some (2 ^ 32) := by
  refine ⟨plain_issuing, plain_performs, ?_, ?_, ?_⟩ <;> norm_num [f32Num]
theorem witness_CompareResults : Issuing plain 4 team ∧ team.performs none 1 := ⟨plain_issuing, plain_performs⟩
/-- With and without a lane that performs the slot; the last of the encoding's predicates. -/
theorem witness_PredicateResults : Issuing plain 4 team ∧ ¬ team.performsNone none ∧ team.performsNone (some ⟨true, 0⟩) ∧ 7 < 8 :=
  ⟨plain_issuing, fun h => h 1 plain_performs, plain_nobody, by decide⟩
theorem witness_WideAndTransferResults :
    Issuing plain 4 team ∧ ¬ team.performsNone none ∧ team.performsNone (some ⟨true, 0⟩) :=
  ⟨plain_issuing, fun h => h 1 plain_performs, plain_nobody⟩
theorem witness_UniformResults : 7 < 8 ∧ Issuing plain 4 team ∧ guardHolds team.regs none = true ∧
    guardHolds team.regs (some ⟨false, 1⟩) = false := ⟨by decide, plain_issuing, by decide⟩
theorem witness_CrossLaneResults : Issuing plain 4 team ∧ team.performs none 1 := ⟨plain_issuing, plain_performs⟩

/-! #### Memory -/

/-- Both lanes of an access at x1 + v1 · size. -/
theorem plain_lanes (log2 : Nat) (rd wr : Bool) (h : log2 < 5) : ∀ l, team.performs none l →
    Reaches plain team (laneAccess team 1 1 0 log2 rd wr l) (.scratch 1 (l * 2 ^ log2)) := by
  interval_cases log2 <;> cases rd <;> cases wr <;>
    exact bothLanes rfl (reachesOf (by decide +kernel)) (reachesOf (by decide +kernel))

/-- The plain team back in a slot of which a tret has it skip lane 0. -/
def skipping : Team := { team with ctl := { team.ctl with skip := 1 } }

theorem skipping_performs : ∀ l, skipping.left.performs none l → l = 1 := by
  rintro l ⟨h, h'⟩
  have hl : l < 2 := h
  interval_cases l
  · exact absurd h' (by decide +kernel)
  · rfl

/-- The clauses on a lane that is skipped ask nothing of it: here lane 0's address leads nowhere. -/
theorem witness_LoadResults_skip :
    let t : Team := { skipping with regs := { regs with vt := [(1024, 0x7FFFFFFF), (1025, 1)] } }
    Issuing (of t) 4 t ∧ t.ctl.breaks = [] ∧ (∀ l, t.left.performs none l → inFabric (t.ea 1 1 0 (2 ^ 2) l) = false) ∧
    (∀ l, t.left.performs none l →
      Obtains (of t) 4 t (laneAccess t 1 1 0 2 true false l) ((of t).readNat (.scratch 1 4) 4)) ∧
    MayStore t false ∧ (∀ l, t.left.performs none l → Lands (of t) t (laneAccess t 1 1 0 2 false true l) (.scratch 1 4)) ∧
    ((of t).checkAccess t (laneAccess t 1 1 0 2 true false 0)).toOption = none := by
  refine ⟨⟨rfl, rfl⟩, rfl, fun l h => ?_, fun l h => ?_, ⟨rfl, rfl, nofun⟩, fun l h => ?_, by decide +kernel⟩
  · obtain rfl := skipping_performs l h; decide +kernel
  · obtain rfl := skipping_performs l h; exact obtainsOf (reachesOf (by decide +kernel)) ⟨rfl, rfl, rfl, rfl⟩
  · obtain rfl := skipping_performs l h; exact .inl (actsOf (by decide +kernel))

theorem plain_left : team.left.performs none = team.performs none := by
  have h : team.left.lanes none = team.lanes none := by decide +kernel
  funext l
  simp only [Team.performs, h]
  rfl

/-- A team whose x1 names bytes of node 5, and whose lanes' addresses follow each other; the fabric is on. -/
def afar : Team := { team with regs := { regs with xt := [(1, 0x0101400000000000)] } }
def far (t : Team) : State :=
  { demo t crew with
    launches := [(1, { launch with extents := [{ va := 2 ^ 56 + 5 * 2 ^ 46, log2 := 12, pa := 0, target := 2, w := true }] })]
    fab := { fabid := 0x10003 } }

theorem afar_lowest : afar.left.lowest none 0 := ⟨by unfold Team.performs; decide +kernel, nofun⟩

/-- Here, with the answers of another node, and from another node; the uniform form at the end of the scratchpad, and skipped. -/
theorem witness_LoadResults :
    let told : Team := { afar with
      link := { afar.link with answers := [(0, .data [1, 2, 3, 4]), (1, .data [5, 6, 7, 8])] }, ctl := { afar.ctl with under := some (7, true) } }
    (Issuing plain 4 team ∧ team.ctl.breaks = [] ∧ (∀ l, team.left.performs none l → inFabric (team.ea 1 1 0 (2 ^ 4) l) = false) ∧
      ∀ l, team.left.performs none l →
        Obtains plain 4 team (laneAccess team 1 1 0 4 true false l) (plain.readNat (.scratch 1 (l * 2 ^ 4)) (2 ^ 4))) ∧
    (Issuing (far told) 4 told ∧ told.ctl.breaks = [] ∧ told.ctl.under ≠ none ∧ ∀ l, told.left.performs none l →
      Obtains (far told) 4 told (laneAccess told 1 1 0 2 true false l) (if l = 0 then 0x04030201 else 0x08070605)) ∧
    (Issuing (far afar) 4 afar ∧ afar.left.lowest none 0 ∧ Asks (far afar) 4 afar (laneAccess afar 1 1 0 2 true false 0) 5 0) ∧
    (guardHolds afar.regs none = true ∧ Asks (far afar) 4 afar (uniMemAccess afar 1 1 3 true false) 5 8) ∧
    (guardHolds team.regs none = true ∧ (team.ctl.under.map Prod.snd).getD false = inFabric (team.eaUni 1 127 (2 ^ 3)) ∧
      Obtains plain 4 team (uniMemAccess team 1 127 3 true false) (plain.readNat (.scratch 1 1016) (2 ^ 3))) ∧
    guardHolds team.regs (some ⟨false, 1⟩) = false := by
  refine ⟨⟨plain_issuing, rfl, ?_, fun l h => obtainsOf (plain_lanes 4 true false (by decide) l (plain_left ▸ h)) plain_idle⟩,
    ⟨⟨rfl, rfl⟩, rfl, by decide, ?_⟩, ⟨⟨rfl, rfl⟩, afar_lowest, asksOf (by decide +kernel)⟩, ⟨rfl, asksOf (by decide +kernel)⟩,
    ⟨rfl, by decide +kernel, obtainsOf (reachesOf (by decide +kernel)) plain_idle⟩, by decide⟩
  · exact bothLanes rfl (by decide +kernel) (by decide +kernel)
  · exact bothLanes rfl (.inl ⟨_, rfl, by decide +kernel⟩) (.inl ⟨_, rfl, by decide +kernel⟩)

/-- Two lanes at two addresses and at one, here and at another node, and after a release fence. -/
theorem witness_StoreResults :
    let one : Team := { team with regs := { regs with vt := [] } }
    let fenced : Team := { afar with link := { afar.link with fence := some 2 }, eng := { afar.eng with fabIssued := 2 } }
    (Issuing plain 4 team ∧ MayStore team false ∧
      (∀ l, team.left.performs none l → Lands plain team (laneAccess team 1 1 0 0 false true l) (.scratch 1 (l * 2 ^ 0))) ∧
      team.ea 1 1 0 1 0 ≠ team.ea 1 1 0 1 1) ∧
    (Issuing (of one) 4 one ∧ MayStore one false ∧
      (∀ l, one.left.performs none l → Lands (of one) one (laneAccess one 1 1 0 0 false true l) (.scratch 1 0)) ∧
      one.left.performers none = [0, 1] ∧ one.ea 1 1 0 1 0 = one.ea 1 1 0 1 1) ∧
    (∀ t ∈ [afar, fenced], Issuing (far t) 4 t ∧ MayStore t true ∧
      ∀ l, t.left.performs none l → Lands (far t) t (laneAccess t 1 1 0 2 false true l) (.fabric 5 (l * 2 ^ 2))) ∧
    (guardHolds team.regs none = true ∧ Lands plain team (uniMemAccess team 1 127 3 false true) (.scratch 1 1016)) ∧
    (guardHolds afar.regs none = true ∧ Lands (far afar) afar (uniMemAccess afar 1 1 3 false true) (.fabric 5 8)) ∧
    guardHolds team.regs (some ⟨false, 1⟩) = false := by
  refine ⟨⟨plain_issuing, ⟨rfl, rfl, nofun⟩, fun l h => .inl (plain_lanes 0 false true (by decide) l (plain_left ▸ h)).toActs,
    by decide +kernel⟩, ⟨⟨rfl, rfl⟩, ⟨rfl, rfl, nofun⟩, ?_, by decide +kernel, by decide +kernel⟩, ?_,
    ⟨rfl, .inl (actsOf (by decide +kernel))⟩, ⟨rfl, .inr (by decide +kernel)⟩, by decide⟩
  · exact bothLanes rfl (.inl (actsOf (by decide +kernel))) (.inl (actsOf (by decide +kernel)))
  · intro t h
    simp only [List.mem_cons, List.not_mem_nil, or_false] at h
    rcases h with rfl | rfl
    · exact ⟨⟨rfl, rfl⟩, ⟨rfl, rfl, fun _ => ⟨by decide, rfl, fun _ => rfl⟩⟩,
        bothLanes rfl (.inr (by decide +kernel)) (.inr (by decide +kernel))⟩
    · exact ⟨⟨rfl, rfl⟩, ⟨rfl, rfl, fun _ => ⟨by decide, by decide, fun _ => rfl⟩⟩,
        bothLanes rfl (.inr (by decide +kernel)) (.inr (by decide +kernel))⟩

/-- Lanes here under a watchpoint that none meets, lanes with their answers, a lane that asks, and a lane that is watched. -/
theorem witness_AtomicResults :
    let w (b : Nat) (rd : Bool) : Watch := { base := b, length := 4, array := none, read := rd, write := true, engine := false }
    let armed : Team := { team with link := { team.link with watches := [(0, w (scrBase + 512) false)] } }
    let watched : Team := { team with link := { team.link with watches := [(3, w scrBase true)] } }
    let told : Team := { afar with
      link := { afar.link with answers := [(0, .data [1, 0, 0, 0]), (1, .data [2, 0, 0, 0])] }, ctl := { afar.ctl with under := some (7, true) } }
    AtomOp.xor ≠ .addF32 ∧
    (Issuing (of armed) 4 armed ∧ armed.ctl.breaks = [] ∧
      (∀ l, armed.left.performs none l → inFabric (armed.ea 1 1 0 (atomSize .cas) l) = false) ∧ armed.link.fabricFault = none ∧
      armed.fabricBusy = false ∧ ∀ l, armed.left.performs none l →
        armed.answer l = none ∧ (of armed).asked 4 l = false ∧ Acts (of armed) armed (atomAccessAt .cas armed 1 1 l) (.scratch 1 (l * 4)) ∧
        armed.fabricBusy = false) ∧
    (Issuing (far told) 4 told ∧ told.ctl.breaks = [] ∧ told.ctl.under ≠ none ∧ ∀ l, told.left.performs none l →
      (∃ b, told.answer l = some (.data b)) ∧
        ∀ w, ((far told).atomAccess .addI32 told w (told.ea 1 1 0 (atomSize .addI32) l) l).judged = none) ∧
    (Issuing (far afar) 4 afar ∧ afar.left.lowest none 0 ∧ afar.link.fabricFault = none ∧ afar.fabricBusy = false ∧
      Asks (far afar) 4 afar ((far afar).atomAccess .addI32 afar 0 (afar.ea 1 1 0 (atomSize .addI32) 0) 0) 5 0) ∧
    (let x := (of watched).atomAccess .addI32 watched (atomArg watched.regs .addI32 2 0) (watched.ea 1 1 0 (atomSize .addI32) 0) 0
     Issuing (of watched) 4 watched ∧ Unasked (of watched) 4 watched ∧ watched.left.lowest none 0 ∧
      (∀ k, watched.left.performs none k → inFabric (watched.ea 1 1 0 (atomSize .addI32) k) = false) ∧ x.addr % x.size = 0 ∧
      (of watched).resolve watched x.addr x.size x.wr = .ok (.scratch 1 0) ∧ watched.watchOn x = some 3 ∧
      watched.link.fabricFault = none ∧ watched.fabricBusy = false) := by
  refine ⟨by decide, ⟨⟨rfl, rfl⟩, rfl, ?_, rfl, rfl, ?_⟩, ⟨⟨rfl, rfl⟩, rfl, by decide, ?_⟩,
    ⟨⟨rfl, rfl⟩, afar_lowest, rfl, rfl, asksOf (by decide +kernel)⟩,
    ⟨⟨rfl, rfl⟩, unaskedOf ⟨rfl, rfl, rfl, rfl⟩, ⟨by unfold Team.performs; decide +kernel, nofun⟩, ?_, by decide +kernel, by decide +kernel,
      by decide +kernel, rfl, rfl⟩⟩
  · exact bothLanes rfl (by decide +kernel) (by decide +kernel)
  · exact bothLanes rfl ⟨rfl, rfl, actsOf (by decide +kernel), rfl⟩ ⟨rfl, rfl, actsOf (by decide +kernel), rfl⟩
  · exact bothLanes rfl ⟨⟨_, rfl⟩, fun _ => rfl⟩ ⟨⟨_, rfl⟩, fun _ => rfl⟩
  · exact bothLanes rfl (by decide +kernel) (by decide +kernel)

theorem witness_StepKeepsTeams : plain.teamsOk = true := by decide +kernel

theorem witness_ReadAfterWrite :
    (([5, 6] : List Byte)[1]? = some 6 ∧ plain.cell (Place.add (.scratch 1 0) 1) ≠ none ∧
      ∀ j, 1 < j → j < ([5, 6] : List Byte).length → plain.cell (Place.add (.scratch 1 0) j) ≠ plain.cell (Place.add (.scratch 1 0) 1)) ∧
    (∀ i, i < ([5, 6] : List Byte).length →
      plain.cell (Place.add (.scratch 1 0) i) = none ∨ plain.cell (Place.add (.scratch 1 0) i) ≠ plain.cell (.scratch 1 2)) :=
  ⟨⟨rfl, by decide +kernel, fun j h h' => absurd h' (by simp only [List.length_cons, List.length_nil]; omega)⟩, by decide +kernel⟩

/-- The first clause on states that differ in what stops the access; the second at the ends of the scratchpad and of an extent. -/
theorem witness_AccessChecks :
    let watching : Team := { team with link := { team.link with watches :=
      [(0, { base := scrBase, length := 4, array := none, read := true, write := false, engine := false })] } }
    let poisoned : State := demo team { crew with scratchPoison := [(0, true)] }
    let x := ownAccess (team.regs.x 1) 2 true
    let far : Place := .fabric 5 0
    let out : State := { plain with launches :=
      [(1, { launch with extents := [{ va := 2 ^ 56 + 5 * 2 ^ 46, log2 := 12, pa := 0, target := 2, w := true }] })] }
    let y := ownAccess 0x0101400000000000 2 false
    let e : Extent := { va := 0x1000, log2 := 12, pa := 0, target := 1, w := true }
    ¬ (ownAccess 1 2 true).size ∣ (ownAccess 1 2 true).addr ∧
    ((ownAccess 0 2 true).size ∣ (ownAccess 0 2 true).addr ∧ plain.resolve team 0 4 true = .error .lttMiss) ∧
    (x.size ∣ x.addr ∧ plain.resolve team x.addr x.size x.wr = .ok (.scratch 1 0)) ∧
    (plain.resolve watching x.addr x.size x.wr = .ok (.scratch 1 0) ∧ watching.watchOn x = some 0) ∧
    (team.watchOn x = none ∧ x.rd = true ∧ poisoned.resolve team x.addr x.size x.wr = .ok (.scratch 1 0) ∧
      poisoned.markedIn (poisoned.home (poisoned.fnOf team) (.scratch 1 0)) x.size = true) ∧
    ((x.rd && plain.markedIn (plain.home (plain.fnOf team) (.scratch 1 0)) x.size) = false ∧
      plain.fabricFails (plain.fnOf team) (.scratch 1 0) = none) ∧
    (y.size ∣ y.addr ∧ out.resolve team y.addr y.size y.wr = .ok far ∧ team.watchOn y = none ∧
      (y.rd && out.markedIn (out.home (out.fnOf team) far) y.size) = false ∧ out.fabricFails (out.fnOf team) far = some 2) ∧
    Tbl.find? plain.crews team.crew = some crew ∧
    (scrBase ≤ scrBase + 1020 ∧ scrBase + 1020 + 4 ≤ scrBase + crew.scratchBytes) ∧
    (scrBase ≤ scrBase + 1021 ∧ scrBase + crew.scratchBytes < scrBase + 1021 + 4) ∧
    (2 ^ 57 ≤ 2 ^ 57 ∧ 2 ^ 57 < scrBase) ∧
    (0x1FFC < 2 ^ 57 ∧ List.find? (fun e : Extent => e.covers 0x1FFC 4) ((sharing plain).extentsOf team) = some e) ∧
    (0x1FFD < 2 ^ 57 ∧ (∀ e ∈ (sharing plain).extentsOf team, e.covers 0x1FFD 4 = false) ∧
      ∀ p ∈ team.link.pages, p.covers 0x1FFD 4 = false) := by
  decide +kernel

/-- A page that the team's own probe entered, at both ends of it. -/
theorem witness_AccessChecks_pages :
    let e : PageEntry := { va := 0x5000, pa := 0x9000, host := false, w := false }
    let t : Team := { team with link := { team.link with pages := [e] } }
    let s := sharing (of t)
    ∀ a ∈ [0x5000, 0x5FFC], a < 2 ^ 57 ∧ (∀ e ∈ s.extentsOf t, e.covers a 4 = false) ∧
      List.find? (fun e : PageEntry => e.covers a 4) t.link.pages = some e ∧ ∀ p ∈ t.link.pages, p.covers (a + 4096) 4 = false := by
  decide +kernel

/-- Which watchpoint: the exempted access, the one that watches nothing, the first and the last byte of a watched range. -/
theorem witness_AccessChecks_watchpoints :
    let w (b : Nat) : Watch := { base := b, length := 4, array := none, read := true, write := false, engine := false }
    let t : Team := { team with link := { team.link with watches := [(2, w (scrBase + 8)), (3, w scrBase)] } }
    let e : Exempt := { vpc := team.ctl.pc, lane := 0, addr := BitVec.ofNat 64 scrBase }
    let x (a log2 : Nat) : Access := ownAccess (BitVec.ofNat 64 a) log2 false
    let meets (w : Watch) (x : Access) : Prop := w.array = none ∧ x.addr < w.base + w.length ∧ w.base < x.addr + x.size ∧
      ((w.read = true ∧ x.rd = true) ∨ (w.write = true ∧ x.watchWr = true))
    (e.vpc = team.ctl.pc ∧ e.lane = (x scrBase 2).lane ∧ e.addr = BitVec.ofNat 64 (x scrBase 2).addr) ∧
    (∀ e ∈ t.link.watches, ¬ meets e.2 (x (scrBase + 4) 2)) ∧ t.ctl.exempt = none ∧ (x scrBase 0).watched = true ∧
    Tbl.sortedFrom 0 t.link.watches = true ∧
    (∀ a ∈ [scrBase, scrBase + 3], (3, w scrBase) ∈ t.link.watches ∧ meets (w scrBase) (x a 0) ∧
      ∀ e ∈ t.link.watches, e.1 < 3 → ¬ meets e.2 (x a 0)) := by
  decide +kernel

/-! #### Synchronisation, copies, tracks, ranges -/

theorem witness_FalseGuardSkips : Issuing plain 4 team ∧ guardHolds team.regs (some ⟨false, 1⟩) = false ∧ team.ctl.priv = .u ∧
    (let t : Team := { team with ctl := { team.ctl with priv := .s } }
     Issuing (of t) 4 t ∧ guardHolds t.regs (some ⟨false, 1⟩) = false ∧ t.ctl.priv ≠ .u) :=
  ⟨plain_issuing, by decide, rfl, ⟨rfl, rfl⟩, by decide, by decide⟩

/-- No track is open, so no byte lies in a record. -/
theorem plain_records (p : Place) : ¬ plain.inRecord p := by
  rintro ⟨c, o, cr, e, k, -, hc, he, -⟩
  by_cases h : c = 1
  · subst h
    cases hc
    exact nomatch he
  · have hn : Tbl.find? plain.crews c = none := by simp [plain, demo, Tbl.find?, Ne.symm h]
    rw [hn] at hc
    cases hc

theorem witness_SynchronisationResults :
    let arrived (n : Nat) : Team := { team with ctl := { team.ctl with barrier := some { addr := team.regs.x 1, phase := BitVec.ofNat 16 n } } }
    let watching (hit : Bool) : Team := { team with link := { team.link with monitor := some { line := (4, 0), hit := hit } } }
    let busy : Team := { team with eng := { team.eng with mats := [{ seq := 1, array := 0, kind := .accSt {} 0 [] }] } }
    let batch (n : Nat) : Team := { team with eng := { team.eng with closed := [{ seq := n, ops := [] }] } }
    let writing : Team := { team with eng := { team.eng with fabric := [{ id := 1, idx := 1, pending := 1 }] } }
    let word : State → Team → Prop := fun s t => Reaches s t (ownAccess (t.regs.x 1) 2 true) (.scratch 1 0)
    let quiet : State → Team → Prop := fun s t =>
      Reaches s t ({ ownAccess (t.regs.x 1) 2 true with watched := false } : Access) (.scratch 1 0)
    -- fence, bar.arrive, bar.sync, mon, yield
    (Ready plain 4 team none ∧ team.link.fabricFault = none ∧ team.fabricBusy = false ∧ word plain team ∧
      plain.cell (.scratch 1 0) ≠ none ∧
      (∀ i j, i < j → j < 4 → plain.cell (Place.add (.scratch 1 0) i) ≠ plain.cell (Place.add (.scratch 1 0) j)) ∧
      (∀ i, i < 4 → plain.cell (Place.add (.scratch 1 0) i) ≠ none ∧ ¬ plain.inRecord (Place.add (.scratch 1 0) i)) ∧
      (team.regs.s 1).toNat % 65536 ≤ plain.readNat (.scratch 1 0) 4 % 65536 + 1) ∧
    -- an SC fence that waits
    (Ready (of writing) 4 writing none ∧ writing.fabricBusy = true ∧ writing.link.fabricFault = none) ∧
    -- bar.wait goes on, and waits
    (Ready (of (arrived 1)) 4 (arrived 1) none ∧ quiet (of (arrived 1)) (arrived 1) ∧
      ∀ b, (arrived 1).ctl.barrier = some b → b.addr = (arrived 1).regs.x 1 →
        BitVec.ofNat 16 ((of (arrived 1)).readNat (.scratch 1 0) 4 / 65536) ≠ b.phase) ∧
    (Ready (of (arrived 0)) 4 (arrived 0) none ∧ quiet (of (arrived 0)) (arrived 0) ∧
      (arrived 0).ctl.barrier = some { addr := (arrived 0).regs.x 1
                                       phase := BitVec.ofNat 16 ((of (arrived 0)).readNat (.scratch 1 0) 4 / 65536) }) ∧
    -- mwait
    (Ready (of (watching true)) 4 (watching true) none ∧ ∀ m, (watching true).link.monitor = some m → m.hit = true) ∧
    (Ready (of (watching false)) 4 (watching false) none ∧ ∃ m, (watching false).link.monitor = some m ∧ m.hit = false) ∧
    -- waitc
    (Ready (of busy) 4 busy none ∧ busy.counter .matrix ≤ 1 ∧ 0 < busy.counter .matrix ∧ busy.suspFor (.waitc .matrix 0) = none ∧
      busy.counter .fabric ≤ 0 ∧ busy.link.fabricFault = none) ∧
    -- waitb of batch 1, complete once only batch 2 is left
    (Ready (of (batch 2)) 4 (batch 2) none ∧
      ∀ x ∈ (batch 2).eng.closed, ((batch 2).regs.s 1 - BitVec.ofNat 32 x.seq).toInt < 0) ∧
    (Ready (of (batch 1)) 4 (batch 1) none ∧ (∃ x ∈ (batch 1).eng.closed, 0 ≤ ((batch 1).regs.s 1 - BitVec.ofNat 32 x.seq).toInt) ∧
      (batch 1).suspFor (.waitb ((batch 1).regs.s 1)) = none) ∧
    -- nflag.merge
    ((team.regs.x 2).toNat % 32 = 0 ∧ Reaches plain team (ownAccess (team.regs.x 2 + 8) 2 true) (.scratch 1 72)) := by
  refine ⟨⟨plain_ready, ?_, ?_, reachesOf ?_, ?_, ?_, ?_, ?_⟩, ⟨readyOf ?_, ?_⟩, ⟨readyOf ?_, reachesOf ?_, ?_⟩, ⟨readyOf ?_, reachesOf ?_, ?_⟩,
    ⟨readyOf ?_, ?_⟩, ⟨readyOf ?_, _, rfl, rfl⟩, ⟨readyOf ?_, ?_⟩, ⟨readyOf ?_, ?_⟩, ⟨readyOf ?_, ⟨_, .head _, ?_⟩, ?_⟩, ?_, reachesOf ?_⟩
  all_goals try decide +kernel
  · intro i j h h'; interval_cases j <;> interval_cases i <;> decide +kernel
  · exact fun i h => ⟨by interval_cases i <;> decide +kernel, plain_records _⟩

/-- A descriptor of one element of four bytes from 0x1000 to 0x1800 in global memory. -/
def copyRecord : List (Nat × Nat × Nat) :=
  [(0, 8, 0x1000), (8, 8, 0x1800), (16, 4, 1), (20, 4, 1), (24, 4, 1), (28, 4, 2)]

theorem witness_CopyIssueResults :
    let g2g := sharing (holding copyRecord)
    let g2s := sharing (holding ((8, 8, scrBase + 0x200) :: copyRecord.filter fun e => e.1 != 8))
    let s2g := sharing (holding ((0, 8, scrBase + 0x200) :: copyRecord.filter fun e => e.1 != 0))
    let mem (a : Nat) : Side := { low := 0x1000 + a, place := .host a, span := 4 }
    let scr : Side := { low := scrBase + 0x200, place := .scratch 1 0x200, span := 4 }
    let issues : State → CopyKind → Side → Side → Prop := fun s kind src dst =>
      Ready s 4 team none ∧ s.isProducer team = true ∧ team.copies < 1024 ∧
        Reaches s team (ownAccess (team.regs.x 1) 6 false) (.scratch 1 0) ∧
        copyFieldsOk kind (s.readNat (.scratch 1 0) 64) = true ∧
        s.copySides team kind (copyDescOf (s.readNat (.scratch 1 0) 64)) = .ok (src, dst)
    issues g2s .g2s (mem 0) scr ∧ issues s2g .s2g scr (mem 0x800) ∧ issues g2g .g2g (mem 0) (mem 0x800) ∧
    issues g2g .tile (mem 0) (mem 0x800) ∧ issues g2g .red (mem 0) (mem 0x800) ∧
    -- a gather, without and with lanes
    (Issuing g2g 4 team ∧ Fresh g2g 4 team ∧ team.status = .runnable ∧ team.performers (some ⟨true, 0⟩) = [] ∧
      team.performers none ≠ [] ∧ g2g.isProducer team = true ∧ team.counter .gather < 8191 ∧ team.copies < 1024 ∧
        copyFieldsOk .gather (g2g.readNat (.scratch 1 0) 64) = true ∧
      (if (copyDescOf (g2g.readNat (.scratch 1 0) 64)).empty then Except.ok []
        else g2g.gatherRows team (copyDescOf (g2g.readNat (.scratch 1 0) 64)) (team.regs.v 1) (team.performers none)) =
        Except.ok [{ lane := 0, srcAddr := 0x1000, dstAddr := 0x1800, src := .host 0, dst := .host 0x800 },
          { lane := 1, srcAddr := 0x1000, dstAddr := 0x1800, src := .host 0, dst := .host 0x800 }]) ∧
    -- a stamp
    ((team.regs.x 1).toNat % 8 = 0 ∧ plain.resolve team (team.regs.x 1).toNat 8 true = .ok (.scratch 1 0) ∧
      team.link.fabricFault = none) := by
  refine ⟨⟨readyOf ?_, ?_, ?_, reachesOf ?_, ?_, ?_⟩, ⟨readyOf ?_, ?_, ?_, reachesOf ?_, ?_, ?_⟩,
    ⟨readyOf ?_, ?_, ?_, reachesOf ?_, ?_, ?_⟩, ⟨readyOf ?_, ?_, ?_, reachesOf ?_, ?_, ?_⟩,
    ⟨readyOf ?_, ?_, ?_, reachesOf ?_, ?_, ?_⟩, ⟨⟨rfl, rfl⟩, freshOf ?_, rfl, ?_⟩, ?_⟩ <;> decide +kernel

/-- Sources that no copy in flight writes. -/
theorem witness_CopyIssueResults_settled :
    let o : CopyOp := { id := 1, kind := .g2g, desc := ⟨0x1000, 0x1800, 1, 1, 1, 2, 0, 0, 0, 0, 0⟩
                        src := { low := 0x1000, place := .host 0, span := 4 }, dst := { low := 0x1800, place := .host 0x800, span := 4 } }
    o.elems ≠ [] ∧ ∀ e ∈ o.elems, ∀ i, i < o.desc.elem → plain.inFlight (e.1.add i) = false := by
  decide +kernel

/-- A team with one object of each class, in slot 0. -/
def trackOf (p c : Word) : TrackObj := { addr := 0xFFFFFF0000000000, p := p, c := c, depth := 1, holders := [4] }
def tracked (t : Team) (k : TrackObj) : State := demo t { crew with tracks := [(0, { obj := some k })] }

theorem witness_TrackResults :
    let named : State → Team → TrackObj → Prop := fun s t k =>
      Ready s 4 t none ∧ s.trackAt 4 t (Tbl.get t.regs.hk 0 1) 6 = .ok (0, k) ∧ s.isProducer t = true
    let full := trackOf 1 0
    let free := trackOf 0 0
    let batch : Team := { team with eng := { team.eng with closed := [{ seq := 1, ops := [] }], batches := 1 } }
    -- trk.open
    (Ready plain 4 team none ∧ (team.regs.x 1).toNat % 16 = 0 ∧ inLocal (team.regs.x 1).toNat = true ∧
      plain.checkAccess team (ownAccess (team.regs.x 1) 4 false) = .ok (.scratch 1 0) ∧
      Tbl.find? plain.crews team.crew = some crew ∧ (Pool.slots crew.tracks fun k => k.addr == team.regs.x 1) = [] ∧
      1 ≤ (team.regs.s 1).toNat ∧ (team.regs.s 1).toNat ≤ 32768 ∧ Pool.lowest crew.tracks 16 = some 0 ∧
      Pool.count crew.tracks < min 16 (((plain.kernelOf team).map Kernel.tracks).getD 0)) ∧
    (Ready (tracked team free) 4 team none ∧
      (tracked team free).checkAccess team (ownAccess (team.regs.x 1) 4 false) = .ok (.scratch 1 0) ∧
      (((tracked team free).crews.map fun e => (Pool.slots e.2.tracks fun k => k.addr == team.regs.x 1).head?) = [some 0])) ∧
    -- the waits at their bounds
    (named (tracked team full) team full ∧ (tracked team full).track 1 0 = some full ∧ (team.regs.s 1).toNat ≤ full.depth ∧
      (team.regs.s 1).toNat ≤ (full.p - full.c).toNat) ∧
    (named (tracked team free) team free ∧ (tracked team free).track 1 0 = some free ∧
      (team.regs.s 1).toNat + (free.p + team.pending 0 true - free.c).toNat ≤ free.depth) ∧
    -- the advances
    (named (tracked batch free) batch free ∧ (batch.regs.s 1).toNat + (free.p + batch.pending 0 true - free.c).toNat ≤ free.depth ∧
      ∃ x ∈ batch.eng.closed, x.seq ≤ batch.eng.batches) ∧
    (team.eng.closed = [] ∧ team.eng.advances = [] ∧ team.eng.mats = []) ∧
    (team.regs.s 1).toNat + (team.pending 0 false).toNat ≤ (full.p - full.c).toNat ∧
    -- trk.close
    (soleHolder full.holders 4 = true → (tracked team full).trackBusy 1 0 = false) := by
  refine ⟨⟨plain_ready, ?_⟩, ⟨readyOf ?_, ?_⟩, ⟨⟨readyOf ?_, ?_⟩, ?_⟩, ⟨⟨readyOf ?_, ?_⟩, ?_⟩, ⟨⟨readyOf ?_, ?_⟩, ?_⟩, ?_⟩ <;>
    decide +kernel

/-- A range of 64 bytes in format f8a. -/
def rangeObj : RangeObj :=
  { addr := 0xFFFFFF0000000000, base := 0, length := 64, format := 0, ctl := 0, soff := 0, holders := [4] }
def ranged (t : Team) : State := demo t { crew with ranges := [(0, { obj := some rangeObj })] }

theorem witness_RangeResults :
    let s := holding [(4, 4, 64)]
    let r := ranged team
    (Ready s 4 team none ∧ Reaches s team (ownAccess (team.regs.x 1) 4 false) (.scratch 1 0)) ∧
    (∃ c, Tbl.find? s.crews team.crew = some c ∧ (Pool.slots c.ranges fun k => k.addr == team.regs.x 1) = [] ∧
      rangeFieldsOk (s.readNat (.scratch 1 0) 16) = true ∧
      field (s.readNat (.scratch 1 0) 16) 0 4 + field (s.readNat (.scratch 1 0) 16) 4 4 ≤ c.nteam * 65536 ∧
      Pool.lowest c.ranges 32 = some 0 ∧ Pool.count c.ranges < min 32 (((s.kernelOf team).map Kernel.ranges).getD 0)) ∧
    (Reaches r team (ownAccess (team.regs.x 1) 4 false) (.scratch 1 0) ∧
      ∃ c, Tbl.find? r.crews team.crew = some c ∧ (Pool.slots c.ranges fun k => k.addr == team.regs.x 1).head? = some 0) ∧
    (Ready r 4 team none ∧ r.rangeAt 4 team (Tbl.get team.regs.ho 0 1) 6 = .ok (0, rangeObj) ∧ r.range 1 0 = some rangeObj ∧
      (soleHolder rangeObj.holders 4 = true → r.rangeBusy 1 0 = false) ∧ r.isProducer team = true ∧ team.copies < 1024 ∧
      (team.regs.x 2).toNat % 64 = 0 ∧ r.extentAt team .any (team.regs.x 2).toNat rangeObj.length false = .ok (.scratch 1 64)) := by
  refine ⟨⟨readyOf ?_, reachesOf ?_⟩, ⟨_, rfl, ?_⟩, ⟨reachesOf ?_, _, rfl, ?_⟩, readyOf ?_, ?_⟩ <;> decide +kernel

/-! #### Matrix, control flow, overlays -/

/-- The plain team with an array of one tile and a geometry of one element. -/
def geom : Geometry :=
  { k := 1, nt := 1, unfold := false, astr := 1, bstr := 1, h := 0, w := 0, c := 0, kh := 0, kw := 0, stride := 0, pad := 0, ow := 0 }
def arrayTeam : Team := { team with eng := { team.eng with arrays := [(0, { obj := some { n := 1 } })], geom := some geom } }

theorem witness_MatrixIssueResults :
    let s := holding [(0, 2, 1), (2, 2, 1)]
    let r := ranged arrayTeam
    let arr : ArrayObj := { n := 1 }
    -- unf.cfg, acc.alloc
    (Ready s 4 team none ∧ Reaches s team (ownAccess (team.regs.x 1) 5 false) (.scratch 1 0) ∧
      geometryOk (s.readNat (.scratch 1 0) 32) = true) ∧
    (Pool.lowest team.eng.arrays 64 = some 0 ∧ 1 ≤ (team.regs.s 1).toNat ∧ (team.regs.s 1).toNat ≤ 128 ∧
      team.tilesUsed + (team.regs.s 1).toNat * ((team.nlane + 7) / 8) ≤ 128) ∧
    -- the instructions on an array
    (Ready r 4 arrayTeam none ∧ arrayTeam.arrayAt (Tbl.get arrayTeam.regs.ha 0 1) 6 = .ok (0, arr) ∧
      arrayTeam.matsOn 0 = [] ∧ arrayTeam.eng.mats.any (arrayTeam.names 0) = false ∧ arrayTeam.arrayBusy 0 = false ∧ arrayTeam.flagsBusy 0 = false ∧ arrayTeam.matrixStall = none) ∧
    -- mma
    (Issuing r 4 arrayTeam ∧ arrayTeam.status = .runnable ∧ arrayTeam.performers (some ⟨true, 0⟩) = [] ∧
      arrayTeam.performers none ≠ [] ∧ arrayTeam.arrayAt (Tbl.get arrayTeam.regs.ha 0 1) 5 = .ok (0, arr) ∧
      r.rangeAt 4 arrayTeam (Tbl.get arrayTeam.regs.ho 0 1) 6 = .ok (0, rangeObj) ∧
      r.rangeAt 4 arrayTeam (Tbl.get arrayTeam.regs.ho 0 1) 7 = .ok (0, rangeObj) ∧ arrayTeam.matrixStall = none ∧
      arrayTeam.eng.geom = some geom ∧
      mmaCheck (some geom) rangeObj rangeObj arr.n (topQuarter arrayTeam.nlane (arrayTeam.lanes none)) = none) ∧
    -- acc.rd and acc.wr of elements 0 and 1, acc.zero, acc.patch
    (arrayTeam.elemCheck 0 (256 * arr.n * ((arrayTeam.nlane + 7) / 8)) (fun l => (arrayTeam.regs.v 1 l).toNat) false
        (arrayTeam.performers none) = none ∧
      arrayTeam.elemCheck 0 (256 * arr.n * ((arrayTeam.nlane + 7) / 8)) (fun l => (arrayTeam.regs.v 1 l).toNat) true
        (arrayTeam.performers none) = none ∧
      (∀ k l, k < l → arrayTeam.performs none k → arrayTeam.performs none l → arrayTeam.regs.v 1 k ≠ arrayTeam.regs.v 1 l) ∧
      arrayTeam.zeroWatch 0 (256 * arr.n * ((arrayTeam.nlane + 7) / 8)) = none ∧
      (arrayTeam.regs.s 1).toNat < 256 * arr.n * ((arrayTeam.nlane + 7) / 8) ∧
      arrayTeam.elemWatch 0 0 (arrayTeam.regs.s 1).toNat false true = none) ∧
    -- acc.st of an f32 matrix, s0 its control word; a scratchpad of its 1,024 bytes holds it exactly
    (stCtlOk (arrayTeam.regs.s 0) (32 * arr.n) = true ∧ (arrayTeam.regs.x 1).toNat % 16 = 0 ∧
      r.extentAt arrayTeam .any (arrayTeam.regs.x 1).toNat (accStSpan arr.n ((arrayTeam.nlane + 7) / 8) (arrayTeam.regs.s 0)) true =
        .ok (.scratch 1 0)) := by
  refine ⟨⟨readyOf ?_, reachesOf ?_, ?_⟩, ?_, ⟨readyOf ?_, ?_⟩, ⟨⟨rfl, rfl⟩, ?_⟩, ⟨?_, ?_, pairLanes rfl ?_, ?_⟩, ?_⟩ <;> decide +kernel

theorem witness_BranchResults :
    let back : Team := { team with ctl := { team.ctl with returns := [{ addr := 4, bank := .a, depth := 0 }] } }
    let x : Team := { team with regs := { regs with xt := [(1, 48)] } }
    Issuing plain 4 team ∧
    (∀ l, Mask.has team.ctl.active l = true → Mask.has (guardLanes team.regs (some ⟨false, 0⟩)) l = true) ∧
    (∃ l, Mask.has team.ctl.active l = true ∧ Mask.has (guardLanes team.regs (some ⟨true, 0⟩)) l = false) ∧
    (guardHolds team.regs (some ⟨false, 0⟩) = true ∧ guardHolds team.regs (some ⟨true, 0⟩) = false ∧ team.ctl.returns.length < 64) ∧
    -- the last quad of the overlay
    (Issuing (of x) 4 x ∧ 16 ∣ (x.regs.x 1).toNat ∧ (of x).overlayIn x x.ctl.bank = some 0 ∧
      (of x).inOverlay x 0 (x.regs.x 1).toNat = true) ∧
    (Issuing (of back) 4 back ∧ back.ctl.returns = [{ addr := 4, bank := .a, depth := 0 }] ∧ 0 = back.ctl.frames.length ∧
      (of back).lostOverlay back .a 4 = none) := by
  refine ⟨plain_issuing, ?_, ⟨1, ?_⟩, ?_, ⟨⟨rfl, rfl⟩, ?_⟩, ⟨rfl, rfl⟩, ?_⟩
  · intro l h
    have hl : l < 1024 := by
      by_contra hc
      rw [Mask.has, BitVec.getLsbD_of_ge _ _ (by omega)] at h
      exact absurd h (by decide)
    show (BitVec.allOnes 1024).getLsbD l = true
    rw [BitVec.getLsbD_allOnes]
    exact decide_eq_true hl
  all_goals decide +kernel

/-- dvg with lanes on both sides, and with none that takes the first path; brk and cnv with lanes deferred and without. -/
theorem witness_DivergenceResults :
    let split : Team := { team with regs := { regs with pt := [(1, 1)] } }
    let inside (deferred active : Mask) : Team :=
      { team with ctl := { team.ctl with active := active, frames := [{ target := 16, deferred := deferred, entry := 3 }] } }
    let cnvCode : List Host.Cell := [(19, 0xCB)]
    let joined : State := { of (inside 0 1) with sets := [(1, { codeSet with code := cnvCode })] }
    (Issuing (of split) 4 split ∧ split.ctl.frames.length < 32 ∧ split.lanes (some ⟨false, 1⟩) ≠ 0 ∧
      split.ctl.active &&& ~~~(split.lanes (some ⟨false, 1⟩)) ≠ 0) ∧
    (team.lanes (some ⟨true, 0⟩) = 0 ∧ team.ctl.active ≠ 0) ∧
    (Issuing (of (inside 2 1)) 4 (inside 2 1) ∧ (inside 2 1).ctl.active &&& ~~~((inside 2 1).lanes (some ⟨true, 0⟩)) ≠ 0 ∧
      (inside 2 1).ctl.active &&& ~~~((inside 2 1).lanes (some ⟨false, 0⟩)) = 0 ∧ (2 : Mask) ≠ 0) ∧
    (Issuing joined 4 (inside 0 1) ∧ (inside 0 1).ctl.active &&& ~~~((inside 0 1).lanes (some ⟨false, 0⟩)) = 0 ∧
      joined.opensCnv (inside 0 1) 16 = true ∧ (3 : Mask) &&& ~~~(inside 0 1).ctl.exited ≠ 0) ∧
    ((inside 2 1).trap.handlers = [] ∧ (inside 2 1).link.fabricFault = none) ∧
    (team.trap.handlers = [] ∧ team.link.fabricFault = none ∧ team.ctl.frames = [] ∧ team.eng.open_ = [] ∧
      team.suspFor .exit = none ∧ plain.exitReady 4 team = true ∧
      plain.exitReady 4 { team with eng := { team.eng with closed := [{ seq := 2, ops := [] }] } } = false) := by
  refine ⟨⟨⟨rfl, rfl⟩, ?_⟩, ?_, ⟨⟨rfl, rfl⟩, ?_⟩, ⟨⟨rfl, rfl⟩, ?_⟩, ?_⟩ <;> decide +kernel

theorem witness_OverlayResults :
    let token (st : TokenState) (f : Bool) : TokenObj := { overlay := 1, half := .b, state := st, started := true, fenced := f }
    let having (st : TokenState) (f : Bool) : Team :=
      { team with regs := { regs with xt := [(1, 0x8000)] }, link := { team.link with tokens := [(0, { obj := some (token st f) })] } }
    let both : State := { plain with subs := [(0, { halfA := some (1, 0), halfB := some (1, 1) })] }
    let req : LoadReq := { half := .b, set := 1, overlay := 1, fn := 0, why := .tokens }
    let coming : State := { plain with subs := [(0, { halfA := some (1, 0), loads := [req] })] }
    ((team.regs.s 1).toNat = 1 ∧ Bank.b ≠ team.ctl.bank ∧ Pool.lowest team.link.tokens 16 = some 0) ∧
    (Ready both 4 team none ∧ both.hasOverlay team 1 = true ∧ both.overlayIn team .b = some 1) ∧
    (Ready coming 4 team none ∧ coming.hasOverlay team 1 = true ∧ coming.overlayIn team .b ≠ some 1 ∧
      coming.loadFor team .b 1 = some req) ∧
    (plain.hasOverlay team 1 = true ∧ plain.overlayIn team .b ≠ some 1 ∧ plain.loadFor team .b 1 = none) ∧
    (Ready (of (having .failed false)) 4 (having .failed false) none ∧
      (having .failed false).tokenAt 1 = .ok (0, token .failed false) ∧ (having .failed false).tokenLoading 0 = false ∧
      (having .failed false).anyLoading = false) ∧
    (Ready (of (having .resident true)) 4 (having .resident true) none ∧ Bank.b = otherBank (having .resident true).ctl.bank ∧
      List.find? (fun k => k.state == .resident && k.fenced) ((having .resident true).tokensOf .b) = some (token .resident true) ∧
      (having .resident true).tokenAt 1 = .ok (0, token .resident true) ∧ 16 ∣ ((having .resident true).regs.x 1).toNat ∧
      (of (having .resident true)).inOverlay (having .resident true) 1 ((having .resident true).regs.x 1).toNat = true ∧
      (having .resident true).ctl.returns.length < 64) := by
  refine ⟨?_, ⟨readyOf ?_, ?_⟩, ⟨readyOf ?_, ?_⟩, ?_, ⟨readyOf ?_, ?_⟩, readyOf ?_, ?_⟩ <;> decide +kernel

/-! #### Launches, groups, the system -/

theorem witness_LaunchInstructionResults :
    let open_ := holding [(4, 4, 1)]
    let done := holding [(4, 4, 1), (12, 4, 2)]
    (Ready plain 4 team none ∧ Reaches plain team (ownAccess (team.regs.x 1) 6 false) (.scratch 1 0)) ∧
    (Ready done 4 team none ∧ 32 ∣ (team.regs.x 1).toNat ∧ Reaches done team (ownAccess (team.regs.x 1) 4 false) (.scratch 1 0) ∧
      (objOf (done.readNat (.scratch 1 0) 16)).status ≠ 0) ∧
    (0 ≤ ((objOf (plain.readNat (.scratch 1 0) 16)).arrived - (objOf (plain.readNat (.scratch 1 0) 16)).expected).toInt) ∧
    (Ready open_ 4 team none ∧ Reaches open_ team (ownAccess (team.regs.x 1) 4 false) (.scratch 1 0) ∧
      (objOf (open_.readNat (.scratch 1 0) 16)).status = 0 ∧
      ((objOf (open_.readNat (.scratch 1 0) 16)).arrived - (objOf (open_.readNat (.scratch 1 0) 16)).expected).toInt < 0) := by
  refine ⟨⟨plain_ready, reachesOf ?_⟩, ⟨readyOf ?_, ?_, reachesOf ?_, ?_⟩, ?_, readyOf ?_, reachesOf ?_, ?_⟩ <;> decide +kernel

/-- The plain team with a group, number 7, under h1; x1 names the shared page. -/
def groupTeam : Team :=
  { team with regs := { regs with xt := [(1, 0x1000)] }, link := { team.link with groups := [(0, { obj := some { number := 7 } })] } }
def grouped (g : Group) : State := { sharing (of groupTeam) with fab := { plain.fab with groups := [(7, g)] } }

theorem witness_GroupInstructionResults :
    let g : Group := { fn := 0, uid := 4 }
    let told : Group := { g with dests := [(0, { count := 1 })] }
    let away : Group := { g with phase := .preparing }
    let done : Group := { g with phase := .done, outcome := 1 }
    (Ready plain 4 team none ∧ Pool.lowest team.link.groups 16 = some 0 ∧ plain.groupFree (plain.fnOf team) = true ∧
      plain.groupNumber = some 0) ∧
    -- the staged stores
    (Issuing (grouped g) 4 groupTeam ∧ groupTeam.status = .runnable ∧ Unasked (grouped g) 4 groupTeam ∧
      groupTeam.performers (some ⟨true, 0⟩) = [] ∧
      groupTeam.performers none ≠ [] ∧ (grouped g).groupAt groupTeam 1 = .ok (0, 7, g) ∧ g.phase = .open_ ∧
      (∀ l, groupTeam.left.performs none l → inLocal (groupTeam.ea 1 1 0 (2 ^ 4) l) = false ∧
        (grouped g).checkAccess groupTeam (laneAccess groupTeam 1 1 0 4 false true l) = .ok (.host (16 * l)) ∧
        (grouped g).stageTarget (.host (16 * l)) = some (0, 2 ^ 60 + 16 * l)) ∧
      (∀ k l, k < l → groupTeam.left.performs none k → groupTeam.left.performs none l →
        groupTeam.ea 1 1 0 (2 ^ 4) k ≠ groupTeam.ea 1 1 0 (2 ^ 4) l)) ∧
    -- tg.commit, tg.abort, tg.wait
    (Ready (grouped g) 4 groupTeam none ∧ groupTeam.link.fabricFault = none ∧ g.dests = []) ∧
    (Ready (grouped told) 4 groupTeam none ∧ (grouped told).groupAt groupTeam 1 = .ok (0, 7, told) ∧ told.phase = .open_ ∧
      told.dests ≠ [] ∧ ∀ e ∈ told.dests, e.2.st ≠ .lost) ∧
    (Ready (grouped done) 4 groupTeam none ∧ (grouped done).groupAt groupTeam 1 = .ok (0, 7, done) ∧ done.phase = .done) ∧
    (Ready (grouped away) 4 groupTeam none ∧ (grouped away).groupAt groupTeam 1 = .ok (0, 7, away) ∧ away.phase ≠ .open_ ∧
      away.phase ≠ .done) := by
  refine ⟨⟨plain_ready, ?_⟩, ⟨⟨rfl, rfl⟩, rfl, unaskedOf ⟨rfl, rfl, rfl, rfl⟩, ?_, ?_, ?_, rfl, bothLanes rfl ?_ ?_, pairLanes rfl ?_⟩,
    ⟨readyOf ?_, ?_⟩, ⟨readyOf ?_, ?_⟩, ⟨readyOf ?_, ?_⟩, readyOf ?_, ?_⟩ <;> decide +kernel

/-- The plain team at a level. -/
def atLevel (p : Priv) : Team := { team with ctl := { team.ctl with priv := p } }

theorem witness_SpecialRegisterResults :
    Issuing plain 4 team ∧ guardHolds team.regs none = true ∧ guardHolds team.regs (some ⟨false, 1⟩) = false ∧
    (Tbl.find? plain.crews team.crew = some crew ∧ Tbl.find? plain.launches crew.launch = some launch) ∧
    (SpReg.priv ≠ .srseed ∧ SpReg.priv ≠ .cycles ∧ spReadLevel .priv ≤ team.ctl.priv.rank) ∧
    (SpReg.core ≠ .srseed ∧ SpReg.core ≠ .cycles ∧ spReadLevel .core ≤ (atLevel .h).ctl.priv.rank) ∧
    spWriteLevel .nflags ≤ team.ctl.priv.rank ∧ spWriteLevel (.tdone 31) ≤ (atLevel .s).ctl.priv.rank ∧
    (32 * 0 < team.nlane ∧ team.nlane ≤ 32 * 1) ∧ (Issuing (of (atLevel .h)) 4 (atLevel .h) ∧ (atLevel .h).ctl.priv = .h) := by
  refine ⟨plain_issuing, ?_, ?_, ?_, ?_, ?_, ?_, ?_, ?_, ⟨rfl, rfl⟩, rfl⟩ <;> decide

/-- Another team on the core, whose next marker is logged anew after a write of CYCLES. -/
theorem witness_SpecialRegisterResults_cycles :
    let s : State := { of (atLevel .h) with teams := [(4, atLevel .h), (5, { team with index := 1 })] }
    Issuing s 4 (atLevel .h) ∧ (s.placeOf { team with index := 1 }).map (·.1) = some 0 ∧ crew.place.map (·.1) = some 0 := by
  exact ⟨⟨rfl, rfl⟩, by decide +kernel, by decide⟩

/-- A handler's frame of a BRKPT at address 0. -/
def frame : TrapFrame := { trap := { cause := 9 }, bank := .a, active := 3, frames := [], returns := [], priv := .u, barrier := none }
def handling : Team := { atLevel .s with trap := { handlers := [frame] } }

theorem witness_SystemResults :
    let s := holding [(64, 8, scrBase), (72, 8, 1), (80, 4, 2)]
    let w : Watch := { base := scrBase, length := 1, array := none, read := true, write := false, engine := false }
    let marking : State := { plain with fns := [(0, { Fn.init 0 with trctl := 5 })] }
    let atReg (a : Word64) : Team := { atLevel .s with regs := { regs with xt := [(1, a)] } }
    Ready plain 4 team none ∧
    (Issuing (of handling) 4 handling ∧ handling.ctl.priv ≠ .u ∧ handling.trap.handlers = frame :: [] ∧ 4 ∣ frame.trap.vpc.toNat ∧
      (of handling).frameOk handling frame = true ∧ Tbl.find? (of handling).crews handling.crew = some crew) ∧
    -- tret from a WATCH at its slot, with lanes to skip
    (let f : TrapFrame := { frame with trap := { cause := 8, vpc := 4, done := 1 }, exempt := some { vpc := 4, lane := 1, addr := 0 } }
      let t : Team := { handling with trap := { handlers := [f] } }
      Issuing (of t) 4 t ∧ 4 ∣ f.trap.vpc.toNat ∧ (of t).frameOk t f = true ∧ f.trap.eng = none) ∧
    -- halt, with a saved crew of the launch, the crew's own team at its slot, and another that is none of the stands
    (let saved : Crew := { crew with status := .saved .preempt, place := none, contexts := [], index := 1 }
      let away : Team := { team with crew := 2 }
      let moving : Team := { team with index := 1 }
      let s : State := { of (atLevel .s) with
        crews := [(1, { crew with contexts := [0, 1] }), (2, saved)], teams := [(4, atLevel .s), (5, moving), (6, away)] }
      Issuing s 4 (atLevel .s) ∧ (atLevel .s).ctl.priv ≠ .u ∧ Tbl.find? s.crews 2 = some saved ∧ saved.live = false ∧
      Tbl.find? s.teams 6 = some away ∧ (atLevel .s).status ≠ .retired ∧ crew.live = true ∧ moving.stands = false ∧
      (∀ e ∈ s.teams, e.1 = 5 → e.2 = moving) ∧ ∀ e ∈ s.crews, e.1 = 1 → e.2 = { crew with contexts := [0, 1] }) ∧
    ((plain.fn (plain.fnOf team)).tracing && (plain.fn (plain.fnOf team)).marks) = false ∧
    (Ready marking 4 team none ∧ ((marking.fn (marking.fnOf team)).tracing && (marking.fn (marking.fnOf team)).marks) = true ∧
      team.link.resync = true) ∧
    (Ready s 4 team none ∧ Reaches s team (ownAccess (team.regs.x 2) 5 false) (.scratch 1 64) ∧
      team.watchCheck (team.regs.s 1) (s.readNat (.scratch 1 64) 32) = .ok w ∧ (team.regs.s 1).toNat < 16) ∧
    (Ready (of (atReg 0xFFFFFFF8)) 4 (atReg 0xFFFFFFF8) none ∧ (atReg 0xFFFFFFF8).ctl.priv ≠ .u ∧
      (atReg 0xFFFFFFF8).cfgCheck ((atReg 0xFFFFFFF8).regs.x 1) false = none ∧
      (atReg 0xFFFFFFF8).cfgCheck ((atReg 0xFFFFFFF8).regs.x 1) true = none) := by
  refine ⟨plain_ready, ⟨⟨rfl, rfl⟩, ?_⟩, ⟨⟨rfl, rfl⟩, ?_⟩, ⟨⟨rfl, rfl⟩, ?_⟩, ?_, ⟨readyOf ?_, ?_⟩, ⟨readyOf ?_, reachesOf ?_, ?_⟩,
    readyOf ?_, ?_⟩ <;> decide +kernel

/-- Function 0 with an enabled handler for every SWTRAP at address 0x8010, in overlay 1. -/
def vectored (subs : Tbl SubCore) (t : Team) : State :=
  { of t with fns := [(0, { Fn.init 0 with hvec := [(0x0A, 0x8000000000008010)] })], subs := subs }

theorem witness_TrapDelivery :
    let there := vectored [(0, { halfA := some (1, 0), halfB := some (1, 1) })] team
    let absent := vectored [(0, { halfA := some (1, 0) })] team
    let tr : Trap := { cause := .swtrap, info := 5 }
    let h := Tbl.get (there.fn (there.fnOf team)).hvec 0 tr.cause.code
    (Tbl.find? there.teams 4 = some team ∧ (there.fn (there.fnOf team)).trctl.getLsbD 0 = false ∧ tr.cause ≠ .lttMiss ∧
      tr.cause ≠ .double ∧ ¬ (tr.cause = .probe ∧ (tr.info.toNat / 2 ^ 19 % 8 = 3 ∨ tr.info.toNat / 2 ^ 19 % 8 = 4)) ∧
      team.trap.handlers.length < 2 ∧ h.getLsbD 63 = true) ∧
    (there.bankHolding team (h.toNat % 2 ^ 32 / 2 ^ 15) = some .b ∧ there.launchHalted team = false) ∧
    (let halted : State := { there with launches := [(1, { launch with halted := true })] };
      halted.bankHolding team (h.toNat % 2 ^ 32 / 2 ^ 15) = some .b ∧ halted.launchHalted team = true) ∧
    (absent.bankHolding team (h.toNat % 2 ^ 32 / 2 ^ 15) = none ∧ team.trap.handlers = [] ∧ absent.placeOf team = some (0, 0) ∧
      Tbl.find? absent.crews team.crew = some crew) := by decide +kernel

theorem witness_KillResults :
    let deep : Team := { team with trap := { handlers := [frame, frame] } }
    let probe : Trap := { cause := .probe, info := 0x180000 }
    (Tbl.find? plain.teams 4 = some team ∧ Tbl.find? plain.crews team.crew = some crew ∧
      Tbl.find? plain.launches crew.launch = some launch) ∧
    (Cause.lttMiss ≠ .double ∧ Cause.swtrap ≠ .double) ∧ (probe.cause = .probe ∧ probe.info.toNat / 2 ^ 19 % 8 = 3) ∧
    deep.trap.handlers.length = 2 ∧ (Tbl.get (plain.fn crew.fn).hvec 0 Cause.swtrap.code).getLsbD 63 = false ∧
    (plain.fn crew.fn).flog0 = 0 ∧ (({ plain with fns := [(0, { Fn.init 0 with flog0 := 5 })] } : State).fn crew.fn).flog0 ≠ 0 := by
  decide +kernel

/-- DOUBLE for want of a half (R344), and a table of two crews beside a crew of another launch. -/
theorem witness_KillResults_homeless :
    let s := vectored [(0, { halfA := some (1, 0) })] handling
    let h : Word64 := Tbl.get (s.fn (s.fnOf handling)).hvec 0 Cause.swtrap.code
    let tabled (k : Nat) : Crew := { crew with table := some 0, index := k }
    let other : Crew := { crew with launch := 2, place := some (8, 0) }
    let two : State := { plain with
      crews := [(1, tabled 0), (2, tabled 1), (3, other)]
      teams := [(4, team), (5, { team with crew := 2 }), (6, { team with crew := 3 })] }
    let gone (k : Nat) (d : Crew) : Prop := k = team.crew ∨ ((tabled 0).table ≠ none ∧ d.table = (tabled 0).table ∧ d.launch = crew.launch)
    (h.getLsbD 63 = true ∧ handling.trap.handlers.length = 1 ∧ s.bankHolding handling (h.toNat % 2 ^ 32 / 2 ^ 15) = none ∧
      Tbl.find? s.teams 4 = some handling ∧ Cause.swtrap ≠ .lttMiss ∧ Cause.swtrap ≠ .probe) ∧
    (Tbl.find? two.crews 2 = some (tabled 1) ∧ gone 2 (tabled 1) ∧ Tbl.find? two.teams 5 = some { team with crew := 2 } ∧
      Tbl.find? two.crews 3 = some other ∧ ¬ gone 3 other ∧ Tbl.sortedFrom 0 two.crews = true ∧ Tbl.sortedFrom 0 two.teams = true) ∧
    ((∀ v, (two.fn v).prqWait = []) ∧ (two.fn 0).trctl.getLsbD 0 = false ∧ team.eng.flying = [] ∧ team.eng.mats = []) := by
  refine ⟨by decide +kernel, by decide +kernel, fun v => ?_, by decide +kernel⟩
  simp [State.fn, plain, demo, Fn.init, Tbl.get, Tbl.find?]

/-- The lane that traps is lane 1, whose access begins where the scratchpad ends, and lane 0 has been performed. -/
theorem witness_InstructionTraps :
    let odd : Team := { team with regs := { regs with vt := [(1025, 0x100)] } }
    let tr (wr : Bool) : Trap := (laneAccess odd 1 1 0 2 (!wr) wr 1).trap .scratchOob 0 0
    let x (a : Word64) (p : Priv) : Team := { atLevel p with regs := { regs with xt := [(1, a)] } }
    (Issuing (of odd) 4 odd ∧ Fresh (of odd) 4 odd ∧ odd.eng.fabric.length < 8191 ∧ odd.performs none 1 ∧
      (∀ l, l < 1 ∧ odd.performs none l → Reaches (of odd) odd (laneAccess odd 1 1 0 2 true false l) (.scratch 1 0)) ∧
      (of odd).checkAccess odd (laneAccess odd 1 1 0 2 true false 1) = .error (tr false) ∧
      (∀ l, l < 1 ∧ odd.performs none l → Reaches (of odd) odd (laneAccess odd 1 1 0 2 false true l) (.scratch 1 0)) ∧
      (of odd).checkAccess odd (laneAccess odd 1 1 0 2 false true 1) = .error (tr true) ∧
      (∀ j l, j < l → l < 1 → odd.performs none j → odd.performs none l → odd.ea 1 1 0 (2 ^ 2) j ≠ odd.ea 1 1 0 (2 ^ 2) l)) ∧
    -- PRIV, ALIGN and HANDLER_DEPTH
    (Issuing plain 4 team ∧ 0 < spReadLevel .vf ∧ 0 < spWriteLevel .cycles ∧ team.ctl.priv = .u) ∧
    ((x 0x2000000000 .h).ctl.priv ≠ .u ∧ guardHolds (x 0x2000000000 .h).regs none = true ∧ 2 ^ 37 ≤ ((x 0x2000000000 .h).regs.x 1).toNat) ∧
    (((x 0x100000000 .s).regs.x 1).toNat < 2 ^ 37 ∧ 2 ^ 32 ≤ ((x 0x100000000 .s).regs.x 1).toNat ∧ (x 0x100000000 .s).ctl.priv = .s) ∧
    (((x 0xFFFFFFFF .s).regs.x 1).toNat < 2 ^ 32 ∧ ((x 0xFFFFFFFF .s).regs.x 1).toNat % 8 ≠ 0) ∧
    ((atLevel .s).ctl.priv ≠ .u ∧ (atLevel .s).trap.handlers = []) ∧ (Issuing (of handling) 4 handling ∧ handling.trap.handlers ≠ []) := by
  refine ⟨⟨⟨rfl, rfl⟩, freshOf ⟨⟨rfl, rfl, rfl, rfl⟩, rfl, rfl⟩, by decide, by unfold Team.performs; decide +kernel, ?_, ?_, ?_, ?_, fun j l h h' => by omega⟩,
    ⟨plain_issuing, by decide⟩, by decide +kernel, by decide +kernel, by decide +kernel, by decide, ⟨rfl, rfl⟩, by decide⟩
  · rintro l ⟨h, -⟩; interval_cases l; exact reachesOf (by decide +kernel)
  · decide +kernel
  · rintro l ⟨h, -⟩; interval_cases l; exact reachesOf (by decide +kernel)
  · decide +kernel

/-- Lane 1 beyond the scratchpad, and in no space, with lane 0 within it. -/
theorem witness_ProbeResults_stops :
    let t (v : Word) : Team := { team with regs := { regs with vt := [(1025, v)] } }
    let ea (v : Word) (l : Nat) : Nat := (t v).ea 1 1 0 1 l
    let nowhere : Team := { team with regs := { regs with xt := [(1, 0x0200000000000000)] } }
    (Issuing (of (t 0x400)) 4 (t 0x400) ∧ (of (t 0x400)).lostOverlay (t 0x400) (t 0x400).ctl.bank (t 0x400).ctl.pc = none ∧
      (t 0x400).left.performs none 1 ∧ inLocal (ea 0x400 1) = true ∧ crew.scratchBytes ≤ ea 0x400 1 - scrBase ∧
      inLocal (ea 0x400 0) = true ∧ ea 0x400 0 - scrBase < crew.scratchBytes ∧ ea 0x3FF 1 - scrBase < crew.scratchBytes) ∧
    (Issuing (of nowhere) 4 nowhere ∧ nowhere.left.performs none 0 ∧ inLocal (nowhere.ea 1 1 0 1 0) = false ∧
      inGlobal (nowhere.ea 1 1 0 1 0) = false ∧ inFabric (nowhere.ea 1 1 0 1 0) = false) := by
  refine ⟨⟨⟨rfl, rfl⟩, ?_, ?_, ?_⟩, ⟨rfl, rfl⟩, ?_, ?_⟩
  on_goal 2 => unfold Team.performs
  on_goal 4 => unfold Team.performs
  all_goals decide +kernel

/-- A page of a table at address 0 of the function's memory: the last entry is valid, not valid, or leads past its memory. -/
theorem witness_ProbeResults_pages :
    let t : Team := { team with regs := { regs with xt := [(1, 0x1000)] } }
    let at_ (e : Nat) : State := { of t with
      fns := [(0, { Fn.init 0 with s1root := 1, s2bound := 0x10000 })]
      dev := { plain.dev with sgcfg := [(0, 0x10000)] }
      mem := fields [(0, 8, 1), (8, 8, e)] }
    let ea (l : Nat) : Nat := t.ea 1 1 0 1 l
    let probe : ProbeState := { vpc := t.ctl.pc, dest := 2, lanes := (t.left.performers none).map fun l => (l, BitVec.ofNat 64 (ea l), none)
                                f0 := none, pages := [(0x1000, .again)] }
    let waits (e : Nat) : State := (at_ e).putTeam 4 { t with status := .parked .probe, link := { t.link with probe := some probe } }
    (∀ e, Issuing (at_ e) 4 t) ∧ (at_ 0).lostOverlay t t.ctl.bank t.ctl.pc = none ∧ Tbl.find? (at_ 0).crews t.crew = some crew ∧
    (∀ l, t.left.performs none l → (inLocal (ea l) = false ∧ inGlobal (ea l) = true ∧
      lttFind ((at_ 0).extentsOf t) t.link.pages crew.fn (ea l) 1 = none) ∧ ea l / 4096 * 4096 = 0x1000) ∧
    ((waits 0x5005).walk 0 0x1000).1 = .valid 0x5000 false true ∧
    (enterPage (2048 - ((at_ 0).extentsOf t).length) t.link.pages { va := 0x1000, pa := 0x5000, host := false, w := true, fresh := true }).isSome ∧
    ((waits 0).walk 0 0x1000).1 = .invalid ∧ ((waits 0x100005).walk 0 0x1000).1 = .stage2 0x100000 := by
  refine ⟨fun e => ⟨rfl, rfl⟩, ?_, rfl, bothLanes rfl ?_ ?_, ?_, ?_, ?_, ?_⟩ <;> decide +kernel

/-- Lane 0 in the scratchpad, and both lanes in a page of the table that permits no write. -/
theorem witness_ProbeResults :
    let low : Team := { team with regs := { regs with xt := [(1, 0x1FFE)] } }
    let e : Extent := { va := 0x1000, log2 := 12, pa := 0, target := 1, w := false }
    let s : State := { of low with launches := [(1, { launch with extents := [e] })] }
    (Issuing plain 4 team ∧ Fresh plain 4 team ∧ Tbl.find? plain.crews team.crew = some crew ∧
      ∀ l, team.performs none l → inLocal (team.ea 1 1 0 1 l) = true ∧ team.ea 1 1 0 1 l - scrBase < crew.scratchBytes) ∧
    (Issuing s 4 low ∧ Fresh s 4 low ∧ Tbl.find? s.crews low.crew = some crew ∧
      ∀ l, low.performs none l → inLocal (low.ea 1 1 0 1 l) = false ∧ (inGlobal (low.ea 1 1 0 1 l) = true ∨ inFabric (low.ea 1 1 0 1 l) = true) ∧
        lttFind (s.extentsOf low) low.link.pages crew.fn (low.ea 1 1 0 1 l) 1 = some (.host (0xFFE + l), false)) := by
  refine ⟨⟨plain_issuing, plain_fresh, rfl, bothLanes rfl ?_ ?_⟩, ⟨rfl, rfl⟩, freshOf ⟨⟨rfl, rfl, rfl, rfl⟩, rfl, rfl⟩, rfl,
    bothLanes rfl ?_ ?_⟩ <;> decide +kernel

/-! #### Events of teams, crews and launches -/

/-- The plain team parked. -/
def parked (p : Park) : Team := { team with status := .parked p }

theorem witness_TeamEvents :
    let waits : State → Team → Park → Prop := fun s t w => Tbl.find? s.teams 4 = some t ∧ t.status = .parked w ∧
      s.crewRuns t = true ∧ s.launchHalted t = false ∧ s.lostOverlay t t.ctl.bank t.ctl.pc = none
    let at_ (p : Park) : State := of (parked p)
    let here (p : Park) : Prop := waits (at_ p) (parked p) p
    let full := tracked (parked (.trkWfill 0 1)) (trackOf 1 0)
    let free := tracked (parked (.trkWfree 0 1)) (trackOf 0 0)
    let old : Team := { parked (.waitb 1) with eng := { team.eng with closed := [{ seq := 2, ops := [] }] } }
    let token (st : TokenState) (w : Park) : Team := { parked w with link := { team.link with
      tokens := [(0, { obj := some { overlay := 1, half := .b, state := st, started := true, fenced := false } })] } }
    let asleep : Team := { groupTeam with status := .parked (.tgWait 2 0) }
    let done : Group := { fn := 0, uid := 4, phase := .done, outcome := 1 }
    let grp : State := { of asleep with fab := { plain.fab with groups := [(7, done)] } }
    let held : Team := { arrayTeam with status := .parked (.accFree 0) }
    let two : State := { plain with teams := [(4, parked .exit), (5, { team with index := 1 })], crews := [(1, { crew with contexts := [0, 1] })] }
    let others (s : State) : List (Nat × Nat × Team) := (((s.contextsAt (0, 0)).filter fun z => decide (0 < z.1)) ++
      ((s.contextsAt (0, 0)).filter fun z => decide (z.1 < 0))).filter fun z => z.2.2.runnable
    (Issuing plain 4 team ∧ 3 < 4 ∧ 255 < 256) ∧
    -- the quantum, with another runnable context and without
    (List.find? (fun z => some z.2.1 == (two.sub (0, 0)).selected) (two.contextsAt (0, 0)) = some (0, 4, parked .exit) ∧
      (others two).head? = some (1, 5, { team with index := 1 }) ∧ others plain = []) ∧
    -- retirement, of the last team of its crew
    (Tbl.sortedFrom 0 (at_ .exit).teams = true ∧ here .exit ∧ (at_ .exit).exitReady 4 (parked .exit) = true ∧
      Tbl.find? (at_ .exit).crews 1 = some crew ∧ Tbl.find? (at_ .exit).launches 1 = some launch ∧
      ∀ v z, (v, z) ∈ (at_ .exit).teams → v = 4) ∧
    -- waits that go on waiting, or stop
    (waits (tracked (parked (.trkWfill 0 1)) (trackOf 0 0)) (parked (.trkWfill 0 1)) (.trkWfill 0 1) ∧
      (tracked (parked (.trkWfill 0 1)) (trackOf 0 0)).parkReady 4 (parked (.trkWfill 0 1)) (.trkWfill 0 1) = false) ∧
    (demo (parked .ifence) { crew with status := .stopping .slice }).crewRuns (parked .ifence) = false ∧
    (let s : State := { at_ .mwait with launches := [(1, { launch with halted := true })] };
      s.crewRuns (parked .mwait) = true ∧ s.launchHalted (parked .mwait) = true) ∧
    -- the team of an evicted crew, whose monitored line is another node's, or of this package
    (∀ q ∈ [0, 2], let m : Monitor := { line := (q, 5), hit := false }
      let t : Team := { parked .mwait with link := { team.link with monitor := some m } }
      let s := demo t { crew with status := .saved .evict, place := none, contexts := [] };
      Tbl.find? s.teams 4 = some t ∧ t.status = .parked .mwait ∧ s.evictedCrew 1 = true ∧ t.link.monitor = some m ∧ m.line.1 = q) ∧
    -- waits that end
    here .mwait ∧ (here (.waitc .gather 0) ∧ (parked (.waitc .gather 0)).counter .gather ≤ 0) ∧
    (here (.waitc .fabric 0) ∧ (parked (.waitc .fabric 0)).counter .fabric ≤ 0) ∧
    (waits (of old) old (.waitb 1) ∧ ∀ z ∈ old.eng.closed, ((1 : Word) - BitVec.ofNat 32 z.seq).toInt < 0) ∧
    (waits full (parked (.trkWfill 0 1)) (.trkWfill 0 1) ∧ full.track 1 0 = some (trackOf 1 0) ∧ 1 ≤ ((trackOf 1 0).p - (trackOf 1 0).c).toNat) ∧
    (waits free (parked (.trkWfree 0 1)) (.trkWfree 0 1) ∧ free.track 1 0 = some (trackOf 0 0) ∧
      1 + ((trackOf 0 0).p + (parked (.trkWfree 0 1)).pending 0 true - (trackOf 0 0).c).toNat ≤ (trackOf 0 0).depth) ∧
    (waits (tracked (parked (.trkClose 0)) (trackOf 0 0)) (parked (.trkClose 0)) (.trkClose 0) ∧
      (tracked (parked (.trkClose 0)) (trackOf 0 0)).trackDroppable 4 (parked (.trkClose 0)) 0 = true) ∧
    (waits (ranged (parked (.obRel 0))) (parked (.obRel 0)) (.obRel 0) ∧
      (ranged (parked (.obRel 0))).rangeDroppable 4 (parked (.obRel 0)) 0 = true) ∧
    (waits (of held) held (.accFree 0) ∧ held.eng.mats.any (held.names 0) = false) ∧
    (waits (of (token .failed (.ovrel 0))) (token .failed (.ovrel 0)) (.ovrel 0) ∧ (token .failed (.ovrel 0)).tokenLoading 0 = false) ∧
    (waits (of (token .resident (.ovwait 3 0))) (token .resident (.ovwait 3 0)) (.ovwait 3 0) ∧
      ((Tbl.find? (token .resident (.ovwait 3 0)).link.tokens 0).bind SlotOf.obj).map TokenObj.state = some .resident) ∧
    (waits (of (token .resident .ifence)) (token .resident .ifence) .ifence ∧ (token .resident .ifence).anyLoading = false) ∧
    (here (.stall .copiesFull) ∧ (at_ (.stall .copiesFull)).parkReady 4 (parked (.stall .copiesFull)) (.stall .copiesFull) = true) ∧
    (waits grp asleep (.tgWait 2 0) ∧ (Tbl.find? asleep.link.groups 0).bind SlotOf.obj = some { number := 7 } ∧
      Tbl.find? grp.fab.groups 7 = some done ∧ done.phase = .done) := by
  refine ⟨⟨plain_issuing, by decide⟩, ?_, ⟨?_, ?_, ?_, ?_, ?_, ?_⟩, ?_, ?_, ?_, ?_, ?_, ?_, ?_, ?_, ?_, ?_, ?_, ?_, ?_, ?_, ?_, ?_, ?_, ?_⟩
  on_goal 7 => intro v z h; exact (Prod.mk.inj (List.mem_singleton.mp h)).1
  all_goals decide +kernel

/-- Waits on a location: a completion object that is complete, one that is not, and one beyond the scratchpad; a barrier word of
each phase; and a half taken meanwhile, under either policy. -/
theorem witness_TeamEvents_looks :
    let waits : State → Team → Park → Prop := fun s t w => Tbl.find? s.teams 4 = some t ∧ t.status = .parked w ∧
      s.crewRuns t = true ∧ s.launchHalted t = false
    let join (off : Nat) : Team := parked (.cjoin (BitVec.ofNat 64 (scrBase + off)))
    let object (n : Nat) : State := demo (join 0) { crew with scratch := fields [(4, 4, n)] }
    let o (n : Nat) := objOf ((object n).readNat (.scratch 1 0) 16)
    let wait (ph : Nat) : Team :=
      { parked (.barWait (BitVec.ofNat 64 scrBase)) with ctl := { team.ctl with
          barrier := some { addr := BitVec.ofNat 64 scrBase, phase := BitVec.ofNat 16 ph } } }
    let taken (policy : Bool) (w : Park) : Team × State :=
      let t : Team := { parked w with link := { team.link with reclaimed := [(.a, 0)] } }
      (t, { of t with subs := [(0, {})], sets := [(1, { codeSet with overlays := [(0, ⟨64, policy⟩)] })] })
    (waits (object 0) (join 0) (.cjoin (BitVec.ofNat 64 scrBase)) ∧ 0 ≤ ((o 0).arrived - (o 0).expected).toInt ∧
      (o 1).status = 0 ∧ ((o 1).arrived - (o 1).expected).toInt < 0 ∧
      ((of (join 1024)).checkAccess (join 1024) (ownAccess (BitVec.ofNat 64 (scrBase + 1024)) 4 false)).toOption = none) ∧
    (∀ n, Unasked (object n) 4 (join 0)) ∧
    (∀ n ∈ [0, 1], Reaches (object n) (join 0) (ownAccess (BitVec.ofNat 64 scrBase) 4 false) (.scratch 1 0)) ∧
    (∀ ph ∈ [0, 1], Unasked (of (wait ph)) 4 (wait ph) ∧
      Reaches (of (wait ph)) (wait ph) { ownAccess (BitVec.ofNat 64 scrBase) 2 true with watched := false } (.scratch 1 0)) ∧
    (barrierPhase (BitVec.ofNat 32 ((of (wait 0)).readNat (.scratch 1 0) 4)) = 0 ∧ (wait 0).ctl.barrier.map BarrierRec.phase = some 0 ∧
      (wait 1).ctl.barrier.map BarrierRec.phase = some 1) ∧
    (∀ p, waits (taken p .ifence).2 (taken p .ifence).1 .ifence ∧
      (taken p .ifence).2.parkReady 4 (taken p .ifence).1 .ifence = true ∧
      (taken p .ifence).2.lostOverlay (taken p .ifence).1 .a 0 = some 0 ∧ (taken p .ifence).2.policyTrap (taken p .ifence).1 0 = p ∧
      (taken p .ifence).2.placeOf (taken p .ifence).1 = some (0, 0)) := by
  refine ⟨by decide +kernel, fun n => unaskedOf ⟨rfl, rfl, rfl, rfl⟩, fun n h => ?_, fun ph h => ⟨unaskedOf ⟨rfl, rfl, rfl, rfl⟩, ?_⟩,
    by decide +kernel, by decide +kernel⟩
  · simp only [List.mem_cons, List.not_mem_nil, or_false] at h
    rcases h with rfl | rfl <;> exact reachesOf (by decide +kernel)
  · simp only [List.mem_cons, List.not_mem_nil, or_false] at h
    rcases h with rfl | rfl <;> exact reachesOf (by decide +kernel)

/-- A load of overlay 1, which stands translated as three bytes with their check. -/
def loadOf (why : LoadFor) (h : Bank) : LoadReq := { half := h, set := 1, overlay := 1, fn := 0, why := why }
def begun (r : LoadReq) : LoadReq := { r with started := true }
def packedSet : TransSet := { codeSet with packed := [(1, ⟨[1, 2, 3], crc32c [1, 2, 3]⟩)] }
def loading (r : LoadReq) (t : Team) (c : Crew) : State :=
  { demo t c with subs := [(0, { halfA := some (1, 0), loads := [r] })], sets := [(1, packedSet)] }

theorem witness_LoadEvents :
    let sub (r : LoadReq) : State := loading r team crew
    let first (s : State) (r : LoadReq) : Prop := List.find? (fun l => l.half == r.half) (s.sub (0, 0)).loads = some r
    let good (s : State) (r : LoadReq) : Prop := (s.decideLoad r).2.checkLoad (s.decideLoad r).1 = true
    let bad (s : State) (r : LoadReq) : Prop := (s.decideLoad r).2.checkLoad (s.decideLoad r).1 = false
    let own (r : LoadReq) (k : Nat) : Bool := some k == r.crew
    -- LDINJ: not armed, armed and not yet, armed and now, with a mask and without
    ((loadOf .tokens .b).inj = .uncounted ∧ ({ loadOf .tokens .b with inj := .undecided 3 } : LoadReq).inj = .undecided 3 ∧ (0 : Word64).getLsbD 32 = false ∧
      ((0x101000000 : Word64).getLsbD 32 = true ∧ (0x101000000 : Word64).toNat / 2 ^ 24 % 2 ^ 8 ≠ 0) ∧
      ((0x100FF0001 : Word64).getLsbD 32 = true ∧ (0x100FF0001 : Word64).toNat / 2 ^ 24 % 2 ^ 8 = 0 ∧
        (0x100FF0001 : Word64).toNat / 2 ^ 16 % 2 ^ 8 ≠ 0 ∧ (0x100000001 : Word64).toNat / 2 ^ 16 % 2 ^ 8 = 0)) ∧
    -- the check
    (Tbl.find? (sub (loadOf .tokens .b)).sets 1 = some packedSet ∧
      (∃ k, Tbl.find? packedSet.packed 1 = some k ∧ k.check = crc32c k.bytes ∧ k.bytes ≠ []) ∧
      good (sub (begun (loadOf .tokens .b))) (begun (loadOf .tokens .b)) ∧
      bad (sub (begun (loadOf .tokens .b))) { begun (loadOf .tokens .b) with inj := .decided (some (1, 255)) }) ∧
    -- the start: it may, half A has another holder, the half holds the overlay
    (first (sub (loadOf .tokens .b)) (loadOf .tokens .b) ∧ ((sub (loadOf .tokens .b)).sub (0, 0)).half .b ≠ some (1, 1) ∧
      (sub (loadOf .tokens .b)).halfHeld (0, 0) .b (own (loadOf .tokens .b)) = false ∧ packedSet.ready = true) ∧
    (first (sub (loadOf .tokens .a)) (loadOf .tokens .a) ∧ ((sub (loadOf .tokens .a)).sub (0, 0)).half .a ≠ some (1, 1) ∧
      (sub (loadOf .tokens .a)).halfHeld (0, 0) .a (own (loadOf .tokens .a)) = true) ∧
    (let s : State := { sub (loadOf .tokens .b) with subs := [(0, { halfB := some (1, 1), loads := [loadOf .tokens .b] })] };
      first s (loadOf .tokens .b) ∧ (s.sub (0, 0)).half .b = some (1, 1) ∧ (s.decideLoad (loadOf .tokens .b)).1.altered = false) ∧
    (let r : LoadReq := { loadOf .tokens .b with inj := .decided (some (1, 255)) }
     let s : State := { sub r with subs := [(0, { halfA := some (1, 0), halfB := some (1, 1), loads := [r] })] }
     let s2 : State := (s.decideLoad r).2.modSub (0, 0) fun z => { z with loads := putHead .b (some (s.decideLoad r).1) z.loads };
      first s r ∧ (s.sub (0, 0)).half .b = some (1, 1) ∧ (s.decideLoad r).1.inj = .decided (some (1, 255)) ∧
      s2.halfHeld (0, 0) .b (own (s.decideLoad r).1) = false ∧ Tbl.find? s2.sets 1 = some packedSet) ∧
    -- the end of a load for tokens
    (first (sub (begun (loadOf .tokens .b))) (begun (loadOf .tokens .b)) ∧ (begun (loadOf .tokens .b)).started = true) ∧
    -- a load on demand
    (let t : Team := parked (.reload .b 1 0x8000)
     let r := begun (loadOf (.demand 4 true) .b)
     let s := loading r t crew;
      first s r ∧ good s r ∧ Tbl.find? s.teams 4 = some t ∧ s.placeOf t = some (0, 0) ∧ t.link.delivery = none ∧ t.link.probe = none ∧
      s.launchHalted t = false) ∧
    -- an entry fill, and a load at a restore, the first time and again
    (∀ why ∈ [LoadFor.entry 1, LoadFor.restore 1], ∀ again ∈ [false, true],
      let r : LoadReq := { begun (loadOf why .a) with retried := again }
      let s := loading r team { crew with status := .filling }
      first s r ∧ good s r ∧ Tbl.find? s.crews 1 = some { crew with status := .filling } ∧ r.retried = again) ∧
    -- a delivery
    (let st : TrapState := { cause := 0x0A }
     let t : Team := { parked (.reload .b 1 0x8010) with link := { team.link with delivery := some st } }
     let r := begun (loadOf (.delivery 4) .b)
     let s := loading r t crew;
      first s r ∧ good s r ∧ Tbl.find? s.teams 4 = some t ∧ t.link.delivery = some st ∧ s.launchHalted t = false ∧
      st.cause = BitVec.ofNat 32 Cause.swtrap.code) := by
  refine ⟨?_, ⟨?_, ⟨_, rfl, rfl, ?_⟩, ?_, ?_⟩, ?_, ?_, ?_, ?_, ?_, ?_, ?_, ?_⟩ <;> decide +kernel

/-- When crews begin: crew 1 is due, crew 2 waits for it, crew 3 for a crew that is away; and a half that a forced reclaim takes. -/
theorem witness_LoadEvents_crews :
    let c (k : Nat) (p : Option (Nat × Nat)) : Crew := { crew with index := k, status := .filling, place := p }
    let s : State := { plain with crews := [(1, c 0 (some (0, 0))), (2, c 1 (some (8, 0)))], launches := plain.launches }
    let away : State := { plain with crews := [(1, c 0 none), (2, c 1 (some (8, 0)))] }
    (Tbl.sortedFrom 0 s.crews = true ∧ Tbl.find? s.crews 1 = some (c 0 (some (0, 0))) ∧ (s.sub (0, 0)).loads = [] ∧
      ∀ e ∈ s.crews, e.2.launch = 1 → e.2.index < 0 → e.2.started = true) ∧
    ((c 1 (some (8, 0))).started = false ∧ Tbl.find? away.crews 1 = some (c 0 none) ∧ (c 0 none).launch = 1 ∧ (c 0 none).index < 1 ∧
      (c 0 none).started = false ∧ (c 0 none).place = none) ∧
    (plain.placeOf team = some (0, 0) ∧ team.status ≠ .retired ∧ team.ctl.bank = .a ∧ team.ctl.pc / 2 ^ 15 = 0 ∧
      plain.overlayIn team .a = some 0) := by
  decide +kernel

theorem witness_CrewStopEvents :
    let leaving (t : Team) : State := demo t { crew with status := .stopping .slice }
    let stood : Team := { team with link := { team.link with stopped := true } }
    let filling : State := demo team { crew with status := .filling }
    let tabled (k : Nat) : Crew := { crew with table := some 0, index := k }
    let two : State := { plain with crews := [(1, tabled 0), (2, tabled 1)] }
    (Tbl.find? plain.crews 1 = some crew ∧ Tbl.sortedFrom 0 plain.crews = true ∧ Tbl.sortedFrom 0 plain.teams = true ∧
      ∀ e ∈ plain.crews, (e.1 = 1 ∨ (crew.table ≠ none ∧ e.2.table = crew.table ∧ e.2.launch = crew.launch)) → e.2.status = .running) ∧
    ((tabled 0).table ≠ none ∧ ∀ e ∈ two.crews, e.2.table = (tabled 0).table ∧ e.2.launch = crew.launch ∧ e.2.status = .running) ∧
    -- nobody to evict it for, and no pool
    (plain.evictOk 1 crew = false ∧ plain.evictable 1 = false ∧ plain.chosen 0 = [] ∧ plain.poolTaker = none ∧
      plain.poolStopOk crew (0, 0) = false ∧ crew.place = some (0, 0)) ∧
    -- teams that have not begun, and one that stops already
    (filling.tableCrews 1 = [(1, { crew with status := .filling })] ∧
      (leaving team).tableCrews 1 = [(1, { crew with status := .stopping .slice })]) ∧
    -- saving: a team at its safe point, and one that is on its way to it
    (Tbl.find? (leaving stood).crews 1 = some { crew with status := .stopping .slice } ∧ (leaving stood).crewQuiet 1 = true ∧
      (leaving team).crewQuiet 1 = false) := by
  decide +kernel

theorem evictOk_of {s : State} {c : Nat} {cr : Crew} {p : Nat × Nat} (h : cr.place = some p) (he : s.evictable c = true)
    (ht : s.tableCrews c = [(c, cr)]) (hr : s.saveRoom cr.fn cr.saved = true)
    (hc : (s.chosen cr.fn).any (fun k => s.evictFor k c cr p) = true) : s.evictOk c cr = true := by
  unfold State.evictOk
  simp only [h, ht, List.foldl_cons, List.foldl_nil, Nat.zero_add, he, hr, hc, Bool.and_self]

theorem saveRoom_of {s : State} {v n : Nat} (h : s.areaSharers v = [v])
    (ho : (s.crews.all fun e => e.2.place.isSome && !(e.2.status == .stopping .evict)) = true) (hn : 2 ^ 22 * s.heldSubs v + n ≤ s.savearea v) : s.saveRoom v n = true := by
  have none_away : (s.crews.filter fun e => [v].contains e.2.fn && (e.2.place.isNone || e.2.status == .stopping .evict)) = [] := by
    rw [List.filter_eq_nil_iff]
    intro e he
    have := Bool.and_eq_true_iff.mp (List.all_eq_true.mp ho e he)
    cases hp : e.2.place <;> simp_all
  simp only [State.saveRoom, h, none_away, List.foldl_cons, List.foldl_nil, Nat.zero_add, decide_eq_true_iff]
  exact hn

/-- Board 0 in MODE 1 with function 0, whose next crew asks for the whole board, where the plain crew waits in cjoin. -/
def claimed : State :=
  { demo { team with status := .parked (.cjoin 0xFFFFFF0000000000) } crew with
    launches := [(1, launch), (2, { launch with serial := 2, ready := true, next := 0, pkt := { pkt with fuse := true } })]
    fns := [(0, { Fn.init 0 with state := .running })]
    dev := { State.reset.dev with brdcfg := [(0, 0x10000000)], sgcfg := [(0, 0x10000)] } }

theorem claimed_room : claimed.heldSubs 0 = 8 ∧ claimed.savearea 0 = 268435456 := by decide +kernel

/-- That crew may be evicted, wherever the save area has room for what the implementation keeps of it. -/
theorem witness_CrewStopEvents_evicted (room : Config.saveBytes 1024 1 ≤ 234881024) : claimed.evictOk 1 crew = true :=
  evictOk_of rfl (by decide +kernel) (by decide +kernel)
    (saveRoom_of (by decide +kernel) (by decide +kernel) (by
      rw [show crew.fn = 0 from rfl, claimed_room.1, claimed_room.2]
      have : crew.saved = Config.saveBytes 1024 1 := rfl
      omega)) (by decide +kernel)

/-- Board 0 in MODE 3, its eight sub-cores held by crews of function 0, whose share is none; function 1 has a share and waits. -/
theorem witness_CrewStopEvents_pool :
    let next : Launch := { launch with fn := 1, serial := 2, ready := true, next := 0 }
    let s : State := { plain with
      crews := (List.range 8).map fun i => (i + 1, { crew with index := i, place := some (i, 0) })
      launches := [(1, launch), (2, next)]
      fns := [(0, { Fn.init 0 with state := .running }), (1, { Fn.init 1 with state := .running, rates := [(0, 0x110200)] })]
      dev := { State.reset.dev with brdcfg := [(0, 0x30000000)] } }
    Tbl.find? s.crews 1 = some crew ∧ s.poolTaker = some 1 ∧ s.poolStopOk crew (0, 0) = true ∧ s.poolDue 1 = 4 ∧ s.poolSubs 0 = 8 := by
  decide +kernel

/-- The package running: board 0 in MODE 1 with function 0, which runs, and one launch of two crews, none placed. -/
def running (p : Packet) (l : Launch → Launch) : State :=
  { uids := 2, launches := [(1, l { launch with pkt := p, ready := true, next := 0 })], sets := [(1, codeSet)]
    fns := [(0, { Fn.init 0 with state := .running })], dev := { State.reset.dev with brdcfg := [(0, 0x10000000)] } }

theorem witness_PlacementEvents :
    let p2 : Packet := { pkt with ncrew := 2 }
    let table : Packet := { pkt with ncrew := 2, cpt := 2 }
    let s := running p2 id
    let l : Launch := { launch with pkt := p2, ready := true, next := 0 }
    let t := running table id
    let lt : Launch := { launch with pkt := table, ready := true, next := 0 }
    let saved : Crew := { crew with status := .saved .preempt, place := none, contexts := [], needA := some 0 }
    let away : State := { demo team saved with subs := [], fns := s.fns, dev := s.dev }
    let sliced (run : Option Nat) : State :=
      { s with dev := { s.dev with brdcfg := [(0, 0x21100100)], slices := [(0, { pos := 0, running := run, pair := some (0, 1) })] } }
    (Tbl.find? s.launches 1 = some l ∧ l.pkt.cpt = 0 ∧ s.placeOk 1 l (0, 0) = true ∧ s.placeOk 1 l (191, 0) = false) ∧
    (Tbl.find? t.launches 1 = some lt ∧ lt.pkt.cpt ≠ 0 ∧ [(0, 0), (7, 0)].length = min lt.pkt.cpt (lt.pkt.ncrew - lt.next) ∧
      (∀ q ∈ [(0, 0), (7, 0)], q.1 / 8 = 0) ∧ ([(0, 0), (7, 0)] : List (Nat × Nat)).Nodup ∧ (lt.pkt.fuse = true → t.boardCrews 0 = []) ∧
      ∀ q ∈ [(0, 0), (7, 0)], t.placeOk 1 lt q = true) ∧
    (∃ q ∈ [(0, 0), (8, 0)], t.placeOk 1 lt q = false) ∧
    (Tbl.find? l.sets (brdSplit (s.brd (boardOf 0))) = some 1 ∧ (s.sub (0, 0)).halfA ≠ some (1, l.kern.ovl) ∧
      (plain.sub (0, 0)).fn = l.fn ∧ (plain.sub (0, 0)).halfA = some (1, l.kern.ovl)) ∧
    (away.tableCrews 1 = [(1, saved)] ∧ away.restoreOk 1 saved (0, 0) = true ∧
      ((away.launches.find? saved.launch).map fun x => x.pkt.fuse).getD false = false ∧ Tbl.find? away.crews 1 = some saved ∧
      (away.fn saved.fn).trctl.getLsbD 0 = false ∧ Tbl.sortedFrom 0 away.teams = true ∧
      away.needLoad (0, 0) 1 saved .a saved.needA ++ away.needLoad (0, 0) 1 saved .b saved.needB ≠ [] ∧
      (away.sub (0, 0)).fn = saved.fn) ∧
    ((sliced (some 0)).slice 0).running = some 0 ∧
    (brdMode ((sliced none).brd 0) = 2 ∧ ((sliced none).slice 0).running = none ∧ (sliced none).boardCrews 0 = [] ∧
      (sliced none).brdMoving 0 = false ∧ ((sliced none).fn 0).withheld = []) ∧
    (brdMode (s.brd 0) ≠ 2 ∧ (s.slice 0).running = none) := by
  decide +kernel

/-- The crews of a table that return to two sub-cores of a board, and a crew whose halves hold what it needs; a slice's end with
nothing to run for the other function, and with a crew of its own to go on. -/
theorem witness_PlacementEvents_more :
    let base := running pkt id
    let saved (k : Nat) : Crew :=
      { crew with status := .saved .preempt, place := none, contexts := [], table := some 0, index := k }
    let two : State := { base with crews := [(1, saved 0), (2, saved 1)] }
    let one : Crew := { crew with status := .saved .preempt, place := none, contexts := [], started := true }
    let ready : State := { base with crews := [(1, one)], teams := [(4, team)] }
    let sliced (l : Tbl Fn) : State :=
      { plain with fns := l, dev := { State.reset.dev with
          brdcfg := [(0, 0x21100100)], slices := [(0, { pos := 0, running := some 0, pair := some (0, 1) })] } }
    let idle := sliced [(0, { Fn.init 0 with state := .running })]
    let c := idle.brd 0
    (two.tableCrews 1 = [(1, saved 0), (2, saved 1)] ∧
      (∀ e ∈ (two.tableCrews 1).zip [(0, 0), (7, 0)], two.restoreOk e.1.1 e.1.2 e.2 = true) ∧ two.restoreOk 1 (saved 0) (8, 0) = false) ∧
    (Tbl.find? ready.crews 1 = some one ∧ (ready.fn 0).trctl.getLsbD 0 = false ∧
      ready.needLoad (0, 0) 1 one .a one.needA ++ ready.needLoad (0, 0) 1 one .b one.needB = [] ∧ (ready.sub (0, 0)).fn = 0 ∧
      (ready.sub (0, 0)).loads = [] ∧ one.savedLoads = [] ∧ Tbl.find? ready.teams 4 = some team ∧ team.status = .runnable) ∧
    ((idle.slice 0).running = some 0 ∧ (if (0 + 1) % (brdSla c + brdSlb c) < brdSla c then brdVfa c else brdVfb c) = 1 ∧
      idle.sliceUsed 1 0 = false ∧ idle.sliceUsed 0 0 = true ∧ (idle.slice 1).running = none) ∧
    ((sliced []).boardCrews 0 ≠ [] ∧ Tbl.find? (sliced []).crews 1 = some crew ∧ crew.place = some (0, 0) ∧ 0 / 8 = 0) := by
  decide +kernel

/-- A value that governs anew on board 0, where crews of function 0 stand and function 1 has a launch to place. -/
def anew (c : Word64) : State :=
  { plain with
    launches := [(1, launch), (2, { launch with fn := 1, serial := 2, ready := true, next := 0 })]
    fns := [(0, { Fn.init 0 with state := .running }), (1, { Fn.init 1 with state := .running })]
    dev := { State.reset.dev with brdcfg := [(0, c)] } }

/-- Its round begins with the slices of VFA, which is function 0, whose crew stands there. -/
theorem witness_PlacementEvents_anew : brdMode ((anew 0x21100100).brd 0) = 2 ∧ (anew 0x21100100).brdMoving 0 = false ∧
    (anew 0x21100100).slice 0 = {} ∧ (anew 0x21100100).sliceUsed 0 0 = true ∧ (anew 0x21100100).boardCrews 0 = [(1, crew)] := by
  decide +kernel

/-- Its round begins with the slices of VFA, which is function 1, for which the crew of function 0 stops. -/
theorem witness_PlacementEvents_others : brdMode ((anew 0x21100001).brd 0) = 2 ∧ (anew 0x21100001).brdMoving 0 = false ∧
    (anew 0x21100001).slice 0 = {} ∧ (anew 0x21100001).sliceUsed 1 0 = true ∧ (anew 0x21100001).boardCrews 0 = [(1, crew)] := by
  decide +kernel

/-- Slice group 0 with function 0, whose guest-physical addresses below 1 GiB lie at its start, with an extent list of one entry
there: the 64 KiB at 0x10000 of the global space, in host memory. -/
def mapped (s : State) : State :=
  { s with
    fns := [(0, { Fn.init 0 with state := .running, s2bound := 0x40000000, lttcnt := 1 })]
    dev := { s.dev with sgcfg := [(0, 0x10000)], brdcfg := [(0, 0x10000000)], phase := 4 }
    mem := fields [(0, 8, 0x10000), (8, 8, 0x150)] }

def mapping : Extent := { va := 0x10000, log2 := 16, pa := 0, target := 1, w := true }

theorem witness_LaunchEvents :
    let packet : List Byte := leBytes 64 (2 ^ 32 + 255 * 2 ^ 168 + 8 * 2 ^ 192)
    let img : Image := { fn := 0, num := 0, imgid := 0, keySlot := 0, kernels := [kern], overlays := [], code := [] }
    let s : State := { mapped (running pkt id) with images := [img], launches := [] }
    let early : State := { s with dev := { s.dev with phase := 15 } }
    let bare : State := { s with fns := [(0, { s.fn 0 with quota := 0 })] }
    let l0 : Launch := { launch with pkt := pkt, next := 0 }
    let with_ (l : Launch) : State := { s with launches := [(1, l)], crews := [] }
    let awaits : Launch := { l0 with pkt := { pkt with await0 := 0x10000 } }
    let object (v : Nat × Nat × Nat) : State := { with_ awaits with host := fields [v] }
    let finished : Launch := { launch with ready := true, next := 1 }
    let signals : Launch := { finished with pkt := { pkt with signal := 0x10000 }, extents := [mapping] }
    let sliced : State := { with_ signals with dev := { s.dev with brdcfg := [(0, 0x21100100)], slices := [(0, { running := some 1, pair := some (0, 1) })] } }
    (early.dev.phase = 15 ∧ s.dev.phase ≠ 15 ∧ packet.length = 64 ∧ 0xF40 % 64 = 0 ∧ 0xF40 ≤ 0xF40 ∧ 0xF40 < 0xF80) ∧
    (s.packetFails 0 (leNat (leBytes 64 0)) = some 1) ∧
    (s.packetFails 0 (leNat packet) = none ∧ s.poolHeld 0 < (s.fn 0).quota.toNat % 2 ^ 14 ∧ s.poolHeld 0 < 64 ∧
      s.imageOf 0 ((packetOf (leNat packet)).kernel / 2 ^ 16) = some img ∧
      img.kernels[(packetOf (leNat packet)).kernel % 2 ^ 16]? = some kern) ∧
    (bare.packetFails 0 (leNat packet) = none ∧ (bare.fn 0).quota.toNat % 2 ^ 14 ≤ bare.poolHeld 0) ∧
    -- readiness
    (Tbl.find? (with_ l0).launches 1 = some l0 ∧ l0.ready = false ∧ l0.halted = false ∧ l0.pkt.await0 = 0 ∧ l0.pkt.await1 = 0 ∧
      (with_ l0).extentList l0.fn = (some [mapping], with_ l0) ∧ (with_ l0).listWaits l0.fn = false ∧
      List.find? (fun i : Image => i.fn == l0.fn && i.num == l0.image) (with_ l0).images = some img) ∧
    (awaits.pkt.await0 ≠ 0 ∧ awaits.pkt.await1 = 0 ∧ mapping.place 0 0x10000 = .host 0 ∧
      (object (4, 4, 1)).extentList 0 = (some [mapping], object (4, 4, 1)) ∧
      (object (4, 4, 1)).objPlace 0 [mapping] 0x10000 false = (some (.host 0), object (4, 4, 1)) ∧
      (object (4, 4, 1)).objWaits 0 [mapping] 0x10000 false = false ∧ (object (4, 4, 1)).markedIn (.host 0) 16 = false ∧ (∀ j, j < 16 → (object (4, 4, 1)).inFlight (Place.add (.host 0) j) = false) ∧
      (objOf ((object (4, 4, 1)).readNat (.host 0) 16)).status = 0 ∧
      ((objOf ((object (4, 4, 1)).readNat (.host 0) 16)).arrived - (objOf ((object (4, 4, 1)).readNat (.host 0) 16)).expected).toInt < 0) ∧
    ((objOf ((object (12, 4, 2)).readNat (.host 0) 16)).status.toNat = 1 + 1 ∧ (object (12, 4, 2)).signalWaits awaits = false) ∧
    -- an extent list that fails, and one that cannot be read yet
    (let unread : State := { with_ l0 with fns := [(0, { s.fn 0 with lttcnt := 1, lttptr := 0x1000000000 })] };
      unread.listWaits 0 = false ∧ unread.extentList 0 = (none, unread) ∧
      unread.signalWaits { l0 with ready := true, extents := [] } = false) ∧
    ({ with_ l0 with dev := { s.dev with testing := [{ kind := 1, num := 0 }] } } : State).listWaits 0 = true ∧
    -- completion
    (Tbl.find? (with_ l0).launches 1 = some l0 ∧ (with_ l0).launchOver 1 l0 = false) ∧
    (Tbl.find? (with_ finished).launches 1 = some finished ∧ (with_ finished).launchOver 1 finished = true ∧ finished.pkt.signal = 0 ∧
      (with_ finished).signalWaits finished = false) ∧
    (Tbl.find? (with_ signals).launches 1 = some signals ∧ (with_ signals).launchOver 1 signals = true ∧ signals.pkt.signal ≠ 0 ∧
      (with_ signals).descheduled signals.fn = false ∧ ((with_ signals).fn 0).withheld = [] ∧ (with_ signals).signalWaits signals = false) ∧
    (Tbl.find? sliced.launches 1 = some signals ∧ sliced.launchOver 1 signals = true ∧ sliced.descheduled signals.fn = true ∧
      sliced.signalWaits signals = false) ∧
    ((∀ j, j < 32 → s.inFlight (Place.add (.host 0) j) = false) ∧ s.readNat (Place.add (.host 0) 24) 8 = 0) ∧
    -- translation
    (Tbl.find? s.sets 1 = some codeSet ∧ codeSet.current = true ∧ codeSet.ready = true ∧
      (s.fn 0).tctl.getLsbD 0 = true ∧ (s.fn 0).tctl.toNat / 256 % 256 = codeSet.domain ∧
      ({ Fn.init 0 with tctl := 0 } : Fn).tctl.getLsbD 0 = false) := by
  refine ⟨?_, ?_, ?_, ?_, ?_, ?_, ?_, ?_, ?_, ?_, ?_, ?_, ?_, ?_, ?_⟩ <;> decide +kernel

/-- Where the device reaches the object of the last witness, and the two clauses of a full pool. -/
theorem witness_LaunchEvents_object : (mapped (running pkt id)).objPlace 0 [mapping] 0x10000 true = (some (.host 0), mapped (running pkt id)) ∧
    ∀ j j', j < 32 → j' < 32 → j ≠ j' → plain.cell (Place.add (.host 0) j) ≠ plain.cell (Place.add (.host 0) j') :=
  ⟨rfl, fun j j' _ _ h e => h (by simpa [State.cell, Place.add] using e)⟩

/-- A set of two overlays brought whole: with room, without, and with room once the set that nothing uses is gone. -/
theorem witness_LaunchEvents_sets :
    let packed : List (Nat × List Byte) := [(0, []), (1, [])]
    let x (r : Bool) : TransSet := { codeSet with ready := r }
    let spare : TransSet := { codeSet with imgid := 1, packed := [(0, ⟨[], 0⟩)] }
    let s (l : Tbl TransSet) (share : Nat) : State := { plain with sets := l, dev := { plain.dev with tcshare := share } }
    let size := packedSize (packTable packed)
    let fits (s : State) : Bool := s.cacheUsed + size ≤ s.tcsize
    let works (s : State) (w : Nat) : Prop := 15 < 16 ∧ { kind := 10, num := 15 } ∉ s.dev.testing ∧ s.barred 5 15 w = false
    (∀ o ∈ (x false).overlays, ∃ z ∈ packed, z.1 = o.1) ∧ (packed.map Prod.fst).Nodup ∧ size = 16 ∧
    (∀ r, Tbl.find? (s [(1, x r)] 1).sets 1 = some (x r) ∧ (x r).ready = r ∧ (x r).fetching = none) ∧
    (works plain 0 ∧ ∃ z ∈ plain.launches, (∃ m ∈ z.2.sets, m.2 = 1) ∧ z.2.fn = 0) ∧
    (fits (s [(1, x false)] 1) = true ∧ fits (s [(1, x false)] 0) = false ∧ (s [(1, x false)] 0).oldestSet = none) ∧
    (fits (s [(1, x false), (2, spare)] 1) = false ∧ (s [(1, x false), (2, spare)] 1).oldestSet = some 2 ∧
      Tbl.sortedFrom 0 (s [(1, x false), (2, spare)] 1).sets = true ∧
      fits { s [(1, x false), (2, spare)] 1 with sets := Tbl.erase [(1, x false), (2, spare)] 2 } = true) ∧
    -- made again with more care
    (let f : Fn := { Fn.init 0 with tctl := 1 };
      f.tctl.getLsbD 0 = true ∧ f.tctl.toNat / 256 % 256 = (x true).domain ∧ (x true).current = true ∧
        ({ f with tctl := 0 } : Fn).tctl.getLsbD 0 = false) := by
  refine ⟨?_, ?_, ?_, fun r => ⟨rfl, rfl, rfl⟩, ?_, ?_, ?_, ?_⟩ <;> decide +kernel

/-- An object in a slice group under test is written later, and one whose bytes are marked cannot be read. -/
theorem witness_LaunchEvents_late :
    let s := mapped (running pkt id)
    let tested : State := { s with dev := { s.dev with testing := [{ kind := 1, num := 0 }] } }
    let struck : State := { s with dev := { s.dev with poison := [(0, true)] } }
    let here : Extent := { mapping with target := 0 }
    let l : Launch := { launch with pkt := { pkt with signal := 0x10000 }, ready := true, extents := [here] }
    tested.signalWaits l = true ∧ s.signalWaits l = false ∧
    (s.objPlace 0 [here] 0x10000 false).1 = some (.gpa 0 0) ∧ struck.placeWaits 0 (.gpa 0 0) = false ∧ struck.markedIn (.gpa 0 0) 16 = true ∧
    (s.objPlace 0 [] 0x10000 false).1 = none := by
  decide +kernel

theorem witness_LaunchEvents_full :
    let s : State := { plain with launches := (List.range 6144).map fun i => (i, { launch with reserved := false }) }
    s.poolHeld 0 < 8192 ∧ 64 ≤ s.poolHeld 0 ∧ 6144 ≤ s.sharedUsed := by
  intro s
  have h : s.poolHeld 0 = 6144 := by
    rw [State.poolHeld, List.filter_eq_self.mpr (by simp [s, launch]), List.length_map, List.length_range]
  have h' : s.sharedUsed = 6144 := by
    rw [State.sharedUsed, List.filter_eq_self.mpr (by simp [s]), List.length_map, List.length_range]
  omega

/-! #### Paging, registers, functions -/

/-- A page request of the plain team, and its queue entry. -/
def request : PageReq := { fn := 0, uid := 4, va := 0x1000, gpa := 0, kind := 1, rep := 0, serial := 1 }
def entry (a : Option Bool) : PrqEntry := { gen := 3, req := some request, answer := a }

theorem witness_PagingEvents :
    let queue (e : PrqEntry) : State := { plain with dev := { plain.dev with prq := [(5, e)] }, fns := [(0, { Fn.init 0 with state := .running })] }
    let guest : Word64 := 0x10C05
    let hyp : State := queue { gen := 3, req := some { request with kind := 2 } }
    let y (st : PageState) : ProbeState := { vpc := 0, dest := 2, lanes := [(0, 0x1004, none)], f0 := none, pages := [(0x1000, st)] }
    let probing (st : PageState) : Team := { parked .probe with link := { team.link with probe := some (y st) } }
    let asked (e : PrqEntry) (t : Team) : State := { queue e with teams := [(4, t)] }
    -- a page table whose four levels stand in the first four pages of device memory, for 0x1000 to host page 0x5000
    let walks : State := { asked (entry (some true)) (probing (.requested 5)) with
      fns := [(0, { Fn.init 0 with state := .running, s2bound := 0x40000000, s1root := 1 })]
      dev := { plain.dev with sgcfg := [(0, 0x10000)], prq := [(5, entry (some true))] }
      mem := fields [(0, 8, 0x1001), (0x1000, 8, 0x2001), (0x2000, 8, 0x3001), (0x3008, 8, 0x500D)] }
    let crowd : State := { plain with
      dev := { plain.dev with
        prq := (List.range 16).map fun i => (i, { req := some request }), arbiters := [(6, { bucket := [(0, 1)] })] }
      fns := [(0, { Fn.init 0 with prqWait := [request] })] }
    -- PRRESP: the guest's answer, the hypervisor's, a late one, one past the field
    (guest.toNat < 2 ^ 17 ∧ guest.toNat % 1024 = 5 ∧ guest.toNat / 1024 % 64 = 3 ∧ Tbl.find? (queue (entry none)).dev.prq 5 = some (entry none) ∧
      (entry none).req = some request ∧ (entry none).gen = 3 ∧ (entry none).answer = none ∧ request.kind = 1 ∧ request.fn = 0 ∧
      ((queue (entry none)).fn request.fn).state ≠ .resetting) ∧
    (Tbl.find? hyp.dev.prq 5 = some { gen := 3, req := some { request with kind := 2 } } ∧ ({ request with kind := 2 } : PageReq).kind = 2) ∧
    (Tbl.find? (queue (entry (some true))).dev.prq 5 = some (entry (some true)) ∧ (entry (some true)).answer ≠ none) ∧
    2 ^ 17 ≤ (0x20000 : Word64).toNat ∧
    -- the ring registers, INVAL
    ((0xFFFF : Word64).toNat < 2 ^ 16 ∧ (plain.fn 0).ringHeld = [] ∧ plain.dev.hheld = [] ∧ 2 ^ 16 ≤ (0x10000 : Word64).toNat) ∧
    ((0x100C : Word64).toNat < 2 ^ 56 ∧ (0x100C : Word64).toNat / 16 % 256 = 0 ∧ 4 ≤ (0x1004 : Word64).toNat % 16 ∧
      (0x100C : Word64).toNat % 16 ≤ 12 ∧ (0x1003 : Word64) ≠ 0 ∧ (0x1003 : Word64).toNat % 16 < 4 ∧ 12 < (0x100D : Word64).toNat % 16) ∧
    ((0x1000 : Word64).toNat % 4096 = 0 ∧ (0x1001 : Word64).toNat % 4096 ≠ 0) ∧
    -- replay
    (Tbl.find? (asked (entry (some false)) (probing (.requested 5))).teams 4 = some (probing (.requested 5)) ∧
      (probing (.requested 5)).link.probe = some (y (.requested 5)) ∧
      (asked (entry (some false)) (probing (.requested 5))).crewRuns (probing (.requested 5)) = true ∧ plain.dev.phase ≠ 15 ∧
      (demo (probing (.requested 5)) { crew with status := .stopping .slice }).crewRuns (probing (.requested 5)) = false ∧
      (asked (entry (some false)) (probing (.requested 5))).duePage (y (.requested 5)) = some (0x1000, .requested 5) ∧
      (entry (some false)).answer = some false) ∧
    (walks.duePage (y (.requested 5)) = some (0x1000, .requested 5) ∧
      ((walks.endRequest 0 5).walk 0 0x1000).1 = .valid 0x5000 true true) ∧
    (asked (entry none) (probing (.requested 5))).duePage (y (.requested 5)) = none ∧
    (({ walks with mem := [] } : State).duePage (y (.requested 5)) = some (0x1000, .requested 5) ∧
      ((({ walks with mem := [] } : State).endRequest 0 5).walk 0 0x1000).1 = .invalid ∧ request.rep ≠ 3 ∧
      ({ request with rep := 3 } : PageReq).rep = 3) ∧
    (let tested : State := { walks with dev := { walks.dev with testing := [{ kind := 1, num := 0 }] } };
      tested.duePage (y (.requested 5)) = some (0x1000, .requested 5) ∧ ((tested.endRequest 0 5).walk 0 0x1000).1 = .waits) ∧
    -- a request, with a ring that has room and without an entry of its own
    ((plain.fn request.fn).prqWait = [] ∧ plain.prqHeld request.fn false < 16 ∧
      (0 < 1024 ∧ (Tbl.find? plain.dev.prq 0).bind PrqEntry.req = none) ∧ request.kind = 1 ∧ (plain.fn request.fn).ringHeld = [] ∧
      16 ≤ ({ crowd with fns := [] } : State).prqHeld request.fn false ∧ (({ crowd with fns := [] } : State).fn 0).prqWait = []) ∧
    -- the final pass
    (Tbl.find? (asked (entry none) (probing (.refused 2))).teams 4 = some (probing (.refused 2)) ∧ (y (.refused 2)).lanes = [(0, 0x1004, none)] ∧
      0 < (probing (.refused 2)).nlane ∧ (0x1004 : Word64).toNat / 4096 * 4096 = 0x1000 ∧ (y (.refused 2)).pages = [(0x1000, .refused 2)]) ∧
    ((y (.granted 0x5000 true true)).pages = [(0x1000, .granted 0x5000 true true)] ∧ (probing (.granted 0x5000 true true)).link.pages = [] ∧
      (plain.extentsOf (probing (.granted 0x5000 true true))).length < 2048) ∧
    -- a shared entry
    ((crowd.arbiter 6).choose 1024 crowd.sharedWaiters = some (0, 3) ∧ (crowd.fn 0).prqWait = [request]) ∧ plain.sharedWaiters = [] := by
  refine ⟨?_, ?_, ?_, ?_, ?_, ?_, ?_, ?_, ?_, ?_, ?_, ?_, ?_, ?_, ?_⟩ <;> decide +kernel

/-- A ring of 16 records at guest-physical 0x1000 has a place for the record of kind 1. -/
theorem witness_PagingEvents_ring :
    let s : State := { mapped plain with fns := [(0, { Fn.init 0 with state := .running, s2bound := 0x40000000, prqbase := 0x1004 })] }
    (s.ringPlace 0 1).isSome = true ∧ (s.fn 0).ringHeld = [] ∧ (s.fn 0).prqWait = [] ∧ s.prqHeld 0 false < 16 := by
  decide +kernel

theorem witness_RegisterEvents :
    let off : State := { plain with fns := [(1, { Fn.init 1 with state := .running })] }
    let rates : Word64 := 0x110400
    let sum (s : State) (x : Word64) : Nat := guarSum (fun w => if w = 1 then x else (s.fn w).rate 3) (s.metered 3)
    let other : State := { plain with fns := [(2, { Fn.init 2 with rates := [(3, 0x110001)] })] }
    let stg (s : State) : Nat := (List.range 32).foldl (fun m w => if w = 1 then m else m + (s.fn w).stgq.toNat) 0
    let staging : State := { plain with fab := { plain.fab with stgsize := 1 } }
    let linked (l : Link) : State := { plain with fab := { plain.fab with links := [(15, l)] } }
    let r : DestRec := { gid := ⟨1, 0, 1⟩, st := .inDoubt }
    let doubt : State := { plain with fab := { plain.fab with recs := [r] } }
    let id : Word64 := BitVec.ofNat 64 (groupBits r.gid)
    (plain.dev.phase ≠ 15 ∧ (0 : Word64) = 0 ∧ (1 : Word64) ≠ 0 ∧ (0xFFFFFFFF : Word64).toNat < 2 ^ 32 ∧ (plain.fn 1).trWait = [] ∧
      2 ^ 32 ≤ (0x100000000 : Word64).toNat) ∧
    ((0xFFC0000000 : Word64).toNat < 2 ^ 40 ∧ (0xFFC0000000 : Word64).toNat % 2 ^ 30 = 0 ∧
      ¬ ((0x20000000 : Word64).toNat < 2 ^ 40 ∧ (0x20000000 : Word64).toNat % 2 ^ 30 = 0) ∧
      (1 ≠ 0 ∧ (plain.fn 1).state = .off) ∧ ¬ (1 ≠ 0 ∧ (off.fn 1).state = .off)) ∧
    ((0x100000802000 : Word64).toNat / 2 ^ 32 ≤ 4096 ∧ (0x100000802000 : Word64).toNat / 2 ^ 24 % 2 ^ 8 = 0 ∧
      (0x100000802000 : Word64).toNat / 2 ^ 16 % 256 ≤ 128 ∧ (0x100000802000 : Word64).toNat / 2 ^ 14 % 4 = 0 ∧
      64 ≤ (0x100000802000 : Word64).toNat % 2 ^ 14 ∧ (0x100000802000 : Word64).toNat % 2 ^ 14 ≤ 8192 ∧
      ¬ 64 ≤ (0x3F : Word64).toNat % 2 ^ 14) ∧
    (3 < 7 ∧ rates.toNat < 2 ^ 24 ∧ 1 ≤ rates.toNat / 2 ^ 20 ∧ rates.toNat / 2 ^ 17 % 8 = 0 ∧ rates.toNat / 2 ^ 11 % 32 = 0 ∧
      rates.toNat % 2 ^ 11 ≤ 1024 ∧ sum plain rates ≤ 1024 ∧ 1024 < sum other rates ∧ ¬ (0x110401 : Word64).toNat % 2 ^ 11 ≤ 1024) ∧
    ((0x100000 : Word64).toNat < 2 ^ 27 ∧ (0x100000 : Word64).toNat % 64 = 0 ∧
      stg staging + (0x100000 : Word64).toNat ≤ staging.fab.stgsize * 2 ^ 20 ∧
      staging.fab.stgsize * 2 ^ 20 < stg staging + (0x100040 : Word64).toNat ∧ ¬ (0x20 : Word64).toNat % 64 = 0) ∧
    (1 ≤ 15 ∧ 15 ≤ 15 ∧ 7 < 8 ∧ (plain.dev.keys.get (List.replicate 8 0) 15).getD 7 0 = 0) ∧
    ((0x103FF : Word64).toNat < 2 ^ 17 ∧ (0x103FF : Word64).toNat / 2 ^ 10 % 64 = 0 ∧ (∀ k, k < 16 → (plain.link k).state = 0) ∧
      ((linked { state := 1 }).link 15).state ≠ 0 ∧ (0x400 : Word64).toNat / 2 ^ 10 % 64 ≠ 0 ∧ 2 ^ 17 ≤ (0x20000 : Word64).toNat) ∧
    ((0x100000000 : Word64).toNat < 2 ^ 48 ∧ (0x100000000 : Word64).toNat / 2 ^ 24 % 256 = 0) ∧
    (15 < 16 ∧ (7 : Word64).toNat % 2 ^ 32 < 8 ∧ (7 : Word64).getLsbD 2 = true ∧ (plain.link 15).retired = false ∧
      8 ≤ (8 : Word64).toNat % 2 ^ 32 ∧ ((linked { retired := true }).link 15).retired = true) ∧
    ((id + 0x100000000).toNat < 2 ^ 34 ∧ (id + 0x100000000).toNat / 2 ^ 31 % 2 = 0 ∧ (id + 0x100000000).toNat / 2 ^ 32 = 1 ∧
      (id + 0x200000000).toNat / 2 ^ 32 = 2 ∧
      List.find? (fun r : DestRec => groupBits r.gid == (id + 0x100000000).toNat % 2 ^ 31 && r.st == .inDoubt) doubt.fab.recs = some r ∧
      ∀ r ∈ plain.fab.recs, r.st ≠ .inDoubt) := by
  refine ⟨?_, ?_, ?_, ?_, ?_, ?_, ?_, ?_, ?_, ?_⟩ <;> decide +kernel

theorem witness_FunctionEvents :
    let one : Word64 := 0x10000000
    let sliced : Word64 := 0x21100100
    let toOne : Word64 := 0x10000001
    let owner1 : Word64 := 0x10001
    let owner2 : Word64 := 0x10002
    let owned : State := { plain with dev := { plain.dev with sgcfg := [(0, owner1)] } }
    let loaded : State := { owned with fns := [(1, { Fn.init 1 with rates := [(0, 0x110400)] }), (3, { Fn.init 3 with rates := [(0, 0x110001)] })] }
    let after (s : State) (x : Word64) : State := { s with dev := { s.dev with sgcfg := Tbl.set s.dev.sgcfg 0 0 x } }
    let busy1 : State := { plain with fns := [(1, { Fn.init 1 with state := .running })] }
    let retired : State := { plain with dev := { plain.dev with retiredGroups := [(0, true)] } }
    let at_ (st : VfState) : State := { plain with
      dev := { plain.dev with sgcfg := [(0, owner1)], brdcfg := [(0, toOne)] }
      fns := [(1, { Fn.init 1 with state := st, s2bound := 0x40000000 })] }
    let saving : State := { plain with dev := { plain.dev with ckstat := 1, ckcmd := 1 } }
    (23 < 24 ∧ one.toNat < 2 ^ 30 ∧ one.toNat / 2 ^ 18 % 4 = 0 ∧ one.toNat / 2 ^ 13 % 8 = 0 ∧ one.toNat / 2 ^ 5 % 8 = 0 ∧ brdSplit one ≠ 3 ∧
      brdMode one = 1 ∧ brdVfb one = 0 ∧ brdSla one = 0 ∧ brdSlb one = 0 ∧ plain.boardCrews 23 = []) ∧
    (brdMode sliced = 2 ∧ brdVfb sliced ≠ brdVfa sliced ∧ 1 ≤ brdSla sliced ∧ 1 ≤ brdSlb sliced ∧ brdSplit (0x30000 : Word64) = 3) ∧
    (Tbl.find? plain.crews 1 = some crew ∧ crew.place = some (0, 0) ∧ 0 / 8 = 0 ∧ crew.status = .running ∧ plain.crewStays toOne crew = false ∧
      crew.table = none ∧ crew.place.map (fun p => p.1 / 8) ≠ some 23) ∧
    -- SGCFG
    (owner1.toNat < 2 ^ 18 ∧ owner1.toNat / 2 ^ 5 % 2 ^ 11 = 0 ∧ sgMode owner1 = 1 ∧ sgMode (0x20000 : Word64) = 2 ∧
      (∀ u ∈ plain.sgAffected (plain.sg 0) owner1, u ≠ 0 ∧ (plain.fn u).state = .off) ∧
      (∀ a, a < 3 → guarSum (fun w => (plain.fn w).rate a) ((after plain owner1).metered a) ≤ 1024) ∧
      plain.dev.retiredGroups.get false 0 = false) ∧
    (retired.dev.retiredGroups.get false 0 = true ∧ sgMode owner1 = 1) ∧
    (busy1.dev.retiredGroups.get false 0 = false ∧ ¬ ∀ u ∈ busy1.sgAffected (busy1.sg 0) owner1, u ≠ 0 ∧ (busy1.fn u).state = .off) ∧
    ((∀ u ∈ loaded.sgAffected (loaded.sg 0) owner2, u ≠ 0 ∧ (loaded.fn u).state = .off) ∧
      ¬ ∀ a, a < 3 → guarSum (fun w => (loaded.fn w).rate a) ((after loaded owner2).metered a) ≤ 1024) ∧
    -- writes by level
    (31 < 32 ∧ plain.dev.phase ≠ 15 ∧ 0xE50 ≤ 0xEB8 ∧ 0x1000 ≤ 0x1000 ∧
      ({ plain with dev := { plain.dev with phase := 15 } } : State).dev.phase = 15 ∧ 0x1400 ≠ 0x1408 ∧ 0xD04 % 8 ≠ 0) ∧
    -- functions
    (1 ≤ 1 ∧ 1 ≤ 31 ∧ (at_ .off).checkpointing = false ∧ ((at_ .off).fn 1).state = .off ∧ (at_ .off).enableCode 1 = 0) ∧
    (plain.enableCode 1 ≠ 0 ∧ (plain.fn 1).state = .off ∧ saving.checkpointing = true) ∧
    (((at_ .preparing).fn 1).state = .preparing ∧ ((at_ .running).fn 1).state = .running ∧ ((at_ .resetting).fn 1).state = .resetting ∧
      6 < 7) ∧
    -- a reset that can write its objects, and one whose list stands in a slice group under test
    (let waits : State := { at_ .resetting with
        fns := [(1, { (at_ .resetting).fn 1 with lttcnt := 1 })]
        launches := [(1, { launch with fn := 1, ready := false })]
        dev := { (at_ .resetting).dev with testing := [{ kind := 1, num := 0 }] } };
      (at_ .resetting).resetWaits 1 = false ∧ (waits.fn 1).state = .resetting ∧ waits.resetWaits 1 = true) ∧
    -- nothing held back
    (plain.dev.hheld = [] ∧ ∀ u, u < 32 → (plain.fn u).ringHeld = [] ∧ (plain.fn u).trWait = [] ∧ (plain.fn u).withheld = [] ∧
      (plain.fn u).msix = []) := by
  refine ⟨?_, ?_, ?_, ?_, ?_, ?_, ?_, ?_, ?_, ?_, ?_, ?_, ?_⟩ <;> decide +kernel

/-! #### Images, boot, attestation, reliability -/

/-- The plain state with function 1 running, 64 KiB of device memory at slice group 0, and a command of an image running. -/
def imaging (cmd : Word64) (f : Fn → Fn) : State := { plain with
  fns := [(1, f { Fn.init 1 with state := .running, s2bound := 0x10000, imgstat := 1, imgcmd := cmd, imglen := 16
                                 imgSource := List.replicate 16 0 })]
  dev := { plain.dev with sgcfg := [(0, 0x10001)] } }

theorem witness_ImageEvents :
    let idle : State := { plain with fns := [(1, { Fn.init 1 with state := .running })] }
    let img : Image := { fn := 1, num := 0, imgid := 0, keySlot := 0, kernels := [kern], overlays := [], code := [] }
    let held : State := { idle with images := [img] }
    let load : State := imaging 1 id
    let unload : State := { imaging 2 id with images := [img] }
    let used : State := { unload with launches := [(1, { launch with fn := 1 })] }
    let zeros : List Byte := List.replicate 16 0
    (15 < 16 ∧ load.dev.testing.contains { kind := 10, num := 15 } = false ∧ plain.dev.phase ≠ 15 ∧
      ({ load with dev := { load.dev with testing := [{ kind := 10, num := 15 }] } } : State).dev.testing.contains { kind := 10, num := 15 } = true) ∧
    ((load.fn 1).imgstat.toNat % 4 = 1 ∧ 0 < 64 ∧ (idle.fn 1).imgstat.toNat % 4 ≠ 1 ∧ (idle.fn 2).state ≠ .running ∧
      (idle.fn 2).imgstat.toNat % 4 ≠ 1 ∧ (idle.fn 1).state = .running) ∧
    (idle.imageOf 1 0 = none ∧ held.imageOf 1 0 = some img ∧ 64 ≤ 64) ∧
    ((load.fn 1).imgcmd = 1 ∧ (load.fn 1).state = .running ∧ load.imageSource 1 = (some zeros, load) ∧ (load.fn 1).imgSource = zeros ∧
      load.checkImage 1 zeros = .error 1 ∧ ((imaging 1 fun f => { f with imglen := 0x10001 }).imageSource 1).1 = none ∧
      load.sourceWaits 1 = false ∧ ({ load with dev := { load.dev with testing := [{ kind := 1, num := 0 }] } } : State).sourceWaits 1 = true) ∧
    ((unload.fn 1).imgstat.toNat % 4 = 1 ∧ (unload.fn 1).imgcmd.toNat % 4 = 2 ∧ (unload.fn 1).imgcmd.toNat / 2 ^ 16 = 0 ∧
      (∀ e ∈ unload.launches, ¬ (e.2.fn = 1 ∧ e.2.image = 0)) ∧ ∃ e ∈ used.launches, e.2.fn = 1 ∧ e.2.image = 0) := by
  refine ⟨?_, ?_, ?_, ?_, ?_⟩ <;> decide +kernel

/-- A little-endian field for each pair of a length and a value. -/
def record (l : List (Nat × Nat)) : List Byte := l.flatMap fun e => leBytes e.1 e.2
/-- A section header (R70): its name's offset, its place, its size. -/
def sectionHeader (name off size : Nat) : List Byte := record [(4, name), (4, 1), (16, 0), (8, off), (8, size), (24, 0)]
/-- An image of no kernel and no overlay: seven sections, the headers at byte 64, the names at byte 512, the signature at byte 592. -/
def imageHead : List Byte :=
  record [(4, 0x464C457F), (1, 2), (1, 1), (10, 0), (2, 2), (2, 0x5A96), (4, 1), (8, 0), (8, 0), (8, 64), (4, 1), (2, 64), (4, 0)
    , (2, 64), (2, 7), (2, 4)]
    ++ sectionHeader 0 0 0 ++ sectionHeader 1 512 0 ++ sectionHeader 18 512 0 ++ sectionHeader 34 512 0 ++ sectionHeader 42 512 80
    ++ sectionHeader 50 592 29808 ++ sectionHeader 62 0 0
    ++ (([0] ++ ascii ".troric.overlays" ++ [0] ++ ascii ".troric.kernels" ++ [0] ++ ascii ".symtab" ++ [0] ++ ascii ".strtab" ++ [0]
      ++ ascii ".troric.sig" ++ [0] ++ ascii ".troric.data") ++ List.replicate 6 0)
    ++ record [(4, 1), (4, 1), (8, 0)]
def imageFile : List Byte := imageHead ++ List.replicate 29792 0
/-- The signature section. -/
def imageSig : Section := { index := 5, name := ascii ".troric.sig", offset := 592, size := 29808 }
/-- A key in slot 1. -/
def keyed : State := { imaging 1 id with dev := { (imaging 1 id).dev with keys := [(1, 1 :: List.replicate 7 0)] } }

/-- A good image, wherever its signature verifies: the file passes every check, with image number 0 free. -/
theorem witness_ImageEvents_loaded
    (h : slhVerify slh256s (keyed.keyBytes 1) (imageFile.take 592) (imageFile.drop 608) = true) :
    ∃ p, keyed.checkImage 1 imageFile = .ok p ∧ keyed.freeImage 1 = some 0 ∧ p.headers = [] := by
  have hl : imageFile.length = 30400 := by decide +kernel
  obtain ⟨l, hs⟩ : ∃ l, sectionTable imageFile = some l := Option.isSome_iff_exists.mp (by decide +kernel)
  have hx : (sectionTable imageFile).bind (findSection · ".troric.sig") = some imageSig := by decide +kernel
  have hp : ((sectionTable imageFile).bind fun l => partsOf imageFile l imageSig).map (fun p => (p.headers, p.overlays)) =
    some ([], []) := by decide +kernel
  rw [hs] at hx hp
  simp only [Option.bind_some] at hx hp
  obtain ⟨p, hp1, hp2⟩ := Option.map_eq_some_iff.mp hp
  have hk : num imageFile (592 + 4) 4 = 1 := by decide +kernel
  have hc : (592 + 29808 == (30400 : Nat) && (29808 : Nat) == sigSize && decide (num imageFile 40 8 + 64 * num imageFile 60 2 ≤ 592)
    && keyed.keySet 1 && (keyed.fn 1).keyOk 1) = true := by decide +kernel
  have ho : keyed.signedOk 1 imageFile imageSig = true := by
    unfold State.signedOk imageSig
    simp only [hk, hl, h, Bool.and_true]
    exact hc
  refine ⟨p, ?_, by decide +kernel, (Prod.mk.inj hp2).1⟩
  have he : elfHeaderOk imageFile = true := by decide +kernel
  simp [State.checkImage, he, hs, hx, ho, hp1, (Prod.mk.inj hp2).1, (Prod.mk.inj hp2).2]

theorem witness_BootAndCheckpointEvents :
    let boot (n : Nat) : State := { plain with dev := { plain.dev with phase := n } }
    let one : Word64 := 1
    let running_ (cmd : Word64) (s : State) : State := { s with dev := { s.dev with ckstat := 1, ckcmd := cmd } }
    let moving : State := { plain with fns := [(1, { Fn.init 1 with state := .preparing })] }
    let some_ : State := { plain with fns := [(1, { Fn.init 1 with state := .running })] }
    let saved : State := { plain with crews := [(1, { crew with place := none })] }
    let kept (s : State) (c : Checkpoint) : State := { s with dev := { s.dev with safe := [(0, c)] } }
    let other : Checkpoint := { plain.checkpoint with retiredCols := [(0, true)] }
    ((boot 0).dev.phase = 0 ∧ (boot 0).dev.staged = none ∧ (boot 0).dev.phase ≤ 3 ∧ (boot 3).dev.phase = 3 ∧ 3 < (boot 4).dev.phase ∧ 1 ≤ 1 ∧ 1 ≤ 5 ∧ one.getLsbD 0 = true ∧
      (0 : Word64).getLsbD 0 = false) ∧
    ((running_ 1 plain).dev.ckstat.toNat % 4 = 1 ∧ plain.dev.ckstat.toNat % 4 ≠ 1 ∧
      (∀ v, v < 32 → (plain.fn v).state ≠ .preparing ∧ (plain.fn v).state ≠ .resetting) ∧
      ¬ (∀ v, v < 32 → (moving.fn v).state ≠ .preparing ∧ (moving.fn v).state ≠ .resetting)) ∧
    ((∀ v, 1 ≤ v → v < 32 → (plain.fn v).state = .off) ∧ ¬ (∀ v, 1 ≤ v → v < 32 → (some_.fn v).state = .off)) ∧
    ((running_ 1 plain).dev.ckcmd = 1 ∧ (∀ e ∈ (running_ 1 saved).crews, e.2.place = none) ∧ (running_ 1 saved).sealed = true ∧
      ∃ e ∈ (running_ 1 plain).crews, e.2.place ≠ none) ∧
    ((running_ 2 plain).dev.ckcmd = 2 ∧ Tbl.find? (running_ 2 plain).dev.safe (running_ 2 plain).dev.ckbase.toNat = none ∧
      Tbl.find? (kept (running_ 2 plain) plain.checkpoint).dev.safe (running_ 2 plain).dev.ckbase.toNat = some plain.checkpoint ∧
      plain.checkpoint.retiredCols = plain.dev.retiredCols ∧ plain.checkpoint.retiredGroups = plain.dev.retiredGroups ∧
      Tbl.find? (kept (running_ 2 plain) other).dev.safe (running_ 2 plain).dev.ckbase.toNat = some other ∧
      other.retiredCols ≠ plain.dev.retiredCols) := by
  refine ⟨?_, ?_, ?_, ?_, rfl, rfl, rfl, rfl, rfl, rfl, ?_⟩ <;> decide +kernel

/-- CKLEN holds what CKNEED asks, or less; CKNEED is the implementation's. -/
theorem witness_BootAndCheckpointEvents_room :
    let room : State := { plain with dev := { plain.dev with cklen := plain.ckneed } }
    room.ckneed.toNat ≤ room.dev.cklen.toNat ∧ (plain.ckneed ≠ 0 → plain.dev.cklen.toNat < plain.ckneed.toNat) := by
  refine ⟨Nat.le_refl _, fun h => ?_⟩
  have : plain.dev.cklen.toNat = 0 := rfl
  have : plain.ckneed.toNat ≠ 0 := fun e => h (BitVec.eq_of_toNat_eq (by simpa using e))
  omega

/-- A staged firmware whose signature is empty does not verify; where the fused counter has passed version 0, it is refused for it. -/
theorem witness_BootAndCheckpointEvents_staged :
    let w : Firmware := ⟨[], [], 0, []⟩
    let s : State := { plain with dev := { plain.dev with phase := 0, staged := some w } }
    s.dev.phase = 0 ∧ s.dev.staged = some w ∧
    ¬ slhVerify slh256s Config.fusedKey (Config.firmwareMessage w.image w.policy w.version) w.sig = true := by
  refine ⟨rfl, rfl, ?_⟩
  simp [slhVerify, show (0 == slh256s.sigBytes) = false by decide +kernel]

/-- The bytes that a save writes are those that its restore looks for; and a byte that has changed since. -/
theorem witness_BootAndCheckpointEvents_bytes :
    let c := plain.checkpoint
    let written : List Byte := (List.range plain.ckneed.toNat).map (Config.ckByte c.image)
    let s : State := { plain with host := pokes [] plain.dev.ckbase.toNat written }
    peeks s.host s.dev.ckbase.toNat s.ckneed.toNat = written ∧
    (0 < plain.ckneed.toNat →
      peeks (poke s.host s.dev.ckbase.toNat (Config.ckByte c.image 0 + 1)) s.dev.ckbase.toNat s.ckneed.toNat ≠ written) := by
  intro c written s
  have l : written.length = plain.ckneed.toNat := by simp [written]
  refine ⟨?_, fun h e => ?_⟩
  · exact l ▸ peeks_pokes [] _ written
  · have z := congrArg (·[0]?) e
    simp [peeks, peek_poke, written, s, h, show s.ckneed = plain.ckneed from rfl] at z

theorem witness_AttestationEvents :
    let with_ (c : Spdm) : State := { plain with dev := { plain.dev with mctp := c, doe := c } }
    let asked := with_ { version := some 0 }
    let settled := with_ { version := some 0x12, caps := true, algs := true }
    (0 < 2 ∧ 1 < 2 ∧ plain.dev.phase ≠ 15) ∧ ((asked.spdm 1).version = some 0 ∧ (settled.spdm 1).version ≠ some 0) ∧
    ((settled.spdm 0).caps = true ∧ (settled.spdm 0).algs = true ∧ (plain.spdm 0).caps = false ∧ (plain.spdm 0).algs = false) ∧
    ((0x14 ≠ 0x12 ∧ 0x14 ≠ 0x13) ∧ 1 ≤ 5 ∧ 5 ≤ 5 ∧ 5 < 6 ∧ 6 ≠ 255 ∧ 900 ≤ 900 ∧ 1800 ≤ 1800 ∧ 1800 < 1801 ∧ 12 ≤ 12) ∧
    ({ plain.dev with received := some Config.factory }.received = some Config.factory ∧ plain.dev.received = none) := by
  refine ⟨?_, ?_, ?_, ?_, rfl, rfl⟩ <;> decide +kernel

theorem witness_ReliabilityEvents :
    let testing (k n : Nat) : State := { plain with dev := { plain.dev with testing := [{ kind := k, num := n }] } }
    let minor (n : Nat) : State := { plain with dev := { plain.dev with counters := [(0, { minors := [(5, n)] })] } }
    let busy : State := { plain with dev := { plain.dev with counters := [(0, { busy := true })] } }
    ((testing 1 0).dev.testing.contains { kind := 1, num := 0 } = true ∧ (testing 2 0).dev.testing.contains { kind := 2, num := 0 } = true ∧
      (testing 9 7).dev.testing.contains { kind := 9, num := 7 } = true ∧ plain.dev.testing.contains { kind := 9, num := 7 } = false ∧
      (∀ c, ErrPlace.mem 64 ≠ .saved c) ∧ ErrClass.tagMismatch ≠ .corrected) ∧
    -- units on whose sub-cores no crew is left, and one that a crew is still on; the record of the last error
    ((∀ p ∈ plain.unitSubs { kind := 9, num := 7 }, plain.crewsAt p = []) ∧ (∀ p ∈ plain.unitSubs { kind := 5, num := 191 }, plain.crewsAt p = []) ∧
      (∀ p ∈ plain.unitSubs { kind := 1, num := 511 }, plain.crewsAt p = []) ∧ (∀ p ∈ plain.unitSubs { kind := 11, num := 15 },
        plain.crewsAt p = []) ∧
      (∃ p ∈ plain.unitSubs { kind := 9, num := 0 }, plain.crewsAt p ≠ []) ∧
      0x90007000000 / 2 ^ 40 % 256 = 9 ∧ 0x90007000000 / 2 ^ 24 % 2 ^ 16 = 7 ∧ 0x90007000000 / 2 ^ 8 % 256 = 0) ∧
    ((testing 1 0).groupTested (64 * 5 / 2 ^ 35) = true ∧ plain.groupTested (64 * 5 / 2 ^ 35) = false ∧
      (busy.counterBlock 1 0).busy = true ∧ (busy.counterBlock 1 0).minors.get 0 63 = 0) ∧
    (∀ k ∈ [2, 3], let c : CounterPage := { busy := true };
      (({ plain with dev := { plain.dev with parents := [(parentKey k 0, c)] } } : State).counterBlock k 0) = c ∧ c.minors.get 0 63 = 0) ∧
    (busy.pageBusy (5 / 64) = true ∧ (minor 126).pageBusy (5 / 64) = false ∧
      ((minor 126).counterBlock 1 (5 / 64)).minors.get 0 (5 % 64) < 127 ∧ (minor 127).pageBusy (5 / 64) = false ∧
      127 ≤ ((minor 127).counterBlock 1 (5 / 64)).minors.get 0 (5 % 64)) ∧ (1 ≤ 1 ∧ 3 ≤ 3 ∧ 11 < 12) := by
  refine ⟨⟨?_, ?_, ?_, ?_, fun c h => ?_, ?_⟩, ?_, ?_, ?_, ?_, ?_⟩
  on_goal 5 => cases h
  all_goals decide +kernel

/-! #### The engines -/

/-- A copy of four bytes, issued with the state it read; and the team with it in its first batch. -/
def copy4 : CopyOp :=
  { id := 1, kind := .g2g, desc := ⟨0x1000, 0x1800, 1, 1, 1, 2, 0, 0, 0, 0, 0⟩
    src := { low := 0x1000, place := .host 0, span := 4 }, dst := { low := 0x1800, place := .host 0x800, span := 4 } }
def copying (b : Batch) (f : Engines → Engines) : Team := { team with eng := f { team.eng with closed := [b], batches := 1 } }

theorem witness_EngineCopyEvents_apart : copy4.elems = [(.host 0, .host 0x800)] ∧
    (∀ i j, i < 4 → j < 4 → plain.cell (Place.add (.host 0) i) ≠ plain.cell (Place.add (.host 0x800) j)) ∧
    (∀ x y, x < 4 → y < 4 → x ≠ y → plain.cell (Place.add (.host 0x800) x) ≠ plain.cell (Place.add (.host 0x800) y)) ∧
    ∀ x, x < 4 → plain.cell (Place.add (.host 0x800) x) ≠ none := by
  refine ⟨by decide +kernel, fun i j hi hj h => ?_, fun x y _ _ hxy h => ?_, fun x _ h => ?_⟩ <;>
    simp [State.cell, Place.add] at h <;> omega

theorem witness_EngineCopyEvents :
    let t := copying { seq := 1, ops := [copy4] } id
    let done : CopyOp := { copy4 with done := true, poison := true, vals := [[1, 2, 3, 4]] }
    let ended := copying { seq := 1, ops := [done] } fun e => { e with
      stamps := [{ id := 1, addr := 0, place := .host 0, scope := .device, upto := 1 }] }
    let row : GatherRow := { lane := 0, srcAddr := 0x1000, dstAddr := 0x1800, src := .host 0, dst := .host 0x800 }
    let gather (n : Nat) : CopyOp := { copy4 with id := n, kind := .gather, rows := [row], sent := true }
    let gathers (l : List CopyOp) : Team := { team with eng := { team.eng with gathers := l } }
    let red : CopyOp := { copy4 with kind := .red }
    let reds (o : CopyOp) : Team := copying { seq := 1, ops := [o] } id
    let found : Team → Prop := fun t => Tbl.find? (of t).teams 4 = some t ∧ (of t).placeOf t = some (0, 0)
    let second : CopyOp := { copy4 with id := 2 }
    let both := copying { seq := 1, ops := [copy4, second] } id
    let answers (t : Team) (o : CopyOp) : Prop := ∀ e ∈ o.elems, e.1.remote = false ∧ e.2.remote = false ∧
      (of t).refuses e.1 4 = false ∧ (of t).refuses e.2 4 = false ∧ (of t).placeWaits 0 e.1 = false ∧ (of t).placeWaits 0 e.2 = false
    let settled (t : Team) (o : CopyOp) (p : Place) : Prop := ((of t).past 1 o.snap).readBytes p 4 = (of t).readBytes p 4 ∧
      (of t).markedIn p 4 = false ∧ ∀ i, i < 4 → (of t).inFlight (p.add i) = false
    (found t ∧ List.find? (fun o : CopyOp => o.id == 1) t.eng.batchOps = some copy4 ∧ t.eng.copyDue copy4 = true ∧ copy4.kind ≠ .red ∧
      copy4.kind ≠ .gather ∧ copy4.susp = none ∧ copy4.tested = none ∧ copy4.vals = [] ∧ answers t copy4 ∧
      (∀ e ∈ copy4.elems, e.2.within copy4.src.place copy4.src.span = false) ∧ ∀ e ∈ copy4.elems, settled t copy4 e.1) ∧
    (found both ∧ List.find? (fun o : CopyOp => o.id == 2) both.eng.batchOps = some second ∧ both.eng.copyDue second = false) ∧
    -- a batch that is complete, with a stamp that covers it, and one that is not
    (found ended ∧ ended.eng.closed = [{ seq := 1, ops := [done] }] ∧ done.err = false ∧ answers ended done ∧
      done.vals.length = done.elems.length ∧ (∀ v ∈ done.vals, v.length = 4) ∧ ended.eng.open_ = [] ∧
      ended.eng.stamps ≠ [] ∧ t.eng.stamps = [] ∧ copy4.done = false) ∧
    (found (gathers [gather 1, gather 2]) ∧ (gathers [gather 1, gather 2]).eng.gathers = [gather 1, gather 2] ∧
      (∀ x ∈ [gather 2], x.id ≠ 1) ∧ (gather 1).mustAsk = false ∧ (gather 1).tested = none ∧ (gather 1).id ≠ 2 ∧
      (gathers [gather 1, { gather 2 with done := true }]).eng.gathers = [gather 1, { gather 2 with done := true }]) ∧
    -- a segment of a cp.red, not combined yet and combined
    (found (reds red) ∧ List.find? (fun o : CopyOp => o.id == 1 && o.kind == .red) (reds red).eng.batchOps = some red ∧
      (reds red).eng.copyDue red = true ∧ red.ready = true ∧ red.mustAsk = false ∧ red.sent = false ∧ 0 < red.segments ∧
      red.applied.contains 0 = false ∧ answers (reds red) red ∧ (redOp red.desc.op).isSome = true ∧
      red.segment 0 = [(0, .host 0, .host 0x800)] ∧ settled (reds red) red (.host 0) ∧ red.overlaps (.host 0x800) = false ∧
      (∀ j, j < 4 → (of (reds red)).overwritten (Place.add (.host 0x800) j) = false) ∧
      (∀ e ∈ (of (reds red)).teams, ∀ y ∈ e.2.eng.flying, y.kind = .red) ∧
      ({ red with applied := [0] } : CopyOp).applied.contains 0 = true) ∧
    -- an error of a read, the first time, the third, and after it; and its test
    (List.find? (fun o : CopyOp => o.id == 1) t.eng.flying = some copy4 ∧ copy4.elems[0]? = some (.host 0, .host 0x800) ∧ copy4.ready = true ∧
      (Place.host 0).remote = false ∧ (of t).markedIn (.host 0) 4 = false ∧ Tbl.get copy4.abandons 0 0 < 2 ∧
      Tbl.get ({ copy4 with abandons := [(0, 2)] } : CopyOp).abandons 0 0 = 2 ∧
      3 ≤ Tbl.get ({ copy4 with abandons := [(0, 3)] } : CopyOp).abandons 0 0 ∧ (1 ≤ 11 ∧ 11 ≤ 11)) ∧
    (let o : CopyOp := { copy4 with tested := some (9, 7), failed := [{ row := 0, granule := Place.granule (.host 0), test := some (9, 7) }] }
     let s : State := { of (reds o) with dev := { plain.dev with testing := [{ kind := 9, num := 7 }] } };
      found (reds o) ∧ o ∈ (reds o).eng.flying ∧ (∃ f ∈ o.failed, f.test = some (9, 7)) ∧
      s.dev.testing.contains { kind := 9, num := 7 } = true ∧ ∀ p ∈ (of (reds o)).unitSubs { kind := 9, num := 7 }, (of (reds o)).crewsAt p = []) := by
  refine ⟨?_, ?_, ?_, ?_, ?_, ?_, ?_⟩ <;> decide +kernel

theorem witness_StampAndStopEvents :
    let stamp : Stamp := { id := 1, addr := 0x1000, place := .host 0, scope := .device, upto := 1 }
    let watched : Stamp := { stamp with watches := [(3, ⟨0x1000, 8, none, false, true, true⟩)] }
    let with_ (m : Stamp) (l : List Batch) : Team := { team with eng := { team.eng with closed := l, batches := 2, stamps := [m] } }
    let batch (n : Nat) : Batch := { seq := n, ops := [] }
    let adv (p : Bool) : Advance := { slot := 0, producer := p, n := 1, after := 1 }
    let advancing (p : Bool) (l : List Batch) (ms : List MatOp) : Team :=
      { team with eng := { team.eng with closed := l, batches := 2, advances := [adv p], mats := ms } }
    let trk := trackOf 1 0
    let mma (ws : Tbl Watch) : MatOp := { seq := 1, array := 0, kind := .mma false rangeObj rangeObj 0 0 geom 3, watches := ws }
    let w : Watch := ⟨0, 8, some (0, 1), false, true, true⟩
    let mat : Team := { arrayTeam with eng := { arrayTeam.eng with mats := [mma [(3, w)]], matLast := 1 } }
    let found : State → Team → Prop := fun s t =>
      Tbl.find? s.teams 4 = some t ∧ s.placeOf t = some (0, 0) ∧ t.status = .runnable
    let o : CopyOp := { copy4 with watches := [(3, ⟨0x1800, 4, none, false, true, true⟩)] }
    let g : CopyOp := { o with kind := .gather, rows := [{ lane := 1, srcAddr := 0x1000, dstAddr := 0x1800, src := .host 0, dst := .host 0x800 }] }
    let asks (t : Team) (o : CopyOp) : Prop := List.find? (fun o : CopyOp => o.id == 1) t.eng.flying = some o ∧ o.ready = true ∧
      o.mustAsk = false ∧ o.sent = false ∧ o.err = false ∧ o.vals.length ≤ o.progress ∧ (∀ e ∈ o.elems, (of t).refuses e.1 4 = false ∧ (of t).refuses e.2 4 = false ∧
        (of t).placeWaits 0 e.1 = false ∧ (of t).placeWaits 0 e.2 = false) ∧ (o.firstHit.map Prod.fst) = some o.progress
    let side : Side := { low := 0x1000, place := .host 0, span := 1024 }
    let st (ws : Tbl Watch) : MatOp := { seq := 1, array := 0, kind := .accSt side 0 [], watches := ws }
    let storing (ws : Tbl Watch) : Team := { arrayTeam with eng := { arrayTeam.eng with mats := [st ws], matLast := 1 } }
    (found (of (with_ stamp [batch 2])) (with_ stamp [batch 2]) ∧ (with_ stamp [batch 2]).eng.stamps = [stamp] ∧
      stamp.susp = none ∧ stamp.sent = false ∧
      (∀ b ∈ [batch 2], stamp.upto < b.seq) ∧ (∀ o ∈ (with_ stamp [batch 2]).eng.fabric, stamp.fab < o.idx ∨ o.pending = 0) ∧
      stamp.watches = [] ∧ plain.placeWaits 0 stamp.place = false ∧ stamp.place.remote = false ∧ plain.refuses stamp.place 8 = false ∧
      ∃ b ∈ (with_ stamp [batch 1]).eng.closed, b.seq ≤ stamp.upto) ∧
    (∀ p, found (tracked (advancing p [batch 2] []) trk) (advancing p [batch 2] []) ∧
      List.find? (fun a : Advance => a.slot == 0) (advancing p [batch 2] []).eng.advances = some (adv p) ∧
      (tracked (advancing p [batch 2] []) trk).track 1 0 = some trk ∧ (adv p).after < (batch 2).seq ∧
      (∃ b ∈ (advancing p [batch 1] [mma []]).eng.closed, b.seq ≤ (adv p).after) ∧
      ∃ m ∈ (advancing p [batch 1] [mma []]).eng.mats, m.seq ≤ (adv p).after) ∧
    (found (of (with_ watched [])) (with_ watched []) ∧ (with_ watched []).eng.stampDue watched = true ∧
      sideHit watched.watches watched.addr.toNat 8 false true = some ⟨3, 0x1000, true⟩ ∧ watched.exempt = false) ∧
    -- a copy, and a gather at its second lane
    ((let t := copying { seq := 1, ops := [o] } id; found (of t) t ∧ asks t o ∧ t.eng.copyDue o = true ∧ o.kind ≠ .red) ∧
      (let t : Team := { team with eng := { team.eng with gathers := [g] } }; found (of t) t ∧ asks t g ∧ g.kind = .gather)) ∧
    (found (ranged mat) mat ∧ mat.matAt 1 = some (mma [(3, w)], { n := 1 }) ∧
      mat.mmaHit (mma [(3, w)]) { n := 1 } = some ((mma [(3, w)]).progress, ⟨3, 0, true⟩)) ∧
    -- an acc.st, at the element that it reads and at the byte that it writes
    (∀ x ∈ [((⟨0, 8, some (0, 1), true, false, true⟩ : Watch), true), (⟨0x1000, 1, none, false, true, true⟩, false)],
      let m := st [(3, x.1)]
      let t := storing [(3, x.1)]
      found (of t) t ∧ t.matAt 1 = some (m, { n := 1 }) ∧ ((t.stHit m { n := 1 }).map fun z => (z.1, z.2.1)) = some (m.progress, x.2) ∧
      m.sent = false ∧ (of t).sideWaits 0 side = false) ∧
    (2 < 3 ∧ 1 ≤ 3 ∧ 3 ≤ 3 ∧ (plain.fn 0).trctl.getLsbD 0 = false ∧ 3 < 4) := by
  refine ⟨?_, ?_, ?_, ?_, ?_, ?_, ?_⟩ <;> decide +kernel

theorem witness_EngineMatrixEvents :
    let arr : ArrayObj := { n := 1, elems := [(0, 0x3F800000)] }
    let mma : MatOp := { seq := 1, array := 0, kind := .mma false rangeObj rangeObj 0 0 geom 3 }
    let dst : Side := { low := 0x1000, place := .host 0, span := 1024 }
    let st (sent : Bool) (pending : Nat) : MatOp := { seq := 1, array := 0, kind := .accSt dst 0 [], sent := sent, pending := pending }
    let with_ (l : List MatOp) : Team :=
      { team with eng := { team.eng with arrays := [(0, { obj := some arr })], mats := l, matLast := 1 } }
    let found : MatOp → Prop := fun m => Tbl.find? (ranged (with_ [m])).teams 4 = some (with_ [m]) ∧
      (ranged (with_ [m])).placeOf (with_ [m]) = some (0, 0) ∧ m.seq = 1 ∧ m.done = false ∧ m.susp = none ∧ m.watches = [] ∧
      m.read = none ∧ (Tbl.find? (with_ [m]).eng.arrays m.array).bind SlotOf.obj = some arr ∧ Pool.gen (with_ [m]).eng.arrays m.array = m.gen
    let stores := (with_ [st false 0]).storeWrites (st false 0) arr
    (found mma ∧ (Tbl.find? (ranged (with_ [mma])).crews team.crew).isSome = true) ∧
    (let y : MatOp := { st false 0 with seq := 2 };
      (with_ [mma, y]).eng.mats = [mma, y] ∧ mma.seq ≠ 2 ∧ y.array = mma.array ∧ y.read = none ∧ mma.done = false) ∧
    found (st true 0) ∧ found (st true 1) ∧ found (st false 0) ∧
    ((st false 0).progress = 0 ∧ (st false 0).exempt = none ∧ dst.place.remote = false ∧ plain.sideWaits 0 dst = false ∧
      ∀ w ∈ stores, w.at_ < (with_ [st false 0]).arrayLen arr ∧ plain.refuses (dst.place.add w.off) w.data.length = false) ∧
    stores.length = 256 ∧ (stores[0]?).map (fun w => (w.off, w.data)) = some (0, [0, 0, 0x80, 0x3F]) := by
  refine ⟨?_, ?_, ?_, ?_, ?_, ?_, ?_, ?_⟩ <;> decide +kernel

/-! #### The fabric -/

theorem witness_FabricLinkEvents :
    let with_ (l : Link) : State := { plain with fab := { plain.fab with links := [(3, l)] } }
    let up : State := with_ { en := true, state := 2, rxNext := 5, txNext := 9, txAcked := 7 }
    -- SEQ 5, ACK 8
    let body : List Byte := leBytes 4 (5 + 8 * 2 ^ 12) ++ List.replicate 56 0
    let good : List Byte := body ++ leBytes 4 (crc32c body).toNat
    let bad : List Byte := body ++ leBytes 4 ((crc32c body).toNat + 1)
    let flit (seq ack kind : Nat) : List Byte := flitBytes seq ack kind (List.replicate 56 0)
    let spare : List Byte := leBytes 4 (2 ^ 28) ++ List.replicate 56 0
    let intact : List Byte → Prop := fun f => (crc32c (f.take 60)).toNat = leNat (f.drop 60) ∧
      leNat (f.take 4) / 2 ^ 24 % 16 ≤ 3 ∧ leNat (f.take 4) / 2 ^ 28 = 0
    let r : FabReq := { id := 1, fn := 0, uid := 4, node := 2, raddr := 0, op := .load 4, use := .access 0 }
    let mapped_ (l : List FabReq) : State := { plain with fab := { plain.fab with pendingMap := some 0, requests := l } }
    let routed : State := { mapped_ [r] with fab := { (mapped_ [r]).fab with links := [(0, { en := true, state := 2 })] } }
    (((with_ { en := true, state := 1 }).link 3).state = 1 ∧ ((with_ { en := true, state := 1 }).link 3).en = true ∧ plain.fab.requests = [] ∧
      plain.fab.wires = [] ∧ (∀ e ∈ plain.fab.streams, e.2.failed = false) ∧ (plain.link 3).state ≠ 1 ∧ (plain.link 3).state = 0 ∧
      ((with_ { en := true, state := 1 }).link 3).retired = false ∧ ((with_ { state := 1, retired := true }).link 3).retired = true) ∧
    ((up.link 3).state = 2 ∧ up.dev.phase ≠ 15 ∧ ({ up with dev := { up.dev with phase := 15 } } : State).dev.phase = 15 ∧ up.linkRoom 3 = true ∧ good.length = 64 ∧ intact good ∧ leNat (good.take 4) / 2 ^ 24 % 16 = 0 ∧
      0 < (leNat (good.take 4) / 2 ^ 12 % 4096 + 4096 - (up.link 3).txAcked) % 4096 ∧
      (leNat (good.take 4) / 2 ^ 12 % 4096 + 4096 - (up.link 3).txAcked) % 4096 ≤
        ((up.link 3).txNext + 4096 - (up.link 3).txAcked) % 4096) ∧
    (∀ k ∈ [1, 2, 3], (flit 5 8 k).length = 64 ∧ intact (flit 5 8 k) ∧ leNat ((flit 5 8 k).take 4) / 2 ^ 24 % 16 = k ∧
      leNat ((flit 5 8 k).take 4) % 4096 = (up.link 3).rxNext) ∧
    (bad.length = 64 ∧ ¬ intact bad ∧ (flit 6 8 1).length = 64 ∧ leNat ((flit 6 8 1).take 4) % 4096 ≠ (up.link 3).rxNext ∧
      ¬ intact (flit 5 8 4) ∧ ¬ intact (spare ++ leBytes 4 (crc32c spare).toNat) ∧ (up.link 3).nacked = false ∧
      ((with_ { up.link 3 with nacked := true }).link 3).nacked = true) ∧
    ((8 + 4096 - (up.link 3).txAcked) % 4096 < ((up.link 3).txNext + 4096 - (up.link 3).txAcked) % 4096 ∧ (up.link 3).rounds < 7 ∧
      8 ≠ (up.link 3).txAcked ∧ (up.link 3).txAcked < 4096 ∧
      ((up.link 3).txNext + 4096 - (up.link 3).txAcked) % 4096 ≤ (9 + 4096 - (up.link 3).txAcked) % 4096 ∧
      (up.link 3).txNext % 4096 ≠ (up.link 3).txAcked % 4096 ∧ ((with_ { up.link 3 with rounds := 7 }).link 3).rounds = 7) ∧
    ((mapped_ []).fab.pendingMap = some 0 ∧ (mapped_ []).fab.requests = [] ∧ (mapped_ []).fab.wires = [] ∧
      (∃ q ∈ (mapped_ [{ r with link := some 0 }]).fab.requests, q.link ≠ none) ∧
      plain.fab.pendingMap = none) ∧
    (List.find? (fun r : FabReq => r.id == 1 && r.link.isNone) (mapped_ [r]).fab.requests = some r ∧ (mapped_ [r]).route r.raddr = none ∧
      List.find? (fun r : FabReq => r.id == 1 && r.link.isNone) routed.fab.requests = some r ∧ routed.route r.raddr ≠ none ∧
        (∀ q ∈ plain.fab.requests, q.id ≠ 1)) ∧
    (let b : State := { routed with fab := { routed.fab with planemap := 0, pendingMap := none, fabid := 0x10000 } };
      r.link = none ∧ r.release = none ∧ b.fabValid = true ∧ b.route r.raddr = some 0 ∧ b.linkRoom 0 = true ∧ b.barred 3 0 r.fn = false ∧
      b.fab.requests = [r] ∧ b.fab.wires = []) := by
  refine ⟨?_, ?_, ?_, ?_, ?_, ?_, ?_, ?_⟩ <;> decide +kernel

/-- The fabric of node 0 with link 4, of plane 2, up. -/
def live : Fabric := { plain.fab with fabid := 0x10000, links := [(4, { en := true, state := 2 })] }

theorem live_delivers {s : State} (hi : s.fab.fabid = live.fabid) (hl : s.fab.links = live.links) (hd : (s.dev.phase != 15) = true) :
    s.delivers = true := by
  have up : s.linkUp 4 = true := by simp only [State.linkUp, State.link, hl]; rfl
  simp only [State.delivers, State.fabValid, hi, hd, Bool.and_true, Bool.and_eq_true, List.any_eq_true]
  exact ⟨by decide, 4, by decide, up⟩

theorem witness_FabricRequestEvents :
    let s : State := { plain with
      fns := [(1, { Fn.init 1 with state := .running, s2bound := 0x10000 })]
      dev := { plain.dev with sgcfg := [(0, 0x10001)] }, fab := live }
    let struck : State := { s with dev := { s.dev with poison := [(0, true)] } }
    let saving : State := { s with dev := { s.dev with ckstat := 1 } }
    let h : HeldRelease := { origin := 2, fn := 1, id := 1, raddr := 0, op := .store [1], n := 3 }
    let held (k : Nat) : State := { s with fab := { s.fab with heldReleases := [h], arrived := [(1026, k)] } }
    let tested : State := { s with dev := { s.dev with testing := [{ kind := 1, num := 0 }] } }
    let r : FabReq := { id := 1, fn := 0, uid := 4, node := 2, raddr := 0, op := .load 4, use := .access 0, link := some 0 }
    let waiting : FabReq := { r with link := none, release := some 3 }
    let failed (b : Bool) : State := { s with fab := { s.fab with requests := [waiting], streams := [(2, { failed := b })] } }
    let sent : State := { plain with fab := { plain.fab with requests := [r] } }
    (s.planeDelivers 2 = true ∧ s.planeDelivers 3 = false ∧ s.delivers = true ∧ plain.delivers = false ∧ s.dev.phase ≠ 15 ∧
      s.checkpointing = false ∧ s.remoteWaits 1 0xFFFC (.load 4) = false ∧ s.remoteWaits 1 0xFFFC (.store [1, 2, 3, 4]) = false ∧
      struck.remoteWaits 1 0 (.load 4) = false ∧ s.remoteWaits 2 0 (.store [1]) = false ∧ tested.remoteWaits 1 0 (.load 4) = true ∧
      (s.fn 1).state = .running ∧ 2 ≠ s.node ∧ 0xFFFC + 4 ≤ (s.fn 1).s2bound.toNat ∧
      s.markedIn (.gpa 1 0xFFFC) 4 = false ∧ (∀ i, i < 4 → s.inFlight (.gpa 1 (0xFFFC + i)) = false) ∧
      struck.markedIn (.gpa 1 0) 4 = true ∧ (struck.fn 1).state = .running ∧ 0 + 4 ≤ (struck.fn 1).s2bound.toNat ∧
      (s.fn 1).s2bound.toNat < 0xFFFD + 4 ∧ ¬ (s.fn 2).state = .running ∧ saving.checkpointing = true) ∧
    ((BitVec.ofNat 32 (Tbl.get s.fab.arrived 0 1026) - BitVec.ofNat 32 3).toInt < 0 ∧
      0 ≤ (BitVec.ofNat 32 (Tbl.get s.fab.arrived 0 1026) - BitVec.ofNat 32 0).toInt) ∧
    (List.find? (fun h : HeldRelease => h.origin == 2 && h.id == 1) (held 2).fab.heldReleases = some h ∧
      (BitVec.ofNat 32 (Tbl.get (held 2).fab.arrived 0 (h.fn * 1024 + 2)) - BitVec.ofNat 32 h.n).toInt < 0 ∧
      0 ≤ (BitVec.ofNat 32 (Tbl.get (held 3).fab.arrived 0 (h.fn * 1024 + 2)) - BitVec.ofNat 32 h.n).toInt ∧ 2 ≠ (held 3).node ∧
        (held 3).checkpointing = false ∧ (held 3).remoteWaits h.fn h.raddr h.op = false) ∧
    (s.fab.wires = [] ∧ s.fabValid = true ∧ s.planeLink 2 0 = some 4 ∧ s.linkRoom 4 = true ∧ s.planeLink 3 0 = none) ∧
    (∀ b, List.find? (fun r : FabReq => r.id == 1 && r.link.isNone && r.release.isSome) (failed b).fab.requests = some waiting ∧
      ((failed b).stream waiting.fn waiting.node).failed = b) ∧
    (List.find? (fun r : FabReq => r.id == 1 && r.link.isSome) sent.fab.requests = some r ∧ (∀ r ∈ plain.fab.requests, r.id ≠ 1) ∧
      r.use = .access 0 ∧ Tbl.find? sent.teams r.uid = some team ∧ sent.fab.groups = [] ∧ sent.fab.streams = [] ∧
      sent.fab.wires = []) ∧
    (2 ≠ plain.node ∧ plain.fab.lostNodes.contains 2 = false ∧ ({ plain.fab with lostNodes := [2] } : Fabric).lostNodes.contains 2 = true ∧
      ({ plain with fab := { plain.fab with fabid := 0x10000 } } : State).fabValid = true) := by
  refine ⟨?_, ?_, ?_, ?_, ?_, ?_, ?_⟩ <;> decide +kernel

/-- A set of the running translator's version, ready or asked for; what a peer sends, if its signature is right, and with none. -/
theorem witness_FabricRequestEvents_peers
    (h : let p : PeerSet := { imgid := 0, split := 0, xver := plain.xver, domain := 0, packed := [(0, [5], crc32c [5]), (1, [], crc32c [])] };
      slhVerify slh256f (Config.identityKey 2) (Config.peerMessage p.imgid p.split p.xver p.domain p.packed) [1] = true) :
    let x (r : Bool) (f : Option Nat) : TransSet := { codeSet with xver := plain.xver, ready := r, fetching := f }
    let s (x : TransSet) : State := { plain with
      sets := [(1, x)], fns := [(0, { Fn.init 0 with tctl := 2 })], dev := { plain.dev with tcshare := 2 ^ 26 },
        fab := live }
    let p : PeerSet := { imgid := 0, split := 0, xver := plain.xver, domain := 0, packed := [(0, [5], crc32c [5]), (1, [], crc32c [])] }
    let message : PeerSet → List Byte := fun p => Config.peerMessage p.imgid p.split p.xver p.domain p.packed
    let good : List Byte → Prop := fun sig => slhVerify slh256f (Config.identityKey 2) (message p) sig = true ∧ p.imgid = (x false (some 3)).imgid ∧
      p.split = (x false (some 3)).split ∧ p.xver = (s (x false (some 3))).xver ∧ p.domain = ((s (x false (some 3))).fn 0).tctl.toNat / 256 % 256 ∧
      (∀ o ∈ (x false (some 3)).overlays, ∃ e ∈ p.packed, e.1 = o.1) ∧ ∀ e ∈ p.packed, crc32c e.2.1 = e.2.2
    let packed : Tbl Packed := p.packed.foldl (fun t e => Tbl.insert t e.1 ⟨e.2.1, e.2.2⟩) []
    (∀ r f, (s (x r f)).currentSet 0 0 0 = some 1 ∧ Tbl.find? (s (x r f)).sets 1 = some (x r f) ∧ (s (x r f)).xver = plain.xver) ∧
    (∀ y ∈ [x true none, x false (some 3)], ((s y).fn 0).tctl.getLsbD 1 = true ∧ (s y).fabValid = true ∧ (s y).barred 5 0 0 = false ∧ (s y).delivers = true ∧
      ((s y).fn 0).tctl.toNat / 256 % 256 = 0) ∧
    good [1] ∧ ¬ good [] ∧ (s (x false (some 3))).cacheUsed + packedSize packed ≤ (s (x false (some 3))).tcsize ∧
    plain.currentSet 9 0 0 = none ∧ (plain.fn 0).tctl.getLsbD 1 = false ∧ plain.xver + 1 ≠ plain.xver := by
  refine ⟨fun r f => ⟨?_, rfl, rfl⟩, ?_, ⟨h, rfl, rfl, rfl, by decide +kernel, by decide, ?_⟩, ?_, ?_, ?_, ?_, ?_⟩
  · simp [State.currentSet, codeSet]; rfl
  · decide +kernel
  · intro e he
    simp only [List.mem_cons, List.not_mem_nil, or_false] at he
    obtain rfl | rfl := he <;> rfl
  · rintro ⟨h, -⟩
    simp [slhVerify, show (0 == slh256f.sigBytes) = false by decide +kernel] at h
  · decide +kernel
  · decide +kernel
  · decide +kernel
  · omega

theorem witness_GroupEvents_destination :
    let gid : GroupId := ⟨2, 1, 5⟩
    let cell : List Host.Cell := [(0x40, 1)]
    let r (st : RecState) : DestRec := { gid := gid, st := st, arrived := 1, bytes := cell }
    let at_ (l : List DestRec) (q : Word64) : State := { plain with
      fns := [(1, { Fn.init 1 with state := .running, s2bound := 0x10000, stgq := q })]
      dev := { plain.dev with sgcfg := [(0, 0x10001)] }, fab := { live with recs := l } }
    let s (st : RecState) : State := at_ [r st] 0x1000
    let here : RecState → Prop := fun st => List.find? (fun r : DestRec => r.gid == gid) (s st).fab.recs = some (r st)
    let new := stageBytes cell 0x80 [7, 8]
    let off : State := { at_ [r .staging] 0x1000 with fns := [] }
    let tested : State := { s (.ready [0]) with dev := { (s (.ready [0])).dev with testing := [{ kind := 1, num := 0 }] } }
    let kept : State := { plain with fab := { live with outcomes := [gid] } }
    let gone (n : Option Nat) : State := { plain with fab := { live with late := [{ gid := gid, arrived := 1, total := n }] } }
    let saving : State := { plain with dev := { plain.dev with ckstat := 1 } }
    ((s .staging).delivers = true ∧ kept.delivers = true ∧ (∀ n, (gone n).delivers = true) ∧ plain.delivers = false ∧
      (s .staging).checkpointing = false ∧ here .staging ∧ here (.held 2 [0]) ∧ here (.refused 3) ∧ here (.ready [0]) ∧
      here (.readyReset [0]) ∧ here (.decided true) ∧ here (.decided false) ∧ here (.querying [0, 3] [] []) ∧
      List.find? (fun r : DestRec => r.gid == gid) plain.fab.recs = none) ∧
    (((s .staging).fn 1).state = .running ∧ 0x80 + 2 ≤ ((s .staging).fn 1).s2bound.toNat ∧ (r .staging).arrived < 2 ^ 24 ∧
      (s .staging).stageCharge 1 + 64 * ((granules new).length - (granules cell).length) ≤ ((s .staging).fn 1).stgq.toNat ∧
      (r (.held 2 [0])).st = .held ((r (.held 2 [0])).arrived + 1) [0]) ∧
    ((off.fn 1).state ≠ .running ∧ (granules new).length ≠ (granules cell).length ∧ (granules cell).length ≤ (granules new).length ∧
      ((at_ [r .staging] 64).fn 1).stgq.toNat < (at_ [r .staging] 64).stageCharge 1 + 64 * ((granules new).length - (granules cell).length)) ∧
    ((r .staging).arrived = 1 ∧ (r .staging).arrived ≠ 2 ∧ saving.checkpointing = true ∧ 2 ≠ saving.node ∧
      gid.origin ≠ (s (.ready [0])).node ∧ (r .staging).gid = gid ∧
      (⟨0, 1, 5⟩ : GroupId).origin = plain.node ∧ (r (.ready [0])).bytes = [(0x40, 1)] ∧ 0x40 < 2 ^ 60 ∧
      ∃ d ∈ [0, 3], d ≠ 0 ∧ ([] : List Nat).contains d = false ∧ ([] : List Nat).contains d = false) ∧
    ((s (.ready [0])).publishWaits gid = false ∧ (s (.readyReset [0])).publishWaits gid = false ∧
      (s (.querying [0, 3] [] [])).publishWaits gid = false ∧ tested.publishWaits gid = true ∧
      kept.fab.outcomes.contains gid = true ∧ plain.fab.outcomes.contains gid = false) ∧
    -- what comes late of a group that is gone, with PREPARE and without; and of one that is not
    ((∀ n, List.find? (fun r : DestRec => r.gid == gid) (gone n).fab.recs = none) ∧ (∀ n, ∃ x ∈ (gone n).fab.late, x.gid = gid ∧ x.total = n) ∧
      (∀ n, ∀ x ∈ (gone n).fab.late, ∀ y ∈ (gone n).fab.late, x.gid = y.gid → x = y) ∧ (∀ x ∈ kept.fab.late, x.gid ≠ gid) ∧
      List.find? (fun r : DestRec => r.gid == gid) kept.fab.recs = none) ∧
    -- the origin, node 2, is lost
    (2 ≠ (s .staging).node ∧ (s .staging).fab.lostNodes.contains 2 = false ∧ (∀ st, (s st).fab.recs = [r st]) ∧ gid.origin = 2 ∧
      ∃ d ∈ [0, 3], d ≠ (s (.ready [0, 3])).node ∧ d ≠ 2 ∧ (s (.ready [0, 3])).fab.lostNodes.contains d = false) := by
  refine ⟨⟨?_, ?_, fun _ => live_delivers rfl rfl rfl, ?_⟩, ?_, ?_, ?_, ?_, ⟨fun _ => rfl, fun n => ⟨_, List.mem_singleton.mpr rfl, rfl, rfl⟩, ?_, ?_⟩, ?_, ?_, fun _ => rfl, ?_⟩
  on_goal 8 => intro n x hx y hy _; exact (List.mem_singleton.mp hx).trans (List.mem_singleton.mp hy).symm
  all_goals decide +kernel

/-- A destination that holds the most records that it keeps. -/
theorem witness_GroupEvents_full :
    let s : State := { plain with fab := { live with recs := List.replicate 16384 { gid := ⟨2, 1, 5⟩, st := .staging } } }
    s.delivers = true ∧ 16384 ≤ s.recCount ∧ List.find? (fun r : DestRec => r.gid == ⟨2, 1, 6⟩) s.fab.recs = none := by
  intro s
  refine ⟨live_delivers rfl rfl rfl, ?_, ?_⟩
  · rw [State.recCount, List.filter_eq_self.mpr, List.length_replicate]
    intro r h
    rw [List.eq_of_mem_replicate h]
  · rw [List.find?_eq_none]
    intro r h
    rw [List.eq_of_mem_replicate h]
    decide

theorem witness_GroupEvents_origin :
    let gid : GroupId := ⟨0, 0, 7⟩
    let g (st : DestState) (p : GroupPhase) (told : Bool) : Group :=
      { fn := 0, uid := 4, phase := p, dests := [(0, { count := 1, st := st })], told := told }
    let s (g : Group) : State := { grouped g with fab := { (grouped g).fab with fabid := 0x10000, links := live.links } }
    let late : Group := { g .asked .preparing false with upto := 1 }
    let busy : State := { s late with teams := [(4, { groupTeam with eng := { groupTeam.eng with
      fabric := [{ id := 1, idx := 1, pending := 1 }] } })] }
    let own : Group → Prop := fun g => (s g).delivers = true ∧ gid.origin = (s g).node ∧ Tbl.find? (s g).fab.groups gid.number = some g ∧ g.fn = gid.vf
    (own (g .asked .preparing false) ∧ (s (g .asked .preparing false)).groupQuiet (g .asked .preparing false) = true ∧
      (g .asked .preparing false).dests = [(0, { count := 1, st := .asked })] ∧ 0 = (s (g .asked .preparing false)).node) ∧
    busy.groupQuiet late = false ∧
    (own (g .ready .committed true) ∧ own (g .ready .aborted true) ∧ (g .ready .committed true).reason = 0 ∧
      (g .ready .committed true).freed = false ∧ DestState.ready ≠ .acked ∧ DestState.ready ≠ .lost ∧ ¬ DestState.ready = .asked) ∧
    Tbl.find? plain.fab.groups 7 = none := by
  refine ⟨?_, ?_, ?_, ?_⟩ <;> decide +kernel

/-! #### Encodings, issue -/

theorem witness_WordsWithoutMnemonic :
    let q : Quad := ⟨30 * 2 ^ 27, 23 * 2 ^ 27 + 5 * 2 ^ 22, 31 * 2 ^ 27, 0⟩
    (0 < 4 ∧ q.word 0 < 2 ^ 32 ∧ q.word 0 / 2 ^ 27 = 30) ∧ (q.word 1 < 2 ^ 32 ∧ q.word 1 / 2 ^ 27 = 23 ∧ 5 ≤ q.word 1 / 2 ^ 22 % 32) ∧
    q.word 2 < 2 ^ 32 ∧ q.word 2 / 2 ^ 27 = 31 ∧ q.word 3 < 2 ^ 32 ∧ q.word 3 / 2 ^ 27 = 0 := by decide +kernel

theorem witness_EncodeDecode : Instr.wf Counts.max (.addI32 (some ⟨true, 3⟩) 200 5 9) = true := by decide +kernel

theorem witness_Pip4Bytes : 0 < 8 ∧ 7 < 8 ∧ 8 < 16 ∧ 15 ≠ 8 ∧ 15 < 16 := by decide

theorem witness_TeamStart :
    let img (slot : Nat) : Image := { fn := 0, num := 0, imgid := 0, keySlot := slot, kernels := [kern], overlays := [], code := [] }
    let s (slot : Nat) : State := { plain with images := [img slot] }
    (s 0).imageOf 0 ((packetOf 0).kernel / 2 ^ 16) = some (img 0) ∧ (s 1).imageOf 0 ((packetOf 0).kernel / 2 ^ 16) = some (img 1) ∧
    (img 0).kernels[(packetOf 0).kernel % 2 ^ 16]? = some kern ∧ Pool.genOk ([] : Pool TokenObj) = true ∧ 255 < 256 ∧
    (0xFF : Handle).toNat / 256 = 0 := by decide +kernel

/-- The code of the plain state is zeros, and so nop; a word of major 30 in its first slot is an illegal encoding. -/
theorem witness_StepRunsDecoded :
    let bad : State := { plain with sets := [(1, { codeSet with code := [(3, 0xF0)] })] }
    let runs : State → Prop := fun b => b.agenda = [] ∧ b.focus = (0, 0) ∧ b.safePointAt (0, 0) = b ∧ b.traceStopped (0, 0) = false ∧
      b.selectAt (0, 0) = some (4, team) ∧ Tbl.find? b.teams 4 = some team ∧ b.issueBarred (0, 0) team = false ∧
      team.link.detail = false ∧ b.lostOverlay team team.ctl.bank team.ctl.pc = none ∧ b.overlayIn team team.ctl.bank = some 0 ∧
      b.inOverlay team 0 0 = true
    let full : State := { plain with
      fns := [(0, { Fn.init 0 with trctl := 3, trbase := 4, trtail := 16, trWait := [{ kind := 1, team := 0, crew := 0, vpc := 0, cyc := 0, data := 0, place := some (0, 0) }] })] }
    (runs plain ∧ decodeSlot (plain.countsOf team) (plain.fetchQuad team 0) (effectiveSlot (plain.fetchQuad team 0) 0) = .instr .nop) ∧
    (runs bad ∧ decodeSlot (bad.countsOf team) (bad.fetchQuad team 0) (effectiveSlot (bad.fetchQuad team 0) 0) = .illegal 0 1) ∧
    full.traceStopped (0, 0) = true ∧ ({ team with status := .waiting } : Team).status = .waiting ∧ State.reset.traceStopped (0, 0) = false ∧ State.reset.selectAt (0, 0) = none ∧
    (∃ p, p ∈ plain.subs ∧ Tbl.sortedFrom 0 plain.subs = true) ∧ decodeTableWord 32 0 = some .nop := by
  refine ⟨?_, ?_, ?_, rfl, ?_, ?_, ⟨_, .head _, ?_⟩, ?_⟩ <;> decide +kernel

/-- An act at the head of the agenda, of a function that is granted and ready. -/
theorem witness_WorldActs :
    let s : State := { plain with agenda := [.world (.barRead 0 0 0x40 8)], dev := { plain.dev with phase := 3 } }
    s.agenda = .world (.barRead 0 0 0x40 8) :: [] ∧ (8 = 8 ∧ 0x40 % 8 = 0) ∧ ¬ (4 = 8 ∧ 0x40 % 8 = 0) ∧ 0x40 < 2 ^ 18 ∧
    (List.replicate 8 (1 : Byte)).length = 8 ∧ 2 ^ 16 ≤ 0x1F0040 ∧ 0x1F0040 < 2 ^ 21 ∧ s.dev.phase ≠ 15 ∧
    (∀ i, i < 4 → s.inFlight (.host (0x1000 + i)) = false) ∧ s.descheduled 0 = false ∧
    (let away : State := { s with fns := [(0, { Fn.init 0 with masked := [1], pending := [1] })], dev := { s.dev with brdcfg := [(0, 0x21100100)], slices := [(0, { running := some 1, pair := some (0, 1) })] } };
      away.descheduled 0 = true ∧ (away.fn 0).pending.contains 1 = true) ∧
    ((s.maskVector 0 1 true).msi 0 1 |>.fn 0).pending.contains 1 = true ∧ Tbl.find? s.teams 4 = some team := by decide +kernel

/-- Reset's memory is in its form, and a step from reset answers a next state. -/
theorem witness_StepKeepsMemory : State.reset.memOk = true ∧ ∃ s', step State.reset = .next s' := ⟨by decide, _, rfl⟩

/-! ### One step on a small state: what an instruction leaves in a register or in memory, or the trap it takes -/

/-- The team after an instruction, if it answered a next state. -/
def after (i : Instr) (s : State) : Option Team :=
  match exec i s with
  | .next s' => Tbl.find? s'.teams 4
  | _ => none

/-- The plain team with one value in v2 and one in v3, in both lanes. -/
def operands (a b : Word) : State :=
  of { team with regs := { regs with vt := [(1025, 1), (2048, a), (2049, a), (3072, b), (3073, b)] } }

/-- R107: wrapping; and the pc moves to the next slot. -/
theorem test_add_wraps : (after (.addI32 none 4 2 3) (operands 0xFFFFFFFF 2)).map (fun t => (t.regs.v 4 0, t.ctl.pc)) = some (1, 4) := by
  decide +kernel
/-- R109: a count is not reduced, and zeros come from the right. -/
theorem test_shl_count : (after (.shlB32 none 4 2 3) (operands 3 31)).map (fun t => t.regs.v 4 1) = some 0x80000000 ∧
    (after (.shlB32 none 4 2 3) (operands 3 33)).map (fun t => t.regs.v 4 1) = some 0 := by decide +kernel
/-- R108: a saturated sum raises SAT. -/
theorem test_adds_saturates : (after (.addsI32 none 4 2 3) (operands 0x7FFFFFFF 1)).map (fun t => (t.regs.v 4 0, t.regs.nflags)) =
    some (0x7FFFFFFF, flagSAT) := by decide +kernel
/-- R143, R148: the bytes of a store, little-endian, at x1 plus four times v1; lane 1 stores four bytes further (R26). -/
theorem test_store_bytes : (match exec (.stB32 none 2 1 1 0) (operands 0x11223344 0) with
    | .next s' => (Tbl.find? s'.crews 1).map fun c => (List.range 9).map fun a => peek c.scratch a
    | _ => none) = some [0x44, 0x33, 0x22, 0x11, 0x44, 0x33, 0x22, 0x11, 0] := by decide +kernel
/-- R117: the team of 40 lanes, p3 true in lanes 3, 5 and 33. -/
theorem test_ballot : let t : Team := { team with nlane := 40, ctl := { active := 2 ^ 40 - 1 }, regs := { regs with pt := [(3, 0x200000028)] } }
    ((after (.ballot none 2 3 0) (of t)).map fun u => u.regs.s 2) = some 0x28 ∧
    ((after (.ballot none 4 3 1) (of t)).map fun u => u.regs.s 4) = some 2 ∧
    ((after (.pcnt none 8 3) (of t)).map fun u => u.regs.s 8) = some 3 ∧
    ((after (.voteAll (some ⟨false, 3⟩) 4 3) (of t)).map fun u => u.regs.q 4) = some true := by decide +kernel
/-- R220, R343: a trap at an enabled handler: its immediate in TINFO, its own address in TVPC, the pc at the handler's address. -/
theorem test_trap : (after (.trap none 0x123)
    (vectored [(0, { halfA := some (1, 0), halfB := some (1, 1), selected := some 4 })] { team with ctl := { team.ctl with pc := 8 } })).map
      (fun t => (t.trap.last.cause, t.trap.last.vpc, t.trap.last.info, t.ctl.pc, t.trap.handlers.length)) = some (0x0A, 8, 0x123, 0x8010, 1) := by
  decide +kernel

end Sys2Proof.Tests
end

/-! Words without a mnemonic (R54): what the opcode map leaves unnamed, and why no other defect of a quad hides the reason
that such a word gives. -/

namespace Sys2Proof.Laws.OpcodeMap
open Sys2Proof Sys2Proof.Machine

/-! ### The FNs that the map names -/

/-- FN's place in a word of a major (R25 to R28). -/
def fnBits (mj w : Nat) : Nat :=
  if mj = 18 then w / 2 ^ 23 % 16 else if mj = 16 ∨ mj = 17 ∨ mj = 25 ∨ mj = 28 then w / 2 ^ 24 % 8 else w / 2 ^ 22 % 32

/-- The table of R54: an FN that names no mnemonic in its major. -/
def Unnamed (mj fn : Nat) : Prop :=
  ((mj = 0 ∨ mj = 13) ∧ 7 ≤ fn) ∨ ((mj = 1 ∨ mj = 12) ∧ 16 ≤ fn) ∨ ((mj = 2 ∨ mj = 26) ∧ 6 ≤ fn) ∨ (mj = 3 ∧ 13 ≤ fn) ∨
  ((mj = 4 ∨ mj = 5 ∨ mj = 7 ∨ mj = 9 ∨ mj = 20) ∧ 8 ≤ fn) ∨ ((mj = 6 ∨ mj = 8 ∨ mj = 19 ∨ mj = 29) ∧ 10 ≤ fn) ∨
  ((mj = 10 ∨ mj = 15) ∧ 11 ≤ fn) ∨ ((mj = 11 ∨ mj = 14) ∧ 15 ≤ fn) ∨ ((mj = 17 ∨ mj = 25 ∨ mj = 28) ∧ fn = 7) ∨
  (mj = 21 ∧ 7 ≤ fn) ∨ (mj = 22 ∧ 4 ≤ fn) ∨ (mj = 23 ∧ 5 ≤ fn) ∨ (mj = 24 ∧ 6 ≤ fn) ∨ (mj = 27 ∧ 3 ≤ fn)

theorem Unnamed.lt_thirty {mj fn : Nat} (h : Unnamed mj fn) : mj < 30 := by
  unfold Unnamed at h; omega

/-- The top five bits of a 32-bit word are its major. -/
theorem bits_major {w : Nat} (hw : w < 2 ^ 32) : bits w 31 27 = w / 2 ^ 27 := by
  unfold bits; omega

theorem isLender_iff {w : Nat} (hw : w < 2 ^ 32) : isLender w = true ↔ w / 2 ^ 27 = 31 := by
  rw [isLender, bits_major hw, beq_iff_eq]

theorem formOf_eq (mj : Nat) :
    formOf mj = if mj = 18 then .AT else if mj = 16 ∨ mj = 17 ∨ mj = 28 then .M else if mj = 25 then .J else .A := by
  unfold formOf; split <;> simp_all

theorem fnOf_eq_fnBits (w : Nat) : fnOf w = fnBits (bits w 31 27) w := by
  unfold fnOf fnBits
  rw [formOf_eq]
  split_ifs <;> simp_all [bits]

/-- The rows of the map end where R54's table begins; majors 16 and 18 name every FN that their words can hold. -/
theorem opInfo_eq_none_iff {mj : Nat} (h : mj < 30) (w : Nat) : opInfo mj (fnBits mj w) = none ↔ Unnamed mj (fnBits mj w) := by
  rw [opInfo, List.getElem?_eq_none_iff]
  interval_cases mj <;> simp [opRows, Unnamed, fnBits] <;> omega

/-! ### Reasons of 3 and more

Reasons 1 and 2 come only from a slot's own word (R36), so whatever a lender adds is a greater reason. -/

/-- Every reason of the list is 3 or more. -/
def FromThree (l : List Nat) : Prop := ∀ r ∈ l, 3 ≤ r

@[simp] theorem fromThree_nil : FromThree [] := by simp [FromThree]

@[simp] theorem fromThree_cons {r : Nat} {l : List Nat} : FromThree (r :: l) ↔ 3 ≤ r ∧ FromThree l := by simp [FromThree]

@[simp] theorem fromThree_append {l m : List Nat} : FromThree (l ++ m) ↔ FromThree l ∧ FromThree m := List.forall_mem_append

@[simp] theorem fromThree_reasonIf {b : Bool} {r : Nat} : FromThree (reasonIf b r) ↔ (b = true → 3 ≤ r) := by
  cases b <;> simp [reasonIf]

@[simp] theorem fromThree_ite {p : Prop} [Decidable p] {l m : List Nat} :
    FromThree (if p then l else m) ↔ (p → FromThree l) ∧ (¬p → FromThree m) := by
  split <;> simp [*]

@[simp] theorem fromThree_roleDefects (c : Counts) (r : Role) (lo n : Nat) : FromThree (roleDefects c r lo n) := by
  unfold roleDefects; split <;> simp

@[simp] theorem fromThree_literalDefects (f : Fields) : FromThree (literalDefects f) := by
  unfold literalDefects; split <;> simp

@[simp] theorem fromThree_atomicDefects (f : Fields) : FromThree (atomicDefects f) := by
  unfold atomicDefects; dsimp only; split <;> simp

@[simp] theorem fromThree_codeDefects (f : Fields) : FromThree (codeDefects f) := by
  unfold codeDefects; split <;> simp

@[simp] theorem fromThree_guardDefects (gc : GuardClass) (g : Nat) (entry : Option Nat) :
    FromThree (guardDefects gc g entry) := by
  unfold guardDefects; split
  · simp
  · split <;> simp

@[simp] theorem reasonIf_eq_nil {b : Bool} {r : Nat} : reasonIf b r = [] ↔ b = false := by
  cases b <;> simp [reasonIf]

theorem ownDefects_major30 {w : Nat} (h : bits w 31 27 = 30) (c : Counts) (l : Lend) : ownDefects c w l = [1] := by
  simp [ownDefects, h]

theorem ownDefects_major31 {w : Nat} (h : bits w 31 27 = 31) (c : Counts) (l : Lend) : ownDefects c w l = [3] := by
  simp [ownDefects, h]

theorem ownDefects_unnamed {w : Nat} (hmj : bits w 31 27 < 30) (h : opInfo (bits w 31 27) (fnOf w) = none) (c : Counts)
    (l : Lend) : ownDefects c w l = [2] := by
  simp [ownDefects, h, show bits w 31 27 ≠ 30 by omega, show bits w 31 27 ≠ 31 by omega]

@[simp] theorem fieldsOfWord_fn (info : OpInfo) (w : Nat) (l : Lend) : (fieldsOfWord info w l).fn = fnOf w := by
  cases hf : info.form <;> simp only [fieldsOfWord, hf]
  case J => split <;> rfl

/-- The condition of form J, which is the operation of an ext word, is in the word alone. -/
theorem fieldsOfWord_p {info : OpInfo} (h : info.form = .J) (w : Nat) (l : Lend) :
    (fieldsOfWord info w l).p = bits w 23 20 := by
  simp only [fieldsOfWord, h]; split <;> rfl

/-- An ext word's operation is in its own bits, so lender bits give no reason 2 where the bare word gives none. -/
theorem fromThree_ownDefects {c : Counts} {w : Nat} (legal : ownDefects c w {} = []) (l : Lend) :
    FromThree (ownDefects c w l) := by
  by_cases h30 : bits w 31 27 = 30
  · simp [ownDefects_major30 h30] at legal
  by_cases h31 : bits w 31 27 = 31
  · simp [ownDefects_major31 h31] at legal
  simp only [ownDefects, h30, h31, if_false] at legal ⊢
  cases hop : opInfo (bits w 31 27) (fnOf w) with
  | none => simp [hop] at legal
  | some info =>
    simp only [hop] at legal ⊢
    cases hf : info.form
    case J =>
      simp only [hf, fieldsOfWord_fn, fieldsOfWord_p hf, List.append_eq_nil_iff] at legal ⊢
      by_cases hext : fnOf w = 6
      · simp only [hext, List.append_eq_nil_iff, reasonIf_eq_nil] at legal
        obtain ⟨-, ⟨hcode, -⟩, -⟩ := legal
        simp [hext, hcode]
      · simp only [fromThree_append, fromThree_reasonIf]
        refine ⟨by simp, ?_⟩
        split <;> simp_all
    all_goals simp

/-- The high bits lent to a field that takes none (R34). -/
theorem fromThree_widens (r : Role) (hi : Nat) :
    FromThree (match r with | .none | .lit => reasonIf (hi != 0) 5 | _ => []) := by
  split <;> simp

theorem fromThree_placeDefects (w : Nat) (l : Lend) : FromThree (placeDefects w l) := by
  unfold placeDefects
  cases opInfo (bits w 31 27) (fnOf w) with
  | none => simp
  | some info =>
    have hd := fromThree_widens info.d l.dh
    have ha := fromThree_widens info.a l.ah
    have hb := fromThree_widens info.b l.bh
    cases hf : info.form <;> simp only [hf, fromThree_append]
    case A => exact ⟨⟨⟨hd, ha⟩, hb⟩, by simp⟩
    case I => exact ⟨⟨hd, ha⟩, by simp⟩
    case M => exact ⟨⟨⟨hd, ha⟩, by simp⟩, by simp⟩
    case AT => simp
    case J => simp

theorem fromThree_modifierDefects (w : Nat) (l : Lend) : FromThree (modifierDefects w l) := by
  unfold modifierDefects; split <;> simp

theorem fromThree_lentDefects (c : Counts) (w0 w i : Nat) : FromThree (lentDefects c w0 w i) := by
  simp +contextual [lentDefects, fromThree_placeDefects, fromThree_modifierDefects, fromThree_ownDefects]

theorem fromThree_lenderDefects (c : Counts) (q : Quad) : FromThree (lenderDefects c q) := by
  simp [lenderDefects, fromThree_lentDefects]

/-! ### The reason that a slot gives -/

theorem leastReason_mem {l : List Nat} {r : Nat} (h : leastReason l = some r) : r ∈ l := by
  induction l generalizing r with
  | nil => simp [leastReason] at h
  | cons a l ih =>
    cases hl : leastReason l with
    | none => simp_all [leastReason]
    | some b =>
      have hb := ih hl
      simp only [leastReason, hl, Option.some.injEq] at h
      rcases min_choice a b with hm | hm <;> simp_all

/-- A slot whose own word has one defect of reason 1 or 2, whatever is lent to it, gives that reason: the lender's are
greater (R37). -/
theorem decodeSlot_of_ownDefects {c : Counts} {q : Quad} {i r : Nat} (own : ∀ l, ownDefects c (q.word i) l = [r])
    (hr : r < 3) : decodeSlot c q i = .illegal i r := by
  have hown : leastReason (slotDefects c q.w0 (q.word i) i) = some r := by simp [slotDefects, own, leastReason]
  have hat : defectAt c q i = some (i, r) := by
    cases hlent : if isLender q.w0 then leastReason (lenderDefects c q) else none with
    | none => simp [defectAt, hown, hlent]
    | some r' =>
      have hr' : 3 ≤ r' := by
        split at hlent
        · exact fromThree_lenderDefects c q r' (leastReason_mem hlent)
        · contradiction
      simp [defectAt, hown, hlent, hr.trans_le hr']
  simp [decodeSlot, hat]

/-- Settles O53: the map has a row for each FN outside R54's table and for no other, and no lender's defect is below the
reason of a word without a mnemonic. -/
theorem wordsWithoutMnemonic : Obligations.WordsWithoutMnemonic := by
  intro c q i _ hw
  have hmj := bits_major hw
  have hfn : fnOf (q.word i) = fnBits (q.word i / 2 ^ 27) (q.word i) := by rw [fnOf_eq_fnBits, hmj]
  refine ⟨fun h30 => ?_, fun hun => ?_, fun hnamed hlt hnone => ?_, (isLender_iff hw).symm⟩
  · exact decodeSlot_of_ownDefects (ownDefects_major30 (hmj.trans h30) c) (by decide)
  · have hlt := Unnamed.lt_thirty hun
    have hnone := (opInfo_eq_none_iff hlt (q.word i)).mpr hun
    rw [← hfn, ← hmj] at hnone
    exact decodeSlot_of_ownDefects (ownDefects_unnamed (hmj ▸ hlt) hnone c) (by decide)
  · rw [hfn] at hnone
    exact hnamed ((opInfo_eq_none_iff hlt (q.word i)).mp hnone)

end Sys2Proof.Laws.OpcodeMap

/-! Pip4 bytes (R83, R84): what a byte decodes to from its two nibbles, and where the values of doublets lie. -/

namespace Sys2Proof.Laws.Pip4
open Sys2Proof Sys2Proof.Machine

theorem pip4Code_eq {c : Nat} (hc : c < 16) : pip4Code c = if c < 8 then (c : Int) else -((16 - c : Nat) : Int) := by
  unfold pip4Code
  split <;> omega

/-! ### Doublets -/

/-- Bit 3 of a payload is a doublet's sign. -/
theorem doubletValue_eq {p : Nat} (hp : p < 16) (osh : Nat) :
    doubletValue p osh = (if p / 8 = 1 then -1 else 1) * 2 ^ (3 + p % 8 + osh) := by
  by_cases hneg : 8 ≤ p
  · have hsign : p / 8 = 1 := by omega
    simp [doubletValue, hneg, hsign]
  · have hsign : p / 8 ≠ 1 := by omega
    simp [doubletValue, hneg, hsign]

theorem natAbs_doubletValue (p osh : Nat) : (doubletValue p osh).natAbs = 2 ^ (3 + p % 8 + osh) := by
  unfold doubletValue
  dsimp only
  split
  · rw [Int.natAbs_neg, Int.natAbs_natCast]
  · rw [Int.natAbs_natCast]

theorem le_natAbs_doubletValue (p osh : Nat) : 8 ≤ (doubletValue p osh).natAbs := by
  rw [natAbs_doubletValue]
  calc 8 = 2 ^ 3 := rfl
    _ ≤ 2 ^ (3 + p % 8 + osh) := Nat.pow_le_pow_right two_pos (by omega)

theorem natAbs_doubletValue_le {osh : Nat} (hosh : osh < 8) (p : Nat) : (doubletValue p osh).natAbs ≤ 2 ^ 17 := by
  rw [natAbs_doubletValue]
  exact Nat.pow_le_pow_right two_pos (by omega)

/-- A magnitude of 2^(3 + OSH) has exponent 0, and the only negative payload with it is the marker 1000. -/
theorem doubletValue_ne_neg {p : Nat} (hp : p < 16) (hmark : p ≠ 8) (osh : Nat) :
    doubletValue p osh ≠ -(2 ^ (3 + osh)) := by
  intro h
  have habs : 2 ^ (3 + p % 8 + osh) = 2 ^ (3 + osh) := by
    rw [← natAbs_doubletValue, h, Int.natAbs_neg, Int.natAbs_pow]; rfl
  have hexp : 3 + p % 8 + osh = 3 + osh := Nat.pow_right_injective le_rfl habs
  obtain rfl : p = 0 := by omega
  have hval : doubletValue 0 osh = 2 ^ (3 + osh) := by simp [doubletValue]
  have hpos : (0 : Int) < 2 ^ (3 + osh) := by positivity
  omega

/-! ### Bytes -/

/-- The rows of R84's table, by the byte's nibbles. -/
theorem pip4Decode_nibbles {lo hi : Nat} (hlo : lo < 16) (hhi : hi < 16) (osh : Nat) :
    pip4Decode osh (lo + 16 * hi) =
      if lo = 8 then if hi = 8 then (0, 0) else (doubletValue hi osh, 0)
      else if hi = 8 then (0, doubletValue lo osh) else (pip4Code lo, pip4Code hi) := by
  have hlow : (lo + 16 * hi) % 16 = lo := by omega
  have hhigh : (lo + 16 * hi) / 16 % 16 = hi := by omega
  simp only [pip4Decode, hlow, hhigh]
  by_cases h : lo = 8 <;> simp [h]

/-- Settles O55, row by row of R84's table. -/
theorem pip4Bytes : Obligations.Pip4Bytes := by
  intro osh lo hi hosh hlo hhi code doublet
  have hdoublet : ∀ p, p < 16 → doubletValue p osh = doublet p := fun p hp => doubletValue_eq hp osh
  rw [pip4Decode_nibbles hlo hhi]
  refine ⟨fun hl hh => ?_, fun hl hh => ?_, fun hl hh => ?_, fun hl hh => ?_, fun p hp hmark => ?_⟩
  · rw [if_neg hl, if_neg hh, pip4Code_eq hlo, pip4Code_eq hhi]
  · rw [if_pos hl, if_neg hh, hdoublet hi hhi]
  · rw [if_neg hl, if_pos hh, hdoublet lo hlo]
  · rw [if_pos hl, if_pos hh]
  · rw [← hdoublet p hp]
    exact ⟨le_natAbs_doubletValue p osh, natAbs_doubletValue_le hosh p, doubletValue_ne_neg hp hmark osh⟩

end Sys2Proof.Laws.Pip4
